-- ==== Sys2Proof/Word.lean ====
section
/-!
DEFINITION. The plain words of the machine (spec/00_scope.md R5, R7): bytes, halfwords, words,
doublewords, and nothing else.
-/

namespace Sys2Proof

/-- A byte, 8 bits (R7). -/
abbrev Byte := BitVec 8
/-- A halfword, 16 bits (R7). -/
abbrev Half := BitVec 16
/-- A word, 32 bits (R7): the width of a general register (R14). -/
abbrev Word := BitVec 32
/-- A doubleword, 64 bits (R7): the width of a data address, of an address pair and of the PC. -/
abbrev DWord := BitVec 64

end Sys2Proof
end

