-- ==== Sys2Proof/Machine/Event.lean ====
section
/-!
DEFINITION. The plain data that an event row of the opcode table carries: operation classes, places of
an error, window registers, and requests that arrive over the fabric.
-/

namespace Sys2Proof

/-- The four counter classes of a crew (R125, R137, R212). -/
inductive OpClass where
  | ld | st | cp | mx
  deriving DecidableEq, Repr

/-- Where an uncorrectable error is found (R421). -/
inductive ErrPlace where
  /-- a memory read for a fill, of the line at this physical line number -/
  | memoryLine (l : Nat)
  /-- a clean line of this plot's cache -/
  | cleanLine (p l : Nat)
  /-- a clean line of a shared-cache slice -/
  | cleanShared (l : Nat)
  /-- a copy of a line that this plot holds on the READONLY path -/
  | roLine (p l : Nat)
  /-- a copy of a line that this plot holds on the instruction path -/
  | codeLine (p l : Nat)
  /-- a dirty line of a shared-cache slice -/
  | dirtyShared (l : Nat)
  /-- a dirty line of this plot's cache -/
  | dirtyPlot (p l : Nat)
  /-- registers, banks, tiles, seedbed or emit buffer that this cast owns -/
  | castStorage (c : Nat)
  /-- translation caches, slate cache or loop buffer of this plot -/
  | plotCaches (p : Nat)
  deriving DecidableEq, Repr

/-- What a patrol read of a line finds (R446). -/
inductive ScrubFinding where
  | clean | corrected | uncorrectable
  deriving DecidableEq, Repr

/-- The registers that take a write without behaviour of their own (R9): the memory-system window
(R411, R424, R455) and the way-partition registers (R84). -/
inductive WindowReg where
  | sfrBase | sfrLog | sfrHead | migva | rtBase
  /-- MCMD, the doubleword at 0x300 (R455) -/
  | mcmd
  /-- MDATA, the doubleword at 0x308 + 8*i -/
  | mdata (i : Nat)
  /-- WPMASK i of compute die d -/
  | wpmask (d i : Nat)
  /-- ACMD with the reserved OP 3 (R424, R425) -/
  | acmdReserved
  deriving DecidableEq, Repr

/-- What a request at an arbiter is (R427), with the allotments that the charge depends on. -/
inductive Charge where
  /-- a local access of an allotment -/
  | access (al : Nat)
  /-- a remote request at the source device's ports, with the requester -/
  | remoteOut (requester : Nat)
  /-- a remote request at the target's ports and controllers, with the peer allotment that it reaches -/
  | remoteIn (peer : Nat)
  /-- a migration or a page-out, with the page's owner -/
  | move (owner : Nat)
  /-- a walk, a write-back by promotion or a scrub, with the allotment whose action caused it -/
  | caused (al : Nat)
  /-- owner-0 traffic -/
  | system
  deriving DecidableEq, Repr

/-- The kinds of access that a fault record names in ACCK (R417). -/
inductive Acck where
  | none | load | store | atomic | fetch | walk | copyRead | copyWrite | outlier | commit | seedbed | slate
  deriving DecidableEq, Repr

/-- What a request of another device asks for (R434, R435). -/
inductive FabricOp where
  | load (n : Nat)
  /-- a store; `rel` says that it is an STS, which wakes waiters (R226) -/
  | store (d : List Byte) (rel : Bool)
  /-- an atomic or RED with the operation code of R231 and its two operands -/
  | atomic (op : BitVec 4) (x y : Word)
  /-- ATOMT with its operand and its threshold (R234) -/
  | atomt (x limit : Word)
  deriving DecidableEq, Repr

/-- A request that arrives over the fabric (R433, R434). -/
structure FabricRequest where
  src : BitVec 11
  peer : BitVec 12
  reqa : BitVec 12
  addr : DWord
  op : FabricOp
  deriving DecidableEq, Repr

end Sys2Proof
end

