-- ==== Sys2Proof/Syntax.lean ====
section
/-!
DEFINITION. The instructions: one constructor per row of spec/opcode_table.json. The first 182 are the
instruction words (16-bit forms of R127, 32-bit forms of R122; a field named `q` is the cue bit); the
last 93 are the steps of the part's other agents, with the inputs such a step takes.
-/

namespace Sys2Proof

/-- The rows of spec/opcode_table.json. -/
inductive Instr where
  /-- MOV (R128): 16-bit move: x[d] := x[a]. -/
  | mov (d : BitVec 5) (a : BitVec 5)
  /-- ADD_N (R128): 16-bit wrapping add of x[a] into x[d]. -/
  | addN (d : BitVec 5) (a : BitVec 5)
  /-- SUB_N (R128): 16-bit wrapping subtract of x[a] from x[d]. -/
  | subN (d : BitVec 5) (a : BitVec 5)
  /-- AND_N (R128): 16-bit bitwise AND into x[d]. -/
  | andN (d : BitVec 5) (a : BitVec 5)
  /-- OR_N (R128): 16-bit bitwise OR into x[d]. -/
  | orN (d : BitVec 5) (a : BitVec 5)
  /-- XOR_N (R128): 16-bit bitwise XOR into x[d]. -/
  | xorN (d : BitVec 5) (a : BitVec 5)
  /-- SHL_N (R128): 16-bit shift left of x[d] by x[a] mod 32. -/
  | shlN (d : BitVec 5) (a : BitVec 5)
  /-- SHR_N (R128): 16-bit logical shift right of x[d] by x[a] mod 32. -/
  | shrN (d : BitVec 5) (a : BitVec 5)
  /-- ADDI5 (R128): 16-bit add of a signed 5-bit immediate to x[d]. -/
  | addi5 (d : BitVec 5) (im : BitVec 5)
  /-- FADD_N (R128): 16-bit FP32 add into x[d], rounded by MODE. -/
  | faddN (d : BitVec 5) (a : BitVec 5)
  /-- FSUB_N (R128): 16-bit FP32 subtract into x[d], rounded by MODE. -/
  | fsubN (d : BitVec 5) (a : BitVec 5)
  /-- FMUL_N (R128): 16-bit FP32 multiply into x[d], rounded by MODE. -/
  | fmulN (d : BitVec 5) (a : BitVec 5)
  /-- FMIN_N (R128): 16-bit FP32 minimumNumber into x[d]. -/
  | fminN (d : BitVec 5) (a : BitVec 5)
  /-- FMAX_N (R128): 16-bit FP32 maximumNumber into x[d]. -/
  | fmaxN (d : BitVec 5) (a : BitVec 5)
  /-- MOVI5 (R128): 16-bit load of a sign-extended 5-bit immediate into x[d]. -/
  | movi5 (d : BitVec 5) (im : BitVec 5)
  /-- MUL_N (R128): 16-bit low-32-bit multiply into x[d]. -/
  | mulN (d : BitVec 5) (a : BitVec 5)
  /-- ILL (R131): Permanently undefined major 0x00; raises ILL. -/
  | ill (q : Bool) (u : BitVec 24)
  /-- ADD (R147): IALU wrapping add x[a] + x[b]. -/
  | add (q : Bool) (d : BitVec 6) (a : BitVec 6) (b : BitVec 6)
  /-- SUB (R147): IALU wrapping subtract. -/
  | sub (q : Bool) (d : BitVec 6) (a : BitVec 6) (b : BitVec 6)
  /-- AND (R147): IALU bitwise AND. -/
  | and (q : Bool) (d : BitVec 6) (a : BitVec 6) (b : BitVec 6)
  /-- OR (R147): IALU bitwise OR. -/
  | or (q : Bool) (d : BitVec 6) (a : BitVec 6) (b : BitVec 6)
  /-- XOR (R147): IALU bitwise XOR. -/
  | xor (q : Bool) (d : BitVec 6) (a : BitVec 6) (b : BitVec 6)
  /-- ANDN (R147): IALU x[a] AND NOT x[b]. -/
  | andn (q : Bool) (d : BitVec 6) (a : BitVec 6) (b : BitVec 6)
  /-- SHL (R147): IALU shift left by x[b] mod 32. -/
  | shl (q : Bool) (d : BitVec 6) (a : BitVec 6) (b : BitVec 6)
  /-- SHR (R147): IALU logical shift right. -/
  | shr (q : Bool) (d : BitVec 6) (a : BitVec 6) (b : BitVec 6)
  /-- SRA (R147): IALU arithmetic shift right. -/
  | sra (q : Bool) (d : BitVec 6) (a : BitVec 6) (b : BitVec 6)
  /-- ROR (R147): IALU rotate right. -/
  | ror (q : Bool) (d : BitVec 6) (a : BitVec 6) (b : BitVec 6)
  /-- MUL (R147): IALU low 32 bits of product. -/
  | mul (q : Bool) (d : BitVec 6) (a : BitVec 6) (b : BitVec 6)
  /-- MULH (R147): IALU high word of signed product. -/
  | mulh (q : Bool) (d : BitVec 6) (a : BitVec 6) (b : BitVec 6)
  /-- MULHU (R147): IALU high word of unsigned product. -/
  | mulhu (q : Bool) (d : BitVec 6) (a : BitVec 6) (b : BitVec 6)
  /-- MULHSU (R147): IALU high word of signed-by-unsigned product. -/
  | mulhsu (q : Bool) (d : BitVec 6) (a : BitVec 6) (b : BitVec 6)
  /-- DIV (R149): Signed quotient, left pending. -/
  | div (q : Bool) (d : BitVec 6) (a : BitVec 6) (b : BitVec 6)
  /-- DIVU (R149): Unsigned quotient, left pending. -/
  | divu (q : Bool) (d : BitVec 6) (a : BitVec 6) (b : BitVec 6)
  /-- REM (R149): Signed remainder, left pending. -/
  | rem (q : Bool) (d : BitVec 6) (a : BitVec 6) (b : BitVec 6)
  /-- REMU (R149): Unsigned remainder, left pending. -/
  | remu (q : Bool) (d : BitVec 6) (a : BitVec 6) (b : BitVec 6)
  /-- MIN (R147): Signed minimum. -/
  | min (q : Bool) (d : BitVec 6) (a : BitVec 6) (b : BitVec 6)
  /-- MAX (R147): Signed maximum. -/
  | max (q : Bool) (d : BitVec 6) (a : BitVec 6) (b : BitVec 6)
  /-- MINU (R147): Unsigned minimum. -/
  | minu (q : Bool) (d : BitVec 6) (a : BitVec 6) (b : BitVec 6)
  /-- MAXU (R147): Unsigned maximum. -/
  | maxu (q : Bool) (d : BitVec 6) (a : BitVec 6) (b : BitVec 6)
  /-- CLZ (R147): Count leading zeros. -/
  | clz (q : Bool) (d : BitVec 6) (a : BitVec 6)
  /-- POPC (R147): Count one bits. -/
  | popc (q : Bool) (d : BitVec 6) (a : BitVec 6)
  /-- BREV (R147): Reverse the bits of x[a]. -/
  | brev (q : Bool) (d : BitVec 6) (a : BitVec 6)
  /-- SLT (R147): Set 1 if signed less than. -/
  | slt (q : Bool) (d : BitVec 6) (a : BitVec 6) (b : BitVec 6)
  /-- SLTU (R147): Set 1 if unsigned less than. -/
  | sltu (q : Bool) (d : BitVec 6) (a : BitVec 6) (b : BitVec 6)
  /-- ADDI (R151): Add sign-extended 12-bit immediate. -/
  | addi (q : Bool) (d : BitVec 6) (a : BitVec 6) (im : BitVec 12)
  /-- ANDI (R151): AND with zero-extended immediate. -/
  | andi (q : Bool) (d : BitVec 6) (a : BitVec 6) (im : BitVec 12)
  /-- ORI (R151): OR with zero-extended immediate. -/
  | ori (q : Bool) (d : BitVec 6) (a : BitVec 6) (im : BitVec 12)
  /-- XORI (R151): XOR with zero-extended immediate. -/
  | xori (q : Bool) (d : BitVec 6) (a : BitVec 6) (im : BitVec 12)
  /-- SHLI (R152): Shift left by immediate. -/
  | shli (q : Bool) (d : BitVec 6) (a : BitVec 6) (n : BitVec 5)
  /-- SHRI (R152): Logical shift right by immediate. -/
  | shri (q : Bool) (d : BitVec 6) (a : BitVec 6) (n : BitVec 5)
  /-- SRAI (R152): Arithmetic shift right by immediate. -/
  | srai (q : Bool) (d : BitVec 6) (a : BitVec 6) (n : BitVec 5)
  /-- RORI (R152): Rotate right by immediate. -/
  | rori (q : Bool) (d : BitVec 6) (a : BitVec 6) (n : BitVec 5)
  /-- LUI (R153): x[d] := v << 16. -/
  | lui (q : Bool) (d : BitVec 6) (v : BitVec 16)
  /-- LUI_Z (R153): x[d] := v zero-extended. -/
  | luiZ (q : Bool) (d : BitVec 6) (v : BitVec 16)
  /-- LUI_LO (R153): Replace the low halfword of x[d] with v. -/
  | luiLo (q : Bool) (d : BitVec 6) (v : BitVec 16)
  /-- LUI_S (R153): x[d] := v sign-extended from 16 bits. -/
  | luiS (q : Bool) (d : BitVec 6) (v : BitVec 16)
  /-- BFX (R154): Extract an unsigned bit field. -/
  | bfx (q : Bool) (d : BitVec 6) (a : BitVec 6) (l : BitVec 5) (w : BitVec 5)
  /-- BFX_S (R154): Extract a sign-extended bit field. -/
  | bfxS (q : Bool) (d : BitVec 6) (a : BitVec 6) (l : BitVec 5) (w : BitVec 5)
  /-- BFI (R155): Insert a bit field of x[a] into x[d]. -/
  | bfi (q : Bool) (d : BitVec 6) (a : BitVec 6) (l : BitVec 5) (w : BitVec 5)
  /-- CMP (R156): Compare two registers into a predicate. -/
  | cmp (q : Bool) (k : BitVec 3) (a : BitVec 6) (b : BitVec 6) (c : BitVec 3)
  /-- CMPI (R157): Compare register with immediate into a predicate. -/
  | cmpi (q : Bool) (k : BitVec 3) (c : BitVec 3) (a : BitVec 6) (im : BitVec 12)
  /-- SEL (R158): Select x[a] or x[b] by a predicate. -/
  | sel (q : Bool) (d : BitVec 6) (a : BitVec 6) (b : BitVec 6) (p : BitVec 3)
  /-- KAND (R159): Predicate AND. -/
  | kand (q : Bool) (d : BitVec 3) (a : BitVec 3) (b : BitVec 3)
  /-- KOR (R159): Predicate OR. -/
  | kor (q : Bool) (d : BitVec 3) (a : BitVec 3) (b : BitVec 3)
  /-- KXOR (R159): Predicate XOR. -/
  | kxor (q : Bool) (d : BitVec 3) (a : BitVec 3) (b : BitVec 3)
  /-- KANDN (R159): Predicate AND NOT. -/
  | kandn (q : Bool) (d : BitVec 3) (a : BitVec 3) (b : BitVec 3)
  /-- KORN (R159): Predicate OR NOT. -/
  | korn (q : Bool) (d : BitVec 3) (a : BitVec 3) (b : BitVec 3)
  /-- KNOT (R159): Predicate NOT. -/
  | knot (q : Bool) (d : BitVec 3) (a : BitVec 3)
  /-- KTOX (R159): Copy a predicate into a general register. -/
  | ktox (q : Bool) (d : BitVec 6) (a : BitVec 3)
  /-- XTOK (R159): Set a predicate from a nonzero register. -/
  | xtok (q : Bool) (d : BitVec 3) (a : BitVec 6)
  /-- KPACK (R159): Pack all eight predicates into x[d]. -/
  | kpack (q : Bool) (d : BitVec 6)
  /-- KUNPK (R159): Unpack k1 to k7 from x[a]. -/
  | kunpk (q : Bool) (a : BitVec 6)
  /-- ADDA (R160): Add a shifted sign-extended index to an address pair. -/
  | adda (q : Bool) (d : BitVec 5) (a : BitVec 5) (b : BitVec 6) (sx : BitVec 2)
  /-- ADDAI (R161): Add a signed immediate to an address pair. -/
  | addai (q : Bool) (d : BitVec 5) (a : BitVec 5) (im : BitVec 12)
  /-- BR (R162): Branch on a predicate, optionally negated. -/
  | br (q : Bool) (k : BitVec 3) (n : Bool) (o : BitVec 20)
  /-- JMP (R163): PC-relative jump. -/
  | jmp (q : Bool) (o : BitVec 24)
  /-- CALL (R164): PC-relative call linking into a31. -/
  | call (q : Bool) (o : BitVec 24)
  /-- JR (R166): Jump to the address in a pair. -/
  | jr (q : Bool) (a : BitVec 5)
  /-- CALLR (R170): Call through a pair after checking the callee's budget header. -/
  | callr (q : Bool) (a : BitVec 5)
  /-- RET (R166): Return to a31. -/
  | ret (q : Bool)
  /-- BECOME (R20): End, continue or multiply the thread into n copies, placing or deferring them. -/
  | become (q : Bool) (d : BitVec 6) (a : BitVec 6)
  /-- MEET (R173): Set the thread's rejoin address. -/
  | meet (q : Bool) (o : BitVec 24)
  /-- YIELD (R174): Switch point in ORDERED mode; round-robin hint otherwise. -/
  | yield (q : Bool)
  /-- LOOP (R177): Open a hardware loop level over a body of L halfwords. -/
  | loop (q : Bool) (n : BitVec 2) (a : BitVec 6) (l : BitVec 12)
  /-- NOP (R180): No operation; with Q set, waits for pending results. -/
  | nop (q : Bool)
  /-- TRAP (R181): Raise TRAP with an 18-bit code. -/
  | trap (q : Bool) (c : BitVec 18)
  /-- BRK (R181): Raise BRK with an 18-bit code. -/
  | brk (q : Bool) (c : BitVec 18)
  /-- MFS (R182): Read a special register into x[d]. -/
  | mfs (q : Bool) (d : BitVec 6) (sx : BitVec 12)
  /-- MTS (R183): Write x[a] to a special register. -/
  | mts (q : Bool) (a : BitVec 6) (sx : BitVec 12)
  /-- FADD (R187): FP32 add. -/
  | fadd (q : Bool) (d : BitVec 6) (a : BitVec 6) (b : BitVec 6)
  /-- FSUB (R187): FP32 subtract. -/
  | fsub (q : Bool) (d : BitVec 6) (a : BitVec 6) (b : BitVec 6)
  /-- FMUL (R187): FP32 multiply. -/
  | fmul (q : Bool) (d : BitVec 6) (a : BitVec 6) (b : BitVec 6)
  /-- FMIN (R187): FP32 minimumNumber. -/
  | fmin (q : Bool) (d : BitVec 6) (a : BitVec 6) (b : BitVec 6)
  /-- FMAX (R187): FP32 maximumNumber. -/
  | fmax (q : Bool) (d : BitVec 6) (a : BitVec 6) (b : BitVec 6)
  /-- FABS (R187): Clear the sign bit. -/
  | fabs (q : Bool) (d : BitVec 6) (a : BitVec 6)
  /-- FNEG (R187): Flip the sign bit. -/
  | fneg (q : Bool) (d : BitVec 6) (a : BitVec 6)
  /-- FSGNJ (R187): Magnitude of x[a] with the sign of x[b]. -/
  | fsgnj (q : Bool) (d : BitVec 6) (a : BitVec 6) (b : BitVec 6)
  /-- FFMA (R188): Fused FP32 a*b + c. -/
  | ffma (q : Bool) (d : BitVec 6) (a : BitVec 6) (b : BitVec 6) (c : BitVec 6)
  /-- FFMS (R188): Fused FP32 a*b - c. -/
  | ffms (q : Bool) (d : BitVec 6) (a : BitVec 6) (b : BitVec 6) (c : BitVec 6)
  /-- FNMA (R188): Fused FP32 c - a*b. -/
  | fnma (q : Bool) (d : BitVec 6) (a : BitVec 6) (b : BitVec 6) (c : BitVec 6)
  /-- HADD2 (R189): Packed FP16 add. -/
  | hadd2 (q : Bool) (d : BitVec 6) (a : BitVec 6) (b : BitVec 6)
  /-- HSUB2 (R189): Packed FP16 subtract. -/
  | hsub2 (q : Bool) (d : BitVec 6) (a : BitVec 6) (b : BitVec 6)
  /-- HMUL2 (R189): Packed FP16 multiply. -/
  | hmul2 (q : Bool) (d : BitVec 6) (a : BitVec 6) (b : BitVec 6)
  /-- HMIN2 (R189): Packed FP16 minimumNumber. -/
  | hmin2 (q : Bool) (d : BitVec 6) (a : BitVec 6) (b : BitVec 6)
  /-- HMAX2 (R189): Packed FP16 maximumNumber. -/
  | hmax2 (q : Bool) (d : BitVec 6) (a : BitVec 6) (b : BitVec 6)
  /-- BADD2 (R189): Packed BF16 add. -/
  | badd2 (q : Bool) (d : BitVec 6) (a : BitVec 6) (b : BitVec 6)
  /-- BSUB2 (R189): Packed BF16 subtract. -/
  | bsub2 (q : Bool) (d : BitVec 6) (a : BitVec 6) (b : BitVec 6)
  /-- BMUL2 (R189): Packed BF16 multiply. -/
  | bmul2 (q : Bool) (d : BitVec 6) (a : BitVec 6) (b : BitVec 6)
  /-- BMIN2 (R189): Packed BF16 minimumNumber. -/
  | bmin2 (q : Bool) (d : BitVec 6) (a : BitVec 6) (b : BitVec 6)
  /-- BMAX2 (R189): Packed BF16 maximumNumber. -/
  | bmax2 (q : Bool) (d : BitVec 6) (a : BitVec 6) (b : BitVec 6)
  /-- HFMA2 (R190): Packed FP16 fused multiply-add. -/
  | hfma2 (q : Bool) (d : BitVec 6) (a : BitVec 6) (b : BitVec 6) (c : BitVec 6)
  /-- BFMA2 (R190): Packed BF16 fused multiply-add. -/
  | bfma2 (q : Bool) (d : BitVec 6) (a : BitVec 6) (b : BitVec 6) (c : BitVec 6)
  /-- FCMP (R191): FP32 compare into a predicate. -/
  | fcmp (q : Bool) (k : BitVec 3) (a : BitVec 6) (b : BitVec 6) (c : BitVec 3)
  /-- FCVT (R193): Convert between floating-point and integer formats. -/
  | fcvt (q : Bool) (d : BitVec 6) (a : BitVec 6) (t : BitVec 4) (sx : BitVec 4) (h : Bool)
  /-- RCP (R194): Special-function reciprocal, pending. -/
  | rcp (q : Bool) (d : BitVec 6) (a : BitVec 6)
  /-- RSQ (R194): Special-function reciprocal square root, pending. -/
  | rsq (q : Bool) (d : BitVec 6) (a : BitVec 6)
  /-- SQRT (R194): Special-function square root, pending. -/
  | sqrt (q : Bool) (d : BitVec 6) (a : BitVec 6)
  /-- EXP2 (R194): Special-function 2^x, pending. -/
  | exp2 (q : Bool) (d : BitVec 6) (a : BitVec 6)
  /-- LOG2 (R194): Special-function log2, pending. -/
  | log2 (q : Bool) (d : BitVec 6) (a : BitVec 6)
  /-- TANH (R194): Special-function tanh, pending. -/
  | tanh (q : Bool) (d : BitVec 6) (a : BitVec 6)
  /-- SIN (R194): Special-function sine, pending. -/
  | sin (q : Bool) (d : BitVec 6) (a : BitVec 6)
  /-- COS (R194): Special-function cosine, pending. -/
  | cos (q : Bool) (d : BitVec 6) (a : BitVec 6)
  /-- FADD_E (R195): Chain add of an FP32 value to an extended register. -/
  | faddE (q : Bool) (d : BitVec 2) (a : BitVec 2) (b : BitVec 6)
  /-- FMUL_E (R195): Chain product of two FP32 values into an extended register. -/
  | fmulE (q : Bool) (d : BitVec 2) (a : BitVec 6) (b : BitVec 6)
  /-- FFMA_E (R195): Chain fused multiply-add into an extended register. -/
  | ffmaE (q : Bool) (d : BitVec 2) (a : BitVec 6) (b : BitVec 6)
  /-- EADD (R195): Chain add of two extended registers. -/
  | eadd (q : Bool) (d : BitVec 2) (a : BitVec 2) (b : BitVec 2)
  /-- EFROM (R195): Load an FP32 value into an extended register. -/
  | efrom (q : Bool) (d : BitVec 2) (a : BitVec 6)
  /-- ERND (R195): Round an extended register once to FP32, FP16 or BF16. -/
  | ernd (q : Bool) (d : BitVec 6) (a : BitVec 2) (t : BitVec 6)
  /-- EGET (R195): Move the 64 bits of an extended register to a register pair. -/
  | eget (q : Bool) (d : BitVec 5) (a : BitVec 2)
  /-- ESET (R195): Move 64 bits from a register pair into an extended register. -/
  | eset (q : Bool) (d : BitVec 2) (a : BitVec 5)
  /-- DOT4 (R197): Signed INT8 dot product accumulate. -/
  | dot4 (q : Bool) (d : BitVec 6) (a : BitVec 6) (b : BitVec 6)
  /-- DOT4U (R197): Unsigned UINT8 dot product accumulate. -/
  | dot4u (q : Bool) (d : BitVec 6) (a : BitVec 6) (b : BitVec 6)
  /-- DOT4SU (R197): Signed-by-unsigned INT8 dot product accumulate. -/
  | dot4su (q : Bool) (d : BitVec 6) (a : BitVec 6) (b : BitVec 6)
  /-- DOT2H (R197): INT16 dot product accumulate. -/
  | dot2h (q : Bool) (d : BitVec 6) (a : BitVec 6) (b : BitVec 6)
  /-- BPACK (R199): Crew rendezvous packing one FP32 per lane into a DB block with AUTO scales. -/
  | bpack (q : Bool) (d : BitVec 6) (a : BitVec 6) (b : BitVec 5) (f : BitVec 2)
  /-- BPACK_FX (R199): Crew rendezvous packing a DB block with FIXED scales. -/
  | bpackFx (q : Bool) (d : BitVec 6) (a : BitVec 6) (b : BitVec 5) (f : BitVec 2)
  /-- BUNPK (R201): Crew rendezvous decoding a DB block to one FP32 per lane. -/
  | bunpk (q : Bool) (d : BitVec 6) (a : BitVec 6) (f : BitVec 2)
  /-- RNDM (R202): Philox4x32-10 output word w, pending. -/
  | rndm (q : Bool) (d : BitVec 6) (a : BitVec 5) (b : BitVec 6) (w : BitVec 2)
  /-- RNDM4 (R202): All four Philox output words, pending. -/
  | rndm4 (q : Bool) (d : BitVec 4) (a : BitVec 5) (b : BitVec 6)
  /-- VOTE_BAL (R206): Ballot of a predicate over participants. -/
  | voteBal (q : Bool) (d : BitVec 6) (a : BitVec 3)
  /-- VOTE_ANY (R206): Any participant's predicate set. -/
  | voteAny (q : Bool) (d : BitVec 3) (a : BitVec 3)
  /-- VOTE_ALL (R206): Every participant's predicate set. -/
  | voteAll (q : Bool) (d : BitVec 3) (a : BitVec 3)
  /-- SHFL_IDX (R206): Shuffle from an indexed lane. -/
  | shflIdx (q : Bool) (d : BitVec 6) (a : BitVec 6) (b : BitVec 6)
  /-- SHFL_UP (R206): Shuffle from a lower lane. -/
  | shflUp (q : Bool) (d : BitVec 6) (a : BitVec 6) (b : BitVec 6)
  /-- SHFL_DN (R206): Shuffle from a higher lane. -/
  | shflDn (q : Bool) (d : BitVec 6) (a : BitVec 6) (b : BitVec 6)
  /-- SHFL_XOR (R206): Butterfly shuffle by lane XOR. -/
  | shflXor (q : Bool) (d : BitVec 6) (a : BitVec 6) (b : BitVec 6)
  /-- CRED (R209): Crew reduction over a fixed binary tree. -/
  | cred (q : Bool) (d : BitVec 6) (a : BitVec 6) (o : BitVec 4)
  /-- CSCAN (R209): Crew inclusive scan. -/
  | cscan (q : Bool) (d : BitVec 6) (a : BitVec 6) (o : BitVec 4)
  /-- CSCANX (R209): Crew exclusive scan. -/
  | cscanx (q : Bool) (d : BitVec 6) (a : BitVec 6) (o : BitVec 4)
  /-- LD (R220): Plain load of 1 to 16 bytes, pending. -/
  | ld (q : Bool) (d : BitVec 6) (p : BitVec 5) (sx : Bool) (z : BitVec 3) (im : BitVec 9)
  /-- ST (R220): Plain store of 1 to 16 bytes. -/
  | st (q : Bool) (d : BitVec 6) (p : BitVec 5) (z : BitVec 3) (im : BitVec 9)
  /-- LDS (R225): Scoped word load with acquire. -/
  | lds (q : Bool) (d : BitVec 6) (p : BitVec 5) (sx : BitVec 3)
  /-- LDS_D (R225): Scoped doubleword load with acquire. -/
  | ldsD (q : Bool) (d : BitVec 5) (p : BitVec 5) (sx : BitVec 3)
  /-- STS (R225): Scoped word store with release; plot scope logs a promotion entry. -/
  | sts (q : Bool) (d : BitVec 6) (p : BitVec 5) (sx : BitVec 3)
  /-- STS_D (R225): Scoped doubleword store with release. -/
  | stsD (q : Bool) (d : BitVec 5) (p : BitVec 5) (sx : BitVec 3)
  /-- ACQP (R228): Promoting acquire from one target plot, then allotment-scope load. -/
  | acqp (q : Bool) (d : BitVec 6) (p : BitVec 5) (b : BitVec 6)
  /-- ACQP_ALL (R228): Promoting acquire from every plot of the allotment. -/
  | acqpAll (q : Bool) (d : BitVec 6) (p : BitVec 5)
  /-- ATOM (R231): Scoped atomic read-modify-write on a word. -/
  | atom (q : Bool) (d : BitVec 6) (p : BitVec 5) (b : BitVec 6) (sx : BitVec 3) (o : BitVec 4)
  /-- ATOMT (R234): Atomic add waking waiters only when it crosses a threshold. -/
  | atomt (q : Bool) (d : BitVec 6) (p : BitVec 5) (b : BitVec 5) (sx : BitVec 3)
  /-- RED (R235): Atomic update returning nothing and ordering nothing. -/
  | red (q : Bool) (p : BitVec 5) (b : BitVec 6) (sx : BitVec 3) (o : BitVec 4)
  /-- WAITA (R237): Wait until a word meets a condition, then acquire. -/
  | waita (q : Bool) (d : BitVec 6) (p : BitVec 5) (b : BitVec 6) (sx : BitVec 3) (c : BitVec 4)
  /-- BAR_ARRIVE (R242): Arrive at a named barrier without waiting. -/
  | barArrive (q : Bool) (n : BitVec 4) (a : BitVec 6)
  /-- BAR_WAIT (R242): Wait for the current barrier generation without arriving. -/
  | barWait (q : Bool) (n : BitVec 4) (a : BitVec 6)
  /-- BAR_SYNC (R242): Arrive at a barrier and wait for its generation. -/
  | barSync (q : Bool) (n : BitVec 4) (a : BitVec 6)
  /-- WAITC (R244): Wait for a crew counter to fall to a threshold, with optional release and acquire sides. -/
  | waitc (q : Bool) (c : BitVec 2) (t : BitVec 6) (sx : BitVec 3) (r : Bool) (u : Bool)
  /-- EMIT (R245): Emit an 8-byte record to the cast's ordered output. -/
  | emit (q : Bool) (a : BitVec 6) (b : BitVec 6)
  /-- CPY (R253): Hand a slate-described copy to the copy engine. -/
  | cpy (q : Bool) (d : BitVec 5) (a : BitVec 5)
  /-- CPYS (R253): Copy that writes a scratch completion word when done. -/
  | cpys (q : Bool) (d : BitVec 5) (a : BitVec 5) (b : BitVec 6)
  /-- SLINV (R253): Remove a slate address from the slate cache. -/
  | slinv (q : Bool) (a : BitVec 5)
  /-- MXC (R268): Crew rendezvous appending one matrix command to the script. -/
  | mxc (q : Bool) (d : BitVec 5) (a : BitVec 6) (b : BitVec 6)
  /-- MXR (R275): Read an accumulator cell after earlier commands retire, pending. -/
  | mxr (q : Bool) (d : BitVec 6) (a : BitVec 6) (t : BitVec 3)
  /-- MXRN (R276): Read an accumulator cell without waiting, pending. -/
  | mxrn (q : Bool) (d : BitVec 6) (a : BitVec 6) (t : BitVec 3)
  /-- MXW (R275): Write an accumulator cell in script order. -/
  | mxw (q : Bool) (d : BitVec 6) (a : BitVec 6) (t : BitVec 3)
  /-- RTAKE (R261): Take a full reel entry, blocking until one exists. -/
  | rtake (q : Bool) (d : BitVec 5) (r : BitVec 2)
  /-- RTAKE_RES (R261): Reserve a free reel entry, blocking until one exists. -/
  | rtakeRes (q : Bool) (d : BitVec 5) (r : BitVec 2)
  /-- RGIVE_PUB (R261): Publish a reserved reel entry. -/
  | rgivePub (q : Bool) (r : BitVec 2) (b : BitVec 5)
  /-- RGIVE_REL (R261): Release a taken reel entry. -/
  | rgiveRel (q : Bool) (r : BitVec 2) (b : BitVec 5)
  /-- BIND (R331): Request binding of a graph descriptor. -/
  | bind (q : Bool) (a : BitVec 5)
  /-- BIND_WB (R338): Request a binding or a rebinding of a running graph. -/
  | bindWb (q : Bool) (a : BitVec 5)
  /-- GRUN (R334): Request a bound graph to run a number of periods. -/
  | grun (q : Bool) (a : BitVec 5) (b : BitVec 6)
  /-- GSTOP (R337): Request a graph to stop and end its stream. -/
  | gstop (q : Bool) (a : BitVec 5)
  /-- GSTAT (R331): Return a graph's state code and PERDONE. -/
  | gstat (q : Bool) (d : BitVec 5) (a : BitVec 5)
  /-- PENDING_RESULT_RETURN (R50): A pending register value returns, releasing CUEWAIT and setting flags. -/
  | pendingResultReturn (c : Nat) (t : Nat) (n : Nat)
  /-- SEEDBED_RELEASE (R27): At the end of a cycle, freed slots receive the lowest-keyed deferred threads. -/
  | seedbedRelease (c : Nat)
  /-- DISPLACEMENT (R31): The highest-keyed live thread is written to a KIND 2 record once its pending writes return. -/
  | displacement (c : Nat)
  /-- RECORD_COMMIT (R30): A buffered EMIT record commits once no lower key remains. -/
  | recordCommit (c : Nat)
  /-- CAST_END (R39): A cast whose threads, records, stores and engine work are all done ends and returns its resources. -/
  | castEnd (c : Nat)
  /-- BUNDLE_REGROUP (R45): Every 4 plot cycles READY threads are regrouped into bundles. -/
  | bundleRegroup (p : Nat)
  /-- FAIRNESS_TIMER_EXPIRY (R46): A thread not issued for 256 counted cycles gains issue priority or leaves HELD. -/
  | fairnessTimerExpiry (c : Nat) (t : Nat)
  /-- MEET_REJOIN (R48): Threads HELD at a MEET address leave HELD once the rejoin condition holds. -/
  | meetRejoin (c : Nat) (t : Nat)
  /-- PARTICIPANT_SET_FIXED (R36): A collective's participant set is fixed and its operation executes once. -/
  | participantSetFixed (c : Nat) (t : Nat)
  /-- ALL_ZERO_WRITEBACK (R73): First write-back to an all-zero frame zeroes the frame, writes the line and clears the bit. -/
  | allZeroWriteback (p : Nat) (l : Nat)
  /-- MEMORY_OP_RETIRE (R212): A memory operation retires in class order, decrementing its crew counter. -/
  | memoryOpRetire (c : Nat) (w : Nat) (k : OpClass)
  /-- PROMOTION_REQUEST (R229): A target plot serves a promotion request up to its cut-off and reports completion. -/
  | promotionRequest (p : Nat)
  /-- WAITA_WAKE (R238): A wake event re-reads a waiter's word and completes or re-registers it. -/
  | waitaWake (c : Nat) (t : Nat)
  /-- BARRIER_COMPLETE (R242): A barrier generation completes once arrivals' accesses are performed, releasing waiters. -/
  | barrierComplete (c : Nat) (b : Nat)
  /-- REEL_RESERVE (R80): A producer's reserve of a reel entry proceeds once FREE > 0. -/
  | reelReserve (p : Nat) (r : Nat)
  /-- REEL_TAKE (R80): A consumer's take of a reel entry proceeds once FULL > 0. -/
  | reelTake (p : Nat) (r : Nat)
  /-- COPY_START (R258): The copy engine starts the next copy in issue order, up to 8 in progress. -/
  | copyStart (p : Nat)
  /-- COPY_RETIRE (R257): A copy retires after its payload, publish and completion word, releasing its CP count. -/
  | copyRetire (p : Nat) (n : Nat)
  /-- MATRIX_COMMAND_START (R270): The sequencer starts a command whose predecessors and weight order allow it. -/
  | matrixCommandStart (p : Nat) (n : Nat)
  /-- MATRIX_COMMAND_RETIRE (R272): A command retires, increments MXSEQ, releases its MX count and writes its completion word. -/
  | matrixCommandRetire (p : Nat) (n : Nat)
  /-- BINDING (R329): The balance engine checks, solves rates, simulates a period and writes the firing table and STATUS. -/
  | binding (al : Nat) (g : Nat)
  /-- FIRING_START (R333): The dispatcher starts the next graph firing once its records and ring slots allow. -/
  | firingStart (al : Nat) (g : Nat)
  /-- EOS_FIRING (R337): After a stop drains, one end-of-stream firing per stage runs in turn. -/
  | eosFiring (al : Nat) (g : Nat)
  /-- REBINDING (R338): After a BIND.WB drains started firings, the engine rebinds and resumes. -/
  | rebinding (al : Nat) (g : Nat)
  /-- GRAPH_FAILURE_STOP (R339): After a failed firing and the end of started firings, RUNW records the fault and the graph is FAILED. -/
  | graphFailureStop (al : Nat) (g : Nat)
  /-- QUANTUM_EXPIRY (R344): A crew reaching QUANT retired instructions passes the ORDERED turn. -/
  | quantumExpiry (p : Nat)
  /-- DEFERRED_LIST_APPLY (R350): A cast's deferred floating-point updates are applied in key order after its predecessor. -/
  | deferredListApply (c : Nat)
  /-- SCENE_ACCEPT (R371): The dispatcher accepts the next descriptor of a queue, checks it and advances HEAD. -/
  | sceneAccept (al : Nat)
  /-- CAST_PLACEMENT (R381): The dispatcher places the next cast of the highest-priority ready scene and starts its threads. -/
  | castPlacement (al : Nat)
  /-- END_OF_LAUNCH (R383): When all casts retire, the dispatcher releases at allotment scope and settles the scene. -/
  | endOfLaunch (al : Nat) (sc : Nat)
  /-- COMPLETION_RECORD_WRITE (R383): The completion record is written once ring room exists, then CQTAIL and the signal word. -/
  | completionRecordWrite (al : Nat) (sc : Nat)
  /-- LEASE_GRANT (R378): A plot obtains a plot-cycle lease from every bucket on the cast's path. -/
  | leaseGrant (c : Nat)
  /-- WDOG (R386): A cast's watchdog count reaches its limit and raises WDOG. -/
  | wdog (c : Nat)
  /-- SLICE_END (R387): At a context's slice end the dispatcher decides whether to pre-empt it, starting soft pre-emption. -/
  | sliceEnd (al : Nat) (qn : Nat)
  /-- SOFT_SAVE_COMPLETE (R388): All draining casts end in time and a scene-only save area is written. -/
  | softSaveComplete (al : Nat) (qn : Nat)
  /-- HARD_PREEMPTION (R389): On drain limit expiry every resident cast is stopped, drained and saved. -/
  | hardPreemption (al : Nat) (qn : Nat)
  /-- CONTEXT_RESTORE (R392): A saved context is restored to its plots and slots, relatching weights and reissuing withdrawn copies. -/
  | contextRestore (al : Nat) (qn : Nat)
  /-- CONTEXT_RECALL (R393): A TAIL or RESV write for a paged-out context asks for it to be read back. -/
  | contextRecall (al : Nat) (qn : Nat)
  /-- FAULT_RECORD_WRITE (R420): A fault record is written to the rings once they have room. -/
  | faultRecordWrite
  /-- FRESP_REPLAY (R419): FRESP with ACTION 0 replays held accesses of a plot and page. -/
  | frespReplay (sq : BitVec 32)
  /-- FRESP_FAIL (R419): FRESP with ACTION 1 fails the named cast and replays others. -/
  | frespFail (sq : BitVec 32)
  /-- ASSIGN (R407): FCMD assigns a free frame to an owner and key. -/
  | assign (f : BitVec 28) (o : BitVec 12) (k : BitVec 12)
  /-- SHARE (R407): FCMD moves an owned frame to a share group in shared-read. -/
  | share (f : BitVec 28) (o : BitVec 12)
  /-- FREE (R408): FCMD starts the scrub sequence of a frame. -/
  | free (f : BitVec 28)
  /-- SCRUB_COMPLETE (R408): The scrub finishes, KEY is cleared and the frame becomes free. -/
  | scrubComplete
  /-- QUERY (R407): FCMD returns a frame's ownership entry. -/
  | query (f : BitVec 28)
  /-- XINV_PAGE (R410): XINV KIND 0 drops cached translations of one page. -/
  | xinvPage (al : BitVec 12) (vpn : BitVec 32)
  /-- XINV_ALLOTMENT (R410): XINV KIND 1 drops every cached translation of an allotment. -/
  | xinvAllotment (al : BitVec 12)
  /-- XINV_COMPLETE (R410): XSTAT.BUSY clears once caches have dropped entries and old accesses are done. -/
  | xinvComplete
  /-- MIGDST (R414): A write of MIGDST starts a page migration after its checks. -/
  | migdst (f : BitVec 28)
  /-- MIGRATION_COMPLETE (R414): After write-back and copy, the leaf is remapped and the source frame freed. -/
  | migrationComplete
  /-- KGEN (R412): Fill a key slot with a fresh key. -/
  | kgen (k : BitVec 12)
  /-- UNCORRECTABLE_ERROR (R421): An uncorrectable ECC error is handled where found. -/
  | uncorrectableError (w : ErrPlace)
  /-- CORRECTED_ERROR (R445): A corrected error is written back and counted, possibly recording a threshold event. -/
  | correctedError (isl : Nat) (m : Nat) (row : Nat)
  /-- PATROL_SCRUB (R446): The patrol scrubber reads and corrects memory lines on its schedule. -/
  | patrolScrub (l : Nat) (h : ScrubFinding)
  /-- CREATE (R425): ACMD creates an allotment from its control block. -/
  | create (a : BitVec 44)
  /-- UPDATE (R425): ACMD rereads an allotment's changeable fields. -/
  | update (a : BitVec 44)
  /-- DESTROY (R425): ACMD destroys an allotment, freeing its plots and peer agreements. -/
  | destroy (a : BitVec 44)
  /-- RTSYNC (R437): A write of 1 applies the routing table to every port. -/
  | rtsync
  /-- CREPAIR (R443): Replace an enabled core by a spare, saving and restoring its casts. -/
  | crepair (core : BitVec 9)
  /-- REGISTER_WRITE (R9): A write to a register without behaviour of its own sets its field. -/
  | registerWrite (r : WindowReg) (v : BitVec 64)
  /-- RDMA_WRITE (R431): A host RDMA WRITE is performed at home as an allotment-scope release. -/
  | rdmaWrite (qp : Nat) (rk : BitVec 32) (va : BitVec 64) (d : List (BitVec 8))
  /-- RDMA_READ (R431): A host RDMA READ is a home read at allotment scope. -/
  | rdmaRead (qp : Nat) (rk : BitVec 32) (va : BitVec 64) (n : Nat)
  /-- ATOMIC_FETCH_AND_ADD (R431): A host fetch-and-add acts as one ATOM ADD on the low word. -/
  | atomicFetchAndAdd (qp : Nat) (rk : BitVec 32) (va : BitVec 64) (x : BitVec 64)
  /-- ATOMIC_COMPARE_AND_SWAP (R431): A host compare-and-swap acts as one ATOM CAS on the low word. -/
  | atomicCompareAndSwap (qp : Nat) (rk : BitVec 32) (va : BitVec 64) (x : BitVec 64) (y : BitVec 64)
  /-- INVALID_REQUEST_NAK (R429): An unsupported RoCE request is NAKed and its queue pair enters the error state. -/
  | invalidRequestNak (qp : Nat)
  /-- ECN_MARKED_PACKET (R429): An ECN-marked packet is answered with a congestion notification packet. -/
  | ecnMarkedPacket (qp : Nat)
  /-- REMOTE_REQUEST (R434): A fabric request is checked against the peer table and performed in the peer allotment. -/
  | remoteRequest (r : FabricRequest)
  /-- FLIT_RECEIVE (R438): A received flit is FEC-checked and refused for resend if uncorrectable. -/
  | flitReceive (port : Nat) (v : BitVec 2048) (ok : Bool)
  /-- LANE_RETIRE (R439): A lane over its error threshold or failing to train is replaced by a spare after retrain. -/
  | laneRetire (port : Nat) (lane : Bool)
  /-- LANE_FAILURE (R440): A lane lost with no spare degrades or downs its port. -/
  | laneFailure (port : Nat) (lane : Bool)
  /-- ARBITRATION_WINDOW (R428): An arbiter's 4,096-unit window ends and shares restart. -/
  | arbitrationWindow (arb : Nat)
  /-- THERMAL_SAMPLE (R454): Each 1 ms sensor reading adjusts thermal and power limits or triggers shutdown. -/
  | thermalSample (isl : Nat) (t : BitVec 16) (pw : Nat)
  /-- LIFETIME_RECORD_SAVE (R447): The lifetime record is written to the older copy every hour. -/
  | lifetimeRecordSave
  /-- SENSOR (R455): Mailbox request returning an island's temperature, voltage and package power. -/
  | sensor (isl : BitVec 16)
  /-- SETOP (R455): Mailbox request setting an island's operating point. -/
  | setop (isl : BitVec 16) (pt : BitVec 8)
  /-- PCAP (R455): Mailbox request setting the package power cap. -/
  | pcap (w : BitVec 16)
  /-- EVREAD (R455): Mailbox request returning one event log entry. -/
  | evread (sq : BitVec 32)
  /-- LIFEREAD (R455): Mailbox request returning 48 bytes of the lifetime record. -/
  | liferead (off : BitVec 32)
  /-- FWWRITE (R452): Mailbox request writing 40 bytes to the other firmware slot. -/
  | fwwrite (sl : BitVec 8) (off : BitVec 32) (d : List (BitVec 8))
  /-- FWSEAL (R452): Mailbox request verifying a slot and setting it pending. -/
  | fwseal (sl : BitVec 8)
  /-- FWCOMMIT (R452): Mailbox request marking the running slot good, optionally blowing fuses. -/
  | fwcommit (x : BitVec 8)
  /-- ATTEST (R453): Mailbox request producing an Alias-signed attestation report. -/
  | attest (nonce : BitVec 256) (al : BitVec 12)
  /-- ATREAD (R455): Mailbox request returning 48 bytes of the report. -/
  | atread (off : BitVec 32)
  /-- RESET (R456): Mailbox or I3C request restarting the package at stage 1. -/
  | reset
  /-- I3C_DYNAMIC_ADDRESS (R455): The I3C target accepts dynamic address assignment. -/
  | i3cDynamicAddress (a : BitVec 7)
  /-- POWER_ON (R456): Power-on runs the bring-up stages in order. -/
  | powerOn
  /-- ETHERNET_OPEN (R456): At the operating system's request both Ethernet ports link up. -/
  | ethernetOpen
  /-- PAGE_OUT (R393): A saved context is written out, encrypted under the allotment's key, to its NVMe namespace through the storage port, with CTXST 3 while it happens. -/
  | pageOut (al : Nat) (qn : Nat)
  /-- LANE_RETRAIN_COMPLETE (R439): The retrain of a spare lane finishes within 20 µs, and the flits held during it are resent. -/
  | laneRetrainComplete (port : Nat)
  /-- POWER_LOSS (R447): The package's supply is lost, and every counting done since the last hourly lifetime-record write is lost with it. -/
  | powerLoss
  /-- ORDERLY_SHUTDOWN (R447): At an orderly shutdown the management island writes the lifetime record to the older copy. -/
  | orderlyShutdown
  /-- PRIORITY_FLOW_CONTROL_FRAME (R429): An IEEE 802.1Qbb priority flow control frame received on an Ethernet port pauses or resumes traffic on one of up to 8 priorities. -/
  | priorityFlowControlFrame (port : Nat) (prio : BitVec 3) (pause : Bool)
  deriving DecidableEq, Repr

end Sys2Proof
end

