-- ==== Sys2Proof/WellFormed.lean ====
section
/-!
DEFINITION. Which terms of `Instr` are instruction words that the spec defines (R126, R132): an
ill-formed term is a word that raises ILL when it is executed. An event row has no word and no check.
-/

namespace Sys2Proof

/-- The numbers that the special-register table assigns below 0x800 (R135). -/
def sregAssigned (n : Nat) : Bool :=
  decide (n ≤ 0x012) || (decide (0x014 ≤ n) && decide (n ≤ 0x016)) || (decide (0x018 ≤ n) && decide (n ≤ 0x01A)) ||
    n == 0x01C || n == 0x01D || n == 0x020 || n == 0x021 || (decide (0x024 ≤ n) && decide (n ≤ 0x029)) ||
    n == 0x040 || n == 0x041

/-- The assigned registers that are not RW (R135): all but MEET, CMASK, MODE, FLAGS, LC0 to LC2, OUTL,
OUTLH, KEY0 and KEY1. -/
def sregReadOnly (n : Nat) : Bool :=
  !(decide (0x00E ≤ n) && decide (n ≤ 0x011) || (decide (0x014 ≤ n) && decide (n ≤ 0x016)) ||
    n == 0x01C || n == 0x01D || n == 0x020 || n == 0x021)

/-- FCVT's format codes (R112, R192): `t` the destination, `s` the source, `h` the H bit. -/
def fcvtOk (t s : Nat) (h : Bool) : Bool :=
  let ok (n : Nat) := (decide (1 ≤ n) && decide (n ≤ 3)) || (decide (8 ≤ n) && decide (n ≤ 13))
  ok t && ok s && t != s && (!h || s == 2 || s == 3 || s == 10 || s == 11)

/-- The size field of LD and ST with its register group (R124, R126, R220). -/
def sizeOk (z d : Nat) : Bool :=
  match z with
  | 0 => true
  | 1 => true
  | 2 => true
  | 3 => d % 2 == 0
  | 4 => d % 4 == 0
  | _ => false

/-- The scope codes of R125: 6 and 7 are reserved. -/
def scopeOk (s : BitVec 3) : Bool := decide (s.toNat < 6)

/-- The check of R126 and R132 on one instruction's fields. -/
def Instr.wf : Instr → Bool
  | .mov _ _ => true
  | .addN _ _ => true
  | .subN _ _ => true
  | .andN _ _ => true
  | .orN _ _ => true
  | .xorN _ _ => true
  | .shlN _ _ => true
  | .shrN _ _ => true
  | .addi5 _ _ => true
  | .faddN _ _ => true
  | .fsubN _ _ => true
  | .fmulN _ _ => true
  | .fminN _ _ => true
  | .fmaxN _ _ => true
  | .movi5 _ _ => true
  | .mulN _ _ => true
  | .ill _ _ => false
  | .add _ _ _ _ => true
  | .sub _ _ _ _ => true
  | .and _ _ _ _ => true
  | .or _ _ _ _ => true
  | .xor _ _ _ _ => true
  | .andn _ _ _ _ => true
  | .shl _ _ _ _ => true
  | .shr _ _ _ _ => true
  | .sra _ _ _ _ => true
  | .ror _ _ _ _ => true
  | .mul _ _ _ _ => true
  | .mulh _ _ _ _ => true
  | .mulhu _ _ _ _ => true
  | .mulhsu _ _ _ _ => true
  | .div _ _ _ _ => true
  | .divu _ _ _ _ => true
  | .rem _ _ _ _ => true
  | .remu _ _ _ _ => true
  | .min _ _ _ _ => true
  | .max _ _ _ _ => true
  | .minu _ _ _ _ => true
  | .maxu _ _ _ _ => true
  | .clz _ _ _ => true
  | .popc _ _ _ => true
  | .brev _ _ _ => true
  | .slt _ _ _ _ => true
  | .sltu _ _ _ _ => true
  | .addi _ _ _ _ => true
  | .andi _ _ _ _ => true
  | .ori _ _ _ _ => true
  | .xori _ _ _ _ => true
  | .shli _ _ _ _ => true
  | .shri _ _ _ _ => true
  | .srai _ _ _ _ => true
  | .rori _ _ _ _ => true
  | .lui _ _ _ => true
  | .luiZ _ _ _ => true
  | .luiLo _ _ _ => true
  | .luiS _ _ _ => true
  | .bfx _ _ _ l w => decide (l.toNat + (w.toNat + 1) ≤ 32)
  | .bfxS _ _ _ l w => decide (l.toNat + (w.toNat + 1) ≤ 32)
  | .bfi _ _ _ l w => decide (l.toNat + (w.toNat + 1) ≤ 32)
  | .cmp _ _ _ _ c => decide (c.toNat < 6)
  | .cmpi _ _ c _ _ => decide (c.toNat < 6)
  | .sel _ _ _ _ _ => true
  | .kand _ _ _ _ => true
  | .kor _ _ _ _ => true
  | .kxor _ _ _ _ => true
  | .kandn _ _ _ _ => true
  | .korn _ _ _ _ => true
  | .knot _ _ _ => true
  | .ktox _ _ _ => true
  | .xtok _ _ _ => true
  | .kpack _ _ => true
  | .kunpk _ _ => true
  | .adda _ _ _ _ _ => true
  | .addai _ _ _ _ => true
  | .br _ _ _ _ => true
  | .jmp _ _ => true
  | .call _ _ => true
  | .jr _ _ => true
  | .callr _ _ => true
  | .ret _ => true
  | .become _ _ _ => true
  | .meet _ _ => true
  | .yield _ => true
  | .loop _ n _ l => decide (n.toNat < 3) && decide (l.toNat ≠ 0)
  | .nop _ => true
  | .trap _ _ => true
  | .brk _ _ => true
  | .mfs _ d sx => sregAssigned sx.toNat && (sx.toNat != 0x040 || d.toNat % 2 == 0)
  | .mts _ _ sx => sregAssigned sx.toNat && !sregReadOnly sx.toNat
  | .fadd _ _ _ _ => true
  | .fsub _ _ _ _ => true
  | .fmul _ _ _ _ => true
  | .fmin _ _ _ _ => true
  | .fmax _ _ _ _ => true
  | .fabs _ _ _ => true
  | .fneg _ _ _ => true
  | .fsgnj _ _ _ _ => true
  | .ffma _ _ _ _ _ => true
  | .ffms _ _ _ _ _ => true
  | .fnma _ _ _ _ _ => true
  | .hadd2 _ _ _ _ => true
  | .hsub2 _ _ _ _ => true
  | .hmul2 _ _ _ _ => true
  | .hmin2 _ _ _ _ => true
  | .hmax2 _ _ _ _ => true
  | .badd2 _ _ _ _ => true
  | .bsub2 _ _ _ _ => true
  | .bmul2 _ _ _ _ => true
  | .bmin2 _ _ _ _ => true
  | .bmax2 _ _ _ _ => true
  | .hfma2 _ _ _ _ _ => true
  | .bfma2 _ _ _ _ _ => true
  | .fcmp _ _ _ _ _ => true
  | .fcvt _ _ _ t sx h => fcvtOk t.toNat sx.toNat h
  | .rcp _ _ _ => true
  | .rsq _ _ _ => true
  | .sqrt _ _ _ => true
  | .exp2 _ _ _ => true
  | .log2 _ _ _ => true
  | .tanh _ _ _ => true
  | .sin _ _ _ => true
  | .cos _ _ _ => true
  | .faddE _ _ _ _ => true
  | .fmulE _ _ _ _ => true
  | .ffmaE _ _ _ _ => true
  | .eadd _ _ _ _ => true
  | .efrom _ _ _ => true
  | .ernd _ _ _ t => decide (1 ≤ t.toNat) && decide (t.toNat ≤ 3)
  | .eget _ _ _ => true
  | .eset _ _ _ => true
  | .dot4 _ _ _ _ => true
  | .dot4u _ _ _ _ => true
  | .dot4su _ _ _ _ => true
  | .dot2h _ _ _ _ => true
  | .bpack _ _ _ _ f => decide (f.toNat < 3)
  | .bpackFx _ _ _ _ f => decide (f.toNat < 3)
  | .bunpk _ _ _ f => decide (f.toNat < 3)
  | .rndm _ _ _ _ _ => true
  | .rndm4 _ _ _ _ => true
  | .voteBal _ _ _ => true
  | .voteAny _ _ _ => true
  | .voteAll _ _ _ => true
  | .shflIdx _ _ _ _ => true
  | .shflUp _ _ _ _ => true
  | .shflDn _ _ _ _ => true
  | .shflXor _ _ _ _ => true
  | .cred _ _ _ o => decide (o.toNat < 11)
  | .cscan _ _ _ o => decide (o.toNat < 11)
  | .cscanx _ _ _ o => decide (o.toNat < 11)
  | .ld _ d _ sx z _ => sizeOk z.toNat d.toNat && (!sx || decide (z.toNat < 2))
  | .st _ d _ z _ => sizeOk z.toNat d.toNat
  | .lds _ _ _ sx => scopeOk sx
  | .ldsD _ _ _ sx => scopeOk sx
  | .sts _ _ _ sx => scopeOk sx
  | .stsD _ _ _ sx => scopeOk sx
  | .acqp _ _ _ _ => true
  | .acqpAll _ _ _ => true
  | .atom _ _ _ b sx o => scopeOk sx && decide (o.toNat < 13) && (o.toNat != 10 || b.toNat % 2 == 0)
  | .atomt _ _ _ _ sx => scopeOk sx
  | .red _ _ _ sx o => scopeOk sx && decide (o.toNat < 13) && o.toNat != 9 && o.toNat != 10
  | .waita _ _ _ _ sx c => scopeOk sx && decide (c.toNat < 4)
  | .barArrive _ _ _ => true
  | .barWait _ _ _ => true
  | .barSync _ _ _ => true
  | .waitc _ _ _ sx r u => if r || u then scopeOk sx else sx.toNat == 0
  | .emit _ _ _ => true
  | .cpy _ _ _ => true
  | .cpys _ _ _ _ => true
  | .slinv _ _ => true
  | .mxc _ _ _ _ => true
  | .mxr _ _ _ _ => true
  | .mxrn _ _ _ _ => true
  | .mxw _ _ _ _ => true
  | .rtake _ _ _ => true
  | .rtakeRes _ _ _ => true
  | .rgivePub _ _ _ => true
  | .rgiveRel _ _ _ => true
  | .bind _ _ => true
  | .bindWb _ _ => true
  | .grun _ _ _ => true
  | .gstop _ _ => true
  | .gstat _ _ _ => true
  | .pendingResultReturn _ _ _ => true
  | .seedbedRelease _ => true
  | .displacement _ => true
  | .recordCommit _ => true
  | .castEnd _ => true
  | .bundleRegroup _ => true
  | .fairnessTimerExpiry _ _ => true
  | .meetRejoin _ _ => true
  | .participantSetFixed _ _ => true
  | .allZeroWriteback _ _ => true
  | .memoryOpRetire _ _ _ => true
  | .promotionRequest _ => true
  | .waitaWake _ _ => true
  | .barrierComplete _ _ => true
  | .reelReserve _ _ => true
  | .reelTake _ _ => true
  | .copyStart _ => true
  | .copyRetire _ _ => true
  | .matrixCommandStart _ _ => true
  | .matrixCommandRetire _ _ => true
  | .binding _ _ => true
  | .firingStart _ _ => true
  | .eosFiring _ _ => true
  | .rebinding _ _ => true
  | .graphFailureStop _ _ => true
  | .quantumExpiry _ => true
  | .deferredListApply _ => true
  | .sceneAccept _ => true
  | .castPlacement _ => true
  | .endOfLaunch _ _ => true
  | .completionRecordWrite _ _ => true
  | .leaseGrant _ => true
  | .wdog _ => true
  | .sliceEnd _ _ => true
  | .softSaveComplete _ _ => true
  | .hardPreemption _ _ => true
  | .contextRestore _ _ => true
  | .contextRecall _ _ => true
  | .faultRecordWrite => true
  | .frespReplay _ => true
  | .frespFail _ => true
  | .assign _ _ _ => true
  | .share _ _ => true
  | .free _ => true
  | .scrubComplete => true
  | .query _ => true
  | .xinvPage _ _ => true
  | .xinvAllotment _ => true
  | .xinvComplete => true
  | .migdst _ => true
  | .migrationComplete => true
  | .kgen _ => true
  | .uncorrectableError _ => true
  | .correctedError _ _ _ => true
  | .patrolScrub _ _ => true
  | .create _ => true
  | .update _ => true
  | .destroy _ => true
  | .rtsync => true
  | .crepair _ => true
  | .registerWrite _ _ => true
  | .rdmaWrite _ _ _ _ => true
  | .rdmaRead _ _ _ _ => true
  | .atomicFetchAndAdd _ _ _ _ => true
  | .atomicCompareAndSwap _ _ _ _ _ => true
  | .invalidRequestNak _ => true
  | .ecnMarkedPacket _ => true
  | .remoteRequest _ => true
  | .flitReceive _ _ _ => true
  | .laneRetire _ _ => true
  | .laneFailure _ _ => true
  | .arbitrationWindow _ => true
  | .thermalSample _ _ _ => true
  | .lifetimeRecordSave => true
  | .sensor _ => true
  | .setop _ _ => true
  | .pcap _ => true
  | .evread _ => true
  | .liferead _ => true
  | .fwwrite _ _ _ => true
  | .fwseal _ => true
  | .fwcommit _ => true
  | .attest _ _ => true
  | .atread _ => true
  | .reset => true
  | .i3cDynamicAddress _ => true
  | .powerOn => true
  | .ethernetOpen => true
  | .pageOut _ _ => true
  | .laneRetrainComplete _ => true
  | .powerLoss => true
  | .orderlyShutdown => true
  | .priorityFlowControlFrame _ _ _ => true

/-- An instruction whose word the spec defines (R132). -/
abbrev Instr.WellFormed (i : Instr) : Prop := i.wf = true

end Sys2Proof
end

