-- ==== Sys2Proof/Decode.lean ====
section
/-!
DEFINITION. The decoder (spec/04_instruction_words.md R120 to R132): total on any bytes, it rejects by
name; after it the encoder, from the same encoding tables. A word that is rejected, and a word whose
term is ill-formed, raises ILL when it is executed (R132).
-/

namespace Sys2Proof

/-- Why a pattern is no instruction (R132). -/
inductive DecodeError where
  /-- fewer bytes than the instruction has -/
  | truncated
  /-- a 16-bit word with bit 15 set -/
  | narrowBit15
  /-- major 0x3C to 0x3F -/
  | reservedMajor (m : Nat)
  /-- a sub-operation value that the major does not list, or a must-be-zero field that is not zero -/
  | subOperation (m : Nat)
  deriving DecidableEq, Repr

/-- The number in bits [lo+n-1:lo] of a word (R5). -/
def num (w lo n : Nat) : Nat := w / 2 ^ lo % 2 ^ n

/-- The field in bits [lo+n-1:lo] of a word. -/
def fld (w lo n : Nat) : BitVec n := BitVec.ofNat n (num w lo n)

/-- The bit `lo` of a word. -/
def bit (w lo : Nat) : Bool := num w lo 1 == 1

/-- The sixteen narrow operations (R127, R128). -/
def decodeNarrow (w : Nat) : Except DecodeError Instr :=
  if num w 15 1 = 1 then .error .narrowBit15
  else match num w 1 4 with
  | 0 => .ok (.mov (fld w 5 5) (fld w 10 5))
  | 1 => .ok (.addN (fld w 5 5) (fld w 10 5))
  | 2 => .ok (.subN (fld w 5 5) (fld w 10 5))
  | 3 => .ok (.andN (fld w 5 5) (fld w 10 5))
  | 4 => .ok (.orN (fld w 5 5) (fld w 10 5))
  | 5 => .ok (.xorN (fld w 5 5) (fld w 10 5))
  | 6 => .ok (.shlN (fld w 5 5) (fld w 10 5))
  | 7 => .ok (.shrN (fld w 5 5) (fld w 10 5))
  | 8 => .ok (.addi5 (fld w 5 5) (fld w 10 5))
  | 9 => .ok (.faddN (fld w 5 5) (fld w 10 5))
  | 10 => .ok (.fsubN (fld w 5 5) (fld w 10 5))
  | 11 => .ok (.fmulN (fld w 5 5) (fld w 10 5))
  | 12 => .ok (.fminN (fld w 5 5) (fld w 10 5))
  | 13 => .ok (.fmaxN (fld w 5 5) (fld w 10 5))
  | 14 => .ok (.movi5 (fld w 5 5) (fld w 10 5))
  | 15 => .ok (.mulN (fld w 5 5) (fld w 10 5))
  | _ => .error .narrowBit15

/-- Major 0x00: ILL. -/
def decodeMajor00 (w : Nat) : Except DecodeError Instr :=
  .ok (.ill (bit w 1) (fld w 8 24))

/-- Major 0x01: ADD, SUB, AND, OR, XOR, ANDN, SHL, SHR, SRA, ROR, MUL, MULH, MULHU, MULHSU, DIV, DIVU, REM, REMU, MIN, MAX, MINU, MAXU, CLZ, POPC, BREV, SLT, SLTU. -/
def decodeMajor01 (w : Nat) : Except DecodeError Instr :=
  if num w 26 6 = 0 then .ok (.add (bit w 1) (fld w 8 6) (fld w 14 6) (fld w 20 6))
  else if num w 26 6 = 1 then .ok (.sub (bit w 1) (fld w 8 6) (fld w 14 6) (fld w 20 6))
  else if num w 26 6 = 2 then .ok (.and (bit w 1) (fld w 8 6) (fld w 14 6) (fld w 20 6))
  else if num w 26 6 = 3 then .ok (.or (bit w 1) (fld w 8 6) (fld w 14 6) (fld w 20 6))
  else if num w 26 6 = 4 then .ok (.xor (bit w 1) (fld w 8 6) (fld w 14 6) (fld w 20 6))
  else if num w 26 6 = 5 then .ok (.andn (bit w 1) (fld w 8 6) (fld w 14 6) (fld w 20 6))
  else if num w 26 6 = 6 then .ok (.shl (bit w 1) (fld w 8 6) (fld w 14 6) (fld w 20 6))
  else if num w 26 6 = 7 then .ok (.shr (bit w 1) (fld w 8 6) (fld w 14 6) (fld w 20 6))
  else if num w 26 6 = 8 then .ok (.sra (bit w 1) (fld w 8 6) (fld w 14 6) (fld w 20 6))
  else if num w 26 6 = 9 then .ok (.ror (bit w 1) (fld w 8 6) (fld w 14 6) (fld w 20 6))
  else if num w 26 6 = 10 then .ok (.mul (bit w 1) (fld w 8 6) (fld w 14 6) (fld w 20 6))
  else if num w 26 6 = 11 then .ok (.mulh (bit w 1) (fld w 8 6) (fld w 14 6) (fld w 20 6))
  else if num w 26 6 = 12 then .ok (.mulhu (bit w 1) (fld w 8 6) (fld w 14 6) (fld w 20 6))
  else if num w 26 6 = 13 then .ok (.mulhsu (bit w 1) (fld w 8 6) (fld w 14 6) (fld w 20 6))
  else if num w 26 6 = 14 then .ok (.div (bit w 1) (fld w 8 6) (fld w 14 6) (fld w 20 6))
  else if num w 26 6 = 15 then .ok (.divu (bit w 1) (fld w 8 6) (fld w 14 6) (fld w 20 6))
  else if num w 26 6 = 16 then .ok (.rem (bit w 1) (fld w 8 6) (fld w 14 6) (fld w 20 6))
  else if num w 26 6 = 17 then .ok (.remu (bit w 1) (fld w 8 6) (fld w 14 6) (fld w 20 6))
  else if num w 26 6 = 18 then .ok (.min (bit w 1) (fld w 8 6) (fld w 14 6) (fld w 20 6))
  else if num w 26 6 = 19 then .ok (.max (bit w 1) (fld w 8 6) (fld w 14 6) (fld w 20 6))
  else if num w 26 6 = 20 then .ok (.minu (bit w 1) (fld w 8 6) (fld w 14 6) (fld w 20 6))
  else if num w 26 6 = 21 then .ok (.maxu (bit w 1) (fld w 8 6) (fld w 14 6) (fld w 20 6))
  else if num w 20 12 = 1408 then .ok (.clz (bit w 1) (fld w 8 6) (fld w 14 6))
  else if num w 20 12 = 1472 then .ok (.popc (bit w 1) (fld w 8 6) (fld w 14 6))
  else if num w 20 12 = 1536 then .ok (.brev (bit w 1) (fld w 8 6) (fld w 14 6))
  else if num w 26 6 = 25 then .ok (.slt (bit w 1) (fld w 8 6) (fld w 14 6) (fld w 20 6))
  else if num w 26 6 = 26 then .ok (.sltu (bit w 1) (fld w 8 6) (fld w 14 6) (fld w 20 6))
  else .error (.subOperation 1)

/-- Major 0x02: ADDI. -/
def decodeMajor02 (w : Nat) : Except DecodeError Instr :=
  .ok (.addi (bit w 1) (fld w 8 6) (fld w 14 6) (fld w 20 12))

/-- Major 0x03: ANDI. -/
def decodeMajor03 (w : Nat) : Except DecodeError Instr :=
  .ok (.andi (bit w 1) (fld w 8 6) (fld w 14 6) (fld w 20 12))

/-- Major 0x04: ORI. -/
def decodeMajor04 (w : Nat) : Except DecodeError Instr :=
  .ok (.ori (bit w 1) (fld w 8 6) (fld w 14 6) (fld w 20 12))

/-- Major 0x05: XORI. -/
def decodeMajor05 (w : Nat) : Except DecodeError Instr :=
  .ok (.xori (bit w 1) (fld w 8 6) (fld w 14 6) (fld w 20 12))

/-- Major 0x06: SHLI, SHRI, SRAI, RORI. -/
def decodeMajor06 (w : Nat) : Except DecodeError Instr :=
  if num w 25 7 = 0 then .ok (.shli (bit w 1) (fld w 8 6) (fld w 14 6) (fld w 20 5))
  else if num w 25 7 = 1 then .ok (.shri (bit w 1) (fld w 8 6) (fld w 14 6) (fld w 20 5))
  else if num w 25 7 = 2 then .ok (.srai (bit w 1) (fld w 8 6) (fld w 14 6) (fld w 20 5))
  else if num w 25 7 = 3 then .ok (.rori (bit w 1) (fld w 8 6) (fld w 14 6) (fld w 20 5))
  else .error (.subOperation 6)

/-- Major 0x07: LUI, LUI_Z, LUI_LO, LUI_S. -/
def decodeMajor07 (w : Nat) : Except DecodeError Instr :=
  if num w 30 2 = 0 then .ok (.lui (bit w 1) (fld w 8 6) (fld w 14 16))
  else if num w 30 2 = 1 then .ok (.luiZ (bit w 1) (fld w 8 6) (fld w 14 16))
  else if num w 30 2 = 2 then .ok (.luiLo (bit w 1) (fld w 8 6) (fld w 14 16))
  else if num w 30 2 = 3 then .ok (.luiS (bit w 1) (fld w 8 6) (fld w 14 16))
  else .error (.subOperation 7)

/-- Major 0x08: BFX, BFX_S. -/
def decodeMajor08 (w : Nat) : Except DecodeError Instr :=
  if num w 30 2 = 0 then .ok (.bfx (bit w 1) (fld w 8 6) (fld w 14 6) (fld w 20 5) (fld w 25 5))
  else if num w 30 2 = 1 then .ok (.bfxS (bit w 1) (fld w 8 6) (fld w 14 6) (fld w 20 5) (fld w 25 5))
  else .error (.subOperation 8)

/-- Major 0x09: BFI. -/
def decodeMajor09 (w : Nat) : Except DecodeError Instr :=
  if num w 30 2 = 0 then .ok (.bfi (bit w 1) (fld w 8 6) (fld w 14 6) (fld w 20 5) (fld w 25 5))
  else .error (.subOperation 9)

/-- Major 0x0A: CMP. -/
def decodeMajor0A (w : Nat) : Except DecodeError Instr :=
  if num w 11 3 = 0 ∧ num w 29 3 = 0 then .ok (.cmp (bit w 1) (fld w 8 3) (fld w 14 6) (fld w 20 6) (fld w 26 3))
  else .error (.subOperation 10)

/-- Major 0x0B: CMPI. -/
def decodeMajor0B (w : Nat) : Except DecodeError Instr :=
  .ok (.cmpi (bit w 1) (fld w 8 3) (fld w 11 3) (fld w 14 6) (fld w 20 12))

/-- Major 0x0C: SEL. -/
def decodeMajor0C (w : Nat) : Except DecodeError Instr :=
  if num w 29 3 = 0 then .ok (.sel (bit w 1) (fld w 8 6) (fld w 14 6) (fld w 20 6) (fld w 26 3))
  else .error (.subOperation 12)

/-- Major 0x0D: KAND, KOR, KXOR, KANDN, KORN, KNOT, KTOX, XTOK, KPACK, KUNPK. -/
def decodeMajor0D (w : Nat) : Except DecodeError Instr :=
  if num w 11 3 = 0 ∧ num w 17 3 = 0 ∧ num w 23 9 = 0 then .ok (.kand (bit w 1) (fld w 8 3) (fld w 14 3) (fld w 20 3))
  else if num w 11 3 = 0 ∧ num w 17 3 = 0 ∧ num w 23 9 = 8 then .ok (.kor (bit w 1) (fld w 8 3) (fld w 14 3) (fld w 20 3))
  else if num w 11 3 = 0 ∧ num w 17 3 = 0 ∧ num w 23 9 = 16 then .ok (.kxor (bit w 1) (fld w 8 3) (fld w 14 3) (fld w 20 3))
  else if num w 11 3 = 0 ∧ num w 17 3 = 0 ∧ num w 23 9 = 24 then .ok (.kandn (bit w 1) (fld w 8 3) (fld w 14 3) (fld w 20 3))
  else if num w 11 3 = 0 ∧ num w 17 3 = 0 ∧ num w 23 9 = 32 then .ok (.korn (bit w 1) (fld w 8 3) (fld w 14 3) (fld w 20 3))
  else if num w 11 3 = 0 ∧ num w 17 15 = 2560 then .ok (.knot (bit w 1) (fld w 8 3) (fld w 14 3))
  else if num w 17 15 = 3072 then .ok (.ktox (bit w 1) (fld w 8 6) (fld w 14 3))
  else if num w 11 3 = 0 ∧ num w 20 12 = 448 then .ok (.xtok (bit w 1) (fld w 8 3) (fld w 14 6))
  else if num w 14 18 = 32768 then .ok (.kpack (bit w 1) (fld w 8 6))
  else if num w 8 6 = 0 ∧ num w 20 12 = 576 then .ok (.kunpk (bit w 1) (fld w 14 6))
  else .error (.subOperation 13)

/-- Major 0x0E: ADDA. -/
def decodeMajor0E (w : Nat) : Except DecodeError Instr :=
  if num w 13 1 = 0 ∧ num w 19 1 = 0 ∧ num w 28 4 = 0 then .ok (.adda (bit w 1) (fld w 8 5) (fld w 14 5) (fld w 20 6) (fld w 26 2))
  else .error (.subOperation 14)

/-- Major 0x0F: ADDAI. -/
def decodeMajor0F (w : Nat) : Except DecodeError Instr :=
  if num w 13 1 = 0 ∧ num w 19 1 = 0 then .ok (.addai (bit w 1) (fld w 8 5) (fld w 14 5) (fld w 20 12))
  else .error (.subOperation 15)

/-- Major 0x10: BR. -/
def decodeMajor10 (w : Nat) : Except DecodeError Instr :=
  .ok (.br (bit w 1) (fld w 8 3) (bit w 11) (fld w 12 20))

/-- Major 0x11: JMP. -/
def decodeMajor11 (w : Nat) : Except DecodeError Instr :=
  .ok (.jmp (bit w 1) (fld w 8 24))

/-- Major 0x12: CALL. -/
def decodeMajor12 (w : Nat) : Except DecodeError Instr :=
  .ok (.call (bit w 1) (fld w 8 24))

/-- Major 0x13: JR, CALLR, RET. -/
def decodeMajor13 (w : Nat) : Except DecodeError Instr :=
  if num w 8 6 = 0 ∧ num w 19 13 = 0 then .ok (.jr (bit w 1) (fld w 14 5))
  else if num w 8 6 = 0 ∧ num w 19 13 = 128 then .ok (.callr (bit w 1) (fld w 14 5))
  else if num w 8 24 = 524288 then .ok (.ret (bit w 1))
  else .error (.subOperation 19)

/-- Major 0x14: BECOME. -/
def decodeMajor14 (w : Nat) : Except DecodeError Instr :=
  if num w 20 12 = 0 then .ok (.become (bit w 1) (fld w 8 6) (fld w 14 6))
  else .error (.subOperation 20)

/-- Major 0x15: MEET. -/
def decodeMajor15 (w : Nat) : Except DecodeError Instr :=
  .ok (.meet (bit w 1) (fld w 8 24))

/-- Major 0x16: YIELD. -/
def decodeMajor16 (w : Nat) : Except DecodeError Instr :=
  if num w 8 24 = 0 then .ok (.yield (bit w 1))
  else .error (.subOperation 22)

/-- Major 0x17: LOOP. -/
def decodeMajor17 (w : Nat) : Except DecodeError Instr :=
  if num w 10 4 = 0 then .ok (.loop (bit w 1) (fld w 8 2) (fld w 14 6) (fld w 20 12))
  else .error (.subOperation 23)

/-- Major 0x18: NOP, TRAP, BRK. -/
def decodeMajor18 (w : Nat) : Except DecodeError Instr :=
  if num w 8 24 = 0 then .ok (.nop (bit w 1))
  else if num w 26 6 = 1 then .ok (.trap (bit w 1) (fld w 8 18))
  else if num w 26 6 = 2 then .ok (.brk (bit w 1) (fld w 8 18))
  else .error (.subOperation 24)

/-- Major 0x19: MFS. -/
def decodeMajor19 (w : Nat) : Except DecodeError Instr :=
  if num w 14 6 = 0 then .ok (.mfs (bit w 1) (fld w 8 6) (fld w 20 12))
  else .error (.subOperation 25)

/-- Major 0x1A: MTS. -/
def decodeMajor1A (w : Nat) : Except DecodeError Instr :=
  if num w 8 6 = 0 then .ok (.mts (bit w 1) (fld w 14 6) (fld w 20 12))
  else .error (.subOperation 26)

/-- Major 0x1B: FADD, FSUB, FMUL, FMIN, FMAX, FABS, FNEG, FSGNJ. -/
def decodeMajor1B (w : Nat) : Except DecodeError Instr :=
  if num w 26 6 = 0 then .ok (.fadd (bit w 1) (fld w 8 6) (fld w 14 6) (fld w 20 6))
  else if num w 26 6 = 1 then .ok (.fsub (bit w 1) (fld w 8 6) (fld w 14 6) (fld w 20 6))
  else if num w 26 6 = 2 then .ok (.fmul (bit w 1) (fld w 8 6) (fld w 14 6) (fld w 20 6))
  else if num w 26 6 = 3 then .ok (.fmin (bit w 1) (fld w 8 6) (fld w 14 6) (fld w 20 6))
  else if num w 26 6 = 4 then .ok (.fmax (bit w 1) (fld w 8 6) (fld w 14 6) (fld w 20 6))
  else if num w 20 12 = 320 then .ok (.fabs (bit w 1) (fld w 8 6) (fld w 14 6))
  else if num w 20 12 = 384 then .ok (.fneg (bit w 1) (fld w 8 6) (fld w 14 6))
  else if num w 26 6 = 7 then .ok (.fsgnj (bit w 1) (fld w 8 6) (fld w 14 6) (fld w 20 6))
  else .error (.subOperation 27)

/-- Major 0x1C: FFMA. -/
def decodeMajor1C (w : Nat) : Except DecodeError Instr :=
  .ok (.ffma (bit w 1) (fld w 8 6) (fld w 14 6) (fld w 20 6) (fld w 26 6))

/-- Major 0x1D: FFMS. -/
def decodeMajor1D (w : Nat) : Except DecodeError Instr :=
  .ok (.ffms (bit w 1) (fld w 8 6) (fld w 14 6) (fld w 20 6) (fld w 26 6))

/-- Major 0x1E: FNMA. -/
def decodeMajor1E (w : Nat) : Except DecodeError Instr :=
  .ok (.fnma (bit w 1) (fld w 8 6) (fld w 14 6) (fld w 20 6) (fld w 26 6))

/-- Major 0x1F: HADD2, HSUB2, HMUL2, HMIN2, HMAX2, BADD2, BSUB2, BMUL2, BMIN2, BMAX2. -/
def decodeMajor1F (w : Nat) : Except DecodeError Instr :=
  if num w 26 6 = 0 then .ok (.hadd2 (bit w 1) (fld w 8 6) (fld w 14 6) (fld w 20 6))
  else if num w 26 6 = 1 then .ok (.hsub2 (bit w 1) (fld w 8 6) (fld w 14 6) (fld w 20 6))
  else if num w 26 6 = 2 then .ok (.hmul2 (bit w 1) (fld w 8 6) (fld w 14 6) (fld w 20 6))
  else if num w 26 6 = 3 then .ok (.hmin2 (bit w 1) (fld w 8 6) (fld w 14 6) (fld w 20 6))
  else if num w 26 6 = 4 then .ok (.hmax2 (bit w 1) (fld w 8 6) (fld w 14 6) (fld w 20 6))
  else if num w 26 6 = 8 then .ok (.badd2 (bit w 1) (fld w 8 6) (fld w 14 6) (fld w 20 6))
  else if num w 26 6 = 9 then .ok (.bsub2 (bit w 1) (fld w 8 6) (fld w 14 6) (fld w 20 6))
  else if num w 26 6 = 10 then .ok (.bmul2 (bit w 1) (fld w 8 6) (fld w 14 6) (fld w 20 6))
  else if num w 26 6 = 11 then .ok (.bmin2 (bit w 1) (fld w 8 6) (fld w 14 6) (fld w 20 6))
  else if num w 26 6 = 12 then .ok (.bmax2 (bit w 1) (fld w 8 6) (fld w 14 6) (fld w 20 6))
  else .error (.subOperation 31)

/-- Major 0x20: HFMA2. -/
def decodeMajor20 (w : Nat) : Except DecodeError Instr :=
  .ok (.hfma2 (bit w 1) (fld w 8 6) (fld w 14 6) (fld w 20 6) (fld w 26 6))

/-- Major 0x21: BFMA2. -/
def decodeMajor21 (w : Nat) : Except DecodeError Instr :=
  .ok (.bfma2 (bit w 1) (fld w 8 6) (fld w 14 6) (fld w 20 6) (fld w 26 6))

/-- Major 0x22: FCMP. -/
def decodeMajor22 (w : Nat) : Except DecodeError Instr :=
  if num w 11 3 = 0 ∧ num w 29 3 = 0 then .ok (.fcmp (bit w 1) (fld w 8 3) (fld w 14 6) (fld w 20 6) (fld w 26 3))
  else .error (.subOperation 34)

/-- Major 0x23: FCVT. -/
def decodeMajor23 (w : Nat) : Except DecodeError Instr :=
  if num w 24 2 = 0 ∧ num w 31 1 = 0 then .ok (.fcvt (bit w 1) (fld w 8 6) (fld w 14 6) (fld w 20 4) (fld w 26 4) (bit w 30))
  else .error (.subOperation 35)

/-- Major 0x24: RCP, RSQ, SQRT, EXP2, LOG2, TANH, SIN, COS. -/
def decodeMajor24 (w : Nat) : Except DecodeError Instr :=
  if num w 20 12 = 0 then .ok (.rcp (bit w 1) (fld w 8 6) (fld w 14 6))
  else if num w 20 12 = 64 then .ok (.rsq (bit w 1) (fld w 8 6) (fld w 14 6))
  else if num w 20 12 = 128 then .ok (.sqrt (bit w 1) (fld w 8 6) (fld w 14 6))
  else if num w 20 12 = 192 then .ok (.exp2 (bit w 1) (fld w 8 6) (fld w 14 6))
  else if num w 20 12 = 256 then .ok (.log2 (bit w 1) (fld w 8 6) (fld w 14 6))
  else if num w 20 12 = 320 then .ok (.tanh (bit w 1) (fld w 8 6) (fld w 14 6))
  else if num w 20 12 = 384 then .ok (.sin (bit w 1) (fld w 8 6) (fld w 14 6))
  else if num w 20 12 = 448 then .ok (.cos (bit w 1) (fld w 8 6) (fld w 14 6))
  else .error (.subOperation 36)

/-- Major 0x25: FADD_E, FMUL_E, FFMA_E, EADD, EFROM, ERND, EGET, ESET. -/
def decodeMajor25 (w : Nat) : Except DecodeError Instr :=
  if num w 10 4 = 0 ∧ num w 16 4 = 0 ∧ num w 26 6 = 0 then .ok (.faddE (bit w 1) (fld w 8 2) (fld w 14 2) (fld w 20 6))
  else if num w 10 4 = 0 ∧ num w 26 6 = 1 then .ok (.fmulE (bit w 1) (fld w 8 2) (fld w 14 6) (fld w 20 6))
  else if num w 10 4 = 0 ∧ num w 26 6 = 2 then .ok (.ffmaE (bit w 1) (fld w 8 2) (fld w 14 6) (fld w 20 6))
  else if num w 10 4 = 0 ∧ num w 16 4 = 0 ∧ num w 22 10 = 48 then .ok (.eadd (bit w 1) (fld w 8 2) (fld w 14 2) (fld w 20 2))
  else if num w 10 4 = 0 ∧ num w 20 12 = 256 then .ok (.efrom (bit w 1) (fld w 8 2) (fld w 14 6))
  else if num w 16 4 = 0 ∧ num w 26 6 = 5 then .ok (.ernd (bit w 1) (fld w 8 6) (fld w 14 2) (fld w 20 6))
  else if num w 8 1 = 0 ∧ num w 16 16 = 6144 then .ok (.eget (bit w 1) (fld w 9 5) (fld w 14 2))
  else if num w 10 5 = 0 ∧ num w 20 12 = 448 then .ok (.eset (bit w 1) (fld w 8 2) (fld w 15 5))
  else .error (.subOperation 37)

/-- Major 0x26: DOT4, DOT4U, DOT4SU, DOT2H. -/
def decodeMajor26 (w : Nat) : Except DecodeError Instr :=
  if num w 26 6 = 0 then .ok (.dot4 (bit w 1) (fld w 8 6) (fld w 14 6) (fld w 20 6))
  else if num w 26 6 = 1 then .ok (.dot4u (bit w 1) (fld w 8 6) (fld w 14 6) (fld w 20 6))
  else if num w 26 6 = 2 then .ok (.dot4su (bit w 1) (fld w 8 6) (fld w 14 6) (fld w 20 6))
  else if num w 26 6 = 3 then .ok (.dot2h (bit w 1) (fld w 8 6) (fld w 14 6) (fld w 20 6))
  else .error (.subOperation 38)

/-- Major 0x27: BPACK, BPACK_FX, BUNPK. -/
def decodeMajor27 (w : Nat) : Except DecodeError Instr :=
  if num w 20 1 = 0 ∧ num w 28 4 = 0 then .ok (.bpack (bit w 1) (fld w 8 6) (fld w 14 6) (fld w 21 5) (fld w 26 2))
  else if num w 20 1 = 0 ∧ num w 28 4 = 1 then .ok (.bpackFx (bit w 1) (fld w 8 6) (fld w 14 6) (fld w 21 5) (fld w 26 2))
  else if num w 20 6 = 0 ∧ num w 28 4 = 2 then .ok (.bunpk (bit w 1) (fld w 8 6) (fld w 14 6) (fld w 26 2))
  else .error (.subOperation 39)

/-- Major 0x28: RNDM, RNDM4. -/
def decodeMajor28 (w : Nat) : Except DecodeError Instr :=
  if num w 14 1 = 0 ∧ num w 28 4 = 0 then .ok (.rndm (bit w 1) (fld w 8 6) (fld w 15 5) (fld w 20 6) (fld w 26 2))
  else if num w 8 2 = 0 ∧ num w 14 1 = 0 ∧ num w 26 6 = 4 then .ok (.rndm4 (bit w 1) (fld w 10 4) (fld w 15 5) (fld w 20 6))
  else .error (.subOperation 40)

/-- Major 0x29: VOTE_BAL, VOTE_ANY, VOTE_ALL, SHFL_IDX, SHFL_UP, SHFL_DN, SHFL_XOR. -/
def decodeMajor29 (w : Nat) : Except DecodeError Instr :=
  if num w 17 15 = 0 then .ok (.voteBal (bit w 1) (fld w 8 6) (fld w 14 3))
  else if num w 11 3 = 0 ∧ num w 17 15 = 512 then .ok (.voteAny (bit w 1) (fld w 8 3) (fld w 14 3))
  else if num w 11 3 = 0 ∧ num w 17 15 = 1024 then .ok (.voteAll (bit w 1) (fld w 8 3) (fld w 14 3))
  else if num w 26 6 = 4 then .ok (.shflIdx (bit w 1) (fld w 8 6) (fld w 14 6) (fld w 20 6))
  else if num w 26 6 = 5 then .ok (.shflUp (bit w 1) (fld w 8 6) (fld w 14 6) (fld w 20 6))
  else if num w 26 6 = 6 then .ok (.shflDn (bit w 1) (fld w 8 6) (fld w 14 6) (fld w 20 6))
  else if num w 26 6 = 7 then .ok (.shflXor (bit w 1) (fld w 8 6) (fld w 14 6) (fld w 20 6))
  else .error (.subOperation 41)

/-- Major 0x2A: CRED, CSCAN, CSCANX. -/
def decodeMajor2A (w : Nat) : Except DecodeError Instr :=
  if num w 20 6 = 0 ∧ num w 30 2 = 0 then .ok (.cred (bit w 1) (fld w 8 6) (fld w 14 6) (fld w 26 4))
  else if num w 20 6 = 0 ∧ num w 30 2 = 1 then .ok (.cscan (bit w 1) (fld w 8 6) (fld w 14 6) (fld w 26 4))
  else if num w 20 6 = 0 ∧ num w 30 2 = 2 then .ok (.cscanx (bit w 1) (fld w 8 6) (fld w 14 6) (fld w 26 4))
  else .error (.subOperation 42)

/-- Major 0x2B: LD. -/
def decodeMajor2B (w : Nat) : Except DecodeError Instr :=
  .ok (.ld (bit w 1) (fld w 8 6) (fld w 14 5) (bit w 19) (fld w 20 3) (fld w 23 9))

/-- Major 0x2C: ST. -/
def decodeMajor2C (w : Nat) : Except DecodeError Instr :=
  if num w 19 1 = 0 then .ok (.st (bit w 1) (fld w 8 6) (fld w 14 5) (fld w 20 3) (fld w 23 9))
  else .error (.subOperation 44)

/-- Major 0x2D: LDS, LDS_D. -/
def decodeMajor2D (w : Nat) : Except DecodeError Instr :=
  if num w 19 6 = 0 ∧ num w 28 4 = 0 then .ok (.lds (bit w 1) (fld w 8 6) (fld w 14 5) (fld w 25 3))
  else if num w 8 1 = 0 ∧ num w 19 6 = 0 ∧ num w 28 4 = 1 then .ok (.ldsD (bit w 1) (fld w 9 5) (fld w 14 5) (fld w 25 3))
  else .error (.subOperation 45)

/-- Major 0x2E: STS, STS_D. -/
def decodeMajor2E (w : Nat) : Except DecodeError Instr :=
  if num w 19 6 = 0 ∧ num w 28 4 = 0 then .ok (.sts (bit w 1) (fld w 8 6) (fld w 14 5) (fld w 25 3))
  else if num w 8 1 = 0 ∧ num w 19 6 = 0 ∧ num w 28 4 = 1 then .ok (.stsD (bit w 1) (fld w 9 5) (fld w 14 5) (fld w 25 3))
  else .error (.subOperation 46)

/-- Major 0x2F: ACQP, ACQP_ALL. -/
def decodeMajor2F (w : Nat) : Except DecodeError Instr :=
  if num w 25 7 = 3 then .ok (.acqp (bit w 1) (fld w 8 6) (fld w 14 5) (fld w 19 6))
  else if num w 19 13 = 704 then .ok (.acqpAll (bit w 1) (fld w 8 6) (fld w 14 5))
  else .error (.subOperation 47)

/-- Major 0x30: ATOM. -/
def decodeMajor30 (w : Nat) : Except DecodeError Instr :=
  .ok (.atom (bit w 1) (fld w 8 6) (fld w 14 5) (fld w 19 6) (fld w 25 3) (fld w 28 4))

/-- Major 0x31: ATOMT. -/
def decodeMajor31 (w : Nat) : Except DecodeError Instr :=
  if num w 19 1 = 0 ∧ num w 28 4 = 0 then .ok (.atomt (bit w 1) (fld w 8 6) (fld w 14 5) (fld w 20 5) (fld w 25 3))
  else .error (.subOperation 49)

/-- Major 0x32: RED. -/
def decodeMajor32 (w : Nat) : Except DecodeError Instr :=
  if num w 8 6 = 0 then .ok (.red (bit w 1) (fld w 14 5) (fld w 19 6) (fld w 25 3) (fld w 28 4))
  else .error (.subOperation 50)

/-- Major 0x33: WAITA. -/
def decodeMajor33 (w : Nat) : Except DecodeError Instr :=
  .ok (.waita (bit w 1) (fld w 8 6) (fld w 14 5) (fld w 19 6) (fld w 25 3) (fld w 28 4))

/-- Major 0x34: BAR_ARRIVE, BAR_WAIT, BAR_SYNC. -/
def decodeMajor34 (w : Nat) : Except DecodeError Instr :=
  if num w 12 2 = 0 ∧ num w 20 12 = 0 then .ok (.barArrive (bit w 1) (fld w 8 4) (fld w 14 6))
  else if num w 12 2 = 0 ∧ num w 20 12 = 64 then .ok (.barWait (bit w 1) (fld w 8 4) (fld w 14 6))
  else if num w 12 2 = 0 ∧ num w 20 12 = 128 then .ok (.barSync (bit w 1) (fld w 8 4) (fld w 14 6))
  else .error (.subOperation 52)

/-- Major 0x35: WAITC. -/
def decodeMajor35 (w : Nat) : Except DecodeError Instr :=
  if num w 21 11 = 0 then .ok (.waitc (bit w 1) (fld w 8 2) (fld w 10 6) (fld w 16 3) (bit w 19) (bit w 20))
  else .error (.subOperation 53)

/-- Major 0x36: EMIT. -/
def decodeMajor36 (w : Nat) : Except DecodeError Instr :=
  if num w 8 6 = 0 ∧ num w 26 6 = 0 then .ok (.emit (bit w 1) (fld w 14 6) (fld w 20 6))
  else .error (.subOperation 54)

/-- Major 0x37: CPY, CPYS, SLINV. -/
def decodeMajor37 (w : Nat) : Except DecodeError Instr :=
  if num w 13 1 = 0 ∧ num w 19 13 = 0 then .ok (.cpy (bit w 1) (fld w 8 5) (fld w 14 5))
  else if num w 13 1 = 0 ∧ num w 19 1 = 0 ∧ num w 26 6 = 1 then .ok (.cpys (bit w 1) (fld w 8 5) (fld w 14 5) (fld w 20 6))
  else if num w 8 6 = 0 ∧ num w 19 13 = 256 then .ok (.slinv (bit w 1) (fld w 14 5))
  else .error (.subOperation 55)

/-- Major 0x38: MXC. -/
def decodeMajor38 (w : Nat) : Except DecodeError Instr :=
  if num w 13 1 = 0 ∧ num w 26 6 = 0 then .ok (.mxc (bit w 1) (fld w 8 5) (fld w 14 6) (fld w 20 6))
  else .error (.subOperation 56)

/-- Major 0x39: MXR, MXRN, MXW. -/
def decodeMajor39 (w : Nat) : Except DecodeError Instr :=
  if num w 23 9 = 0 then .ok (.mxr (bit w 1) (fld w 8 6) (fld w 14 6) (fld w 20 3))
  else if num w 23 9 = 8 then .ok (.mxrn (bit w 1) (fld w 8 6) (fld w 14 6) (fld w 20 3))
  else if num w 23 9 = 16 then .ok (.mxw (bit w 1) (fld w 8 6) (fld w 14 6) (fld w 20 3))
  else .error (.subOperation 57)

/-- Major 0x3A: RTAKE, RTAKE_RES, RGIVE_PUB, RGIVE_REL. -/
def decodeMajor3A (w : Nat) : Except DecodeError Instr :=
  if num w 13 1 = 0 ∧ num w 16 16 = 0 then .ok (.rtake (bit w 1) (fld w 8 5) (fld w 14 2))
  else if num w 13 1 = 0 ∧ num w 16 16 = 1024 then .ok (.rtakeRes (bit w 1) (fld w 8 5) (fld w 14 2))
  else if num w 8 6 = 0 ∧ num w 16 4 = 0 ∧ num w 25 7 = 4 then .ok (.rgivePub (bit w 1) (fld w 14 2) (fld w 20 5))
  else if num w 8 6 = 0 ∧ num w 16 4 = 0 ∧ num w 25 7 = 6 then .ok (.rgiveRel (bit w 1) (fld w 14 2) (fld w 20 5))
  else .error (.subOperation 58)

/-- Major 0x3B: BIND, BIND_WB, GRUN, GSTOP, GSTAT. -/
def decodeMajor3B (w : Nat) : Except DecodeError Instr :=
  if num w 8 6 = 0 ∧ num w 19 13 = 0 then .ok (.bind (bit w 1) (fld w 14 5))
  else if num w 8 6 = 0 ∧ num w 19 13 = 128 then .ok (.bindWb (bit w 1) (fld w 14 5))
  else if num w 8 6 = 0 ∧ num w 19 1 = 0 ∧ num w 26 6 = 2 then .ok (.grun (bit w 1) (fld w 14 5) (fld w 20 6))
  else if num w 8 6 = 0 ∧ num w 19 13 = 384 then .ok (.gstop (bit w 1) (fld w 14 5))
  else if num w 8 1 = 0 ∧ num w 19 13 = 512 then .ok (.gstat (bit w 1) (fld w 9 5) (fld w 14 5))
  else .error (.subOperation 59)

/-- The 32-bit word `w`, whose bits [7:2] are the major opcode (R121, R129). -/
def decodeWide (w : Nat) : Except DecodeError Instr :=
  match num w 2 6 with
  | 0 => decodeMajor00 w
  | 1 => decodeMajor01 w
  | 2 => decodeMajor02 w
  | 3 => decodeMajor03 w
  | 4 => decodeMajor04 w
  | 5 => decodeMajor05 w
  | 6 => decodeMajor06 w
  | 7 => decodeMajor07 w
  | 8 => decodeMajor08 w
  | 9 => decodeMajor09 w
  | 10 => decodeMajor0A w
  | 11 => decodeMajor0B w
  | 12 => decodeMajor0C w
  | 13 => decodeMajor0D w
  | 14 => decodeMajor0E w
  | 15 => decodeMajor0F w
  | 16 => decodeMajor10 w
  | 17 => decodeMajor11 w
  | 18 => decodeMajor12 w
  | 19 => decodeMajor13 w
  | 20 => decodeMajor14 w
  | 21 => decodeMajor15 w
  | 22 => decodeMajor16 w
  | 23 => decodeMajor17 w
  | 24 => decodeMajor18 w
  | 25 => decodeMajor19 w
  | 26 => decodeMajor1A w
  | 27 => decodeMajor1B w
  | 28 => decodeMajor1C w
  | 29 => decodeMajor1D w
  | 30 => decodeMajor1E w
  | 31 => decodeMajor1F w
  | 32 => decodeMajor20 w
  | 33 => decodeMajor21 w
  | 34 => decodeMajor22 w
  | 35 => decodeMajor23 w
  | 36 => decodeMajor24 w
  | 37 => decodeMajor25 w
  | 38 => decodeMajor26 w
  | 39 => decodeMajor27 w
  | 40 => decodeMajor28 w
  | 41 => decodeMajor29 w
  | 42 => decodeMajor2A w
  | 43 => decodeMajor2B w
  | 44 => decodeMajor2C w
  | 45 => decodeMajor2D w
  | 46 => decodeMajor2E w
  | 47 => decodeMajor2F w
  | 48 => decodeMajor30 w
  | 49 => decodeMajor31 w
  | 50 => decodeMajor32 w
  | 51 => decodeMajor33 w
  | 52 => decodeMajor34 w
  | 53 => decodeMajor35 w
  | 54 => decodeMajor36 w
  | 55 => decodeMajor37 w
  | 56 => decodeMajor38 w
  | 57 => decodeMajor39 w
  | 58 => decodeMajor3A w
  | 59 => decodeMajor3B w
  | m => .error (.reservedMajor m)

/-- The words of an instruction, from the encodings of R122, R127 and the instruction chapters: the number
of bits and the bits as one number, bit 0 the least significant bit of the first halfword. An event row has
no word. -/
def encode : Instr → Option (Nat × Nat)
  | .mov d a => some (16, 0 + d.toNat * 32 + a.toNat * 1024)
  | .addN d a => some (16, 2 + d.toNat * 32 + a.toNat * 1024)
  | .subN d a => some (16, 4 + d.toNat * 32 + a.toNat * 1024)
  | .andN d a => some (16, 6 + d.toNat * 32 + a.toNat * 1024)
  | .orN d a => some (16, 8 + d.toNat * 32 + a.toNat * 1024)
  | .xorN d a => some (16, 10 + d.toNat * 32 + a.toNat * 1024)
  | .shlN d a => some (16, 12 + d.toNat * 32 + a.toNat * 1024)
  | .shrN d a => some (16, 14 + d.toNat * 32 + a.toNat * 1024)
  | .addi5 d im => some (16, 16 + d.toNat * 32 + im.toNat * 1024)
  | .faddN d a => some (16, 18 + d.toNat * 32 + a.toNat * 1024)
  | .fsubN d a => some (16, 20 + d.toNat * 32 + a.toNat * 1024)
  | .fmulN d a => some (16, 22 + d.toNat * 32 + a.toNat * 1024)
  | .fminN d a => some (16, 24 + d.toNat * 32 + a.toNat * 1024)
  | .fmaxN d a => some (16, 26 + d.toNat * 32 + a.toNat * 1024)
  | .movi5 d im => some (16, 28 + d.toNat * 32 + im.toNat * 1024)
  | .mulN d a => some (16, 30 + d.toNat * 32 + a.toNat * 1024)
  | .ill q u => some (32, 1 + q.toNat * 2 + u.toNat * 256)
  | .add q d a b => some (32, 5 + q.toNat * 2 + d.toNat * 256 + a.toNat * 16384 + b.toNat * 1048576)
  | .sub q d a b => some (32, 67108869 + q.toNat * 2 + d.toNat * 256 + a.toNat * 16384 + b.toNat * 1048576)
  | .and q d a b => some (32, 134217733 + q.toNat * 2 + d.toNat * 256 + a.toNat * 16384 + b.toNat * 1048576)
  | .or q d a b => some (32, 201326597 + q.toNat * 2 + d.toNat * 256 + a.toNat * 16384 + b.toNat * 1048576)
  | .xor q d a b => some (32, 268435461 + q.toNat * 2 + d.toNat * 256 + a.toNat * 16384 + b.toNat * 1048576)
  | .andn q d a b => some (32, 335544325 + q.toNat * 2 + d.toNat * 256 + a.toNat * 16384 + b.toNat * 1048576)
  | .shl q d a b => some (32, 402653189 + q.toNat * 2 + d.toNat * 256 + a.toNat * 16384 + b.toNat * 1048576)
  | .shr q d a b => some (32, 469762053 + q.toNat * 2 + d.toNat * 256 + a.toNat * 16384 + b.toNat * 1048576)
  | .sra q d a b => some (32, 536870917 + q.toNat * 2 + d.toNat * 256 + a.toNat * 16384 + b.toNat * 1048576)
  | .ror q d a b => some (32, 603979781 + q.toNat * 2 + d.toNat * 256 + a.toNat * 16384 + b.toNat * 1048576)
  | .mul q d a b => some (32, 671088645 + q.toNat * 2 + d.toNat * 256 + a.toNat * 16384 + b.toNat * 1048576)
  | .mulh q d a b => some (32, 738197509 + q.toNat * 2 + d.toNat * 256 + a.toNat * 16384 + b.toNat * 1048576)
  | .mulhu q d a b => some (32, 805306373 + q.toNat * 2 + d.toNat * 256 + a.toNat * 16384 + b.toNat * 1048576)
  | .mulhsu q d a b => some (32, 872415237 + q.toNat * 2 + d.toNat * 256 + a.toNat * 16384 + b.toNat * 1048576)
  | .div q d a b => some (32, 939524101 + q.toNat * 2 + d.toNat * 256 + a.toNat * 16384 + b.toNat * 1048576)
  | .divu q d a b => some (32, 1006632965 + q.toNat * 2 + d.toNat * 256 + a.toNat * 16384 + b.toNat * 1048576)
  | .rem q d a b => some (32, 1073741829 + q.toNat * 2 + d.toNat * 256 + a.toNat * 16384 + b.toNat * 1048576)
  | .remu q d a b => some (32, 1140850693 + q.toNat * 2 + d.toNat * 256 + a.toNat * 16384 + b.toNat * 1048576)
  | .min q d a b => some (32, 1207959557 + q.toNat * 2 + d.toNat * 256 + a.toNat * 16384 + b.toNat * 1048576)
  | .max q d a b => some (32, 1275068421 + q.toNat * 2 + d.toNat * 256 + a.toNat * 16384 + b.toNat * 1048576)
  | .minu q d a b => some (32, 1342177285 + q.toNat * 2 + d.toNat * 256 + a.toNat * 16384 + b.toNat * 1048576)
  | .maxu q d a b => some (32, 1409286149 + q.toNat * 2 + d.toNat * 256 + a.toNat * 16384 + b.toNat * 1048576)
  | .clz q d a => some (32, 1476395013 + q.toNat * 2 + d.toNat * 256 + a.toNat * 16384)
  | .popc q d a => some (32, 1543503877 + q.toNat * 2 + d.toNat * 256 + a.toNat * 16384)
  | .brev q d a => some (32, 1610612741 + q.toNat * 2 + d.toNat * 256 + a.toNat * 16384)
  | .slt q d a b => some (32, 1677721605 + q.toNat * 2 + d.toNat * 256 + a.toNat * 16384 + b.toNat * 1048576)
  | .sltu q d a b => some (32, 1744830469 + q.toNat * 2 + d.toNat * 256 + a.toNat * 16384 + b.toNat * 1048576)
  | .addi q d a im => some (32, 9 + q.toNat * 2 + d.toNat * 256 + a.toNat * 16384 + im.toNat * 1048576)
  | .andi q d a im => some (32, 13 + q.toNat * 2 + d.toNat * 256 + a.toNat * 16384 + im.toNat * 1048576)
  | .ori q d a im => some (32, 17 + q.toNat * 2 + d.toNat * 256 + a.toNat * 16384 + im.toNat * 1048576)
  | .xori q d a im => some (32, 21 + q.toNat * 2 + d.toNat * 256 + a.toNat * 16384 + im.toNat * 1048576)
  | .shli q d a n => some (32, 25 + q.toNat * 2 + d.toNat * 256 + a.toNat * 16384 + n.toNat * 1048576)
  | .shri q d a n => some (32, 33554457 + q.toNat * 2 + d.toNat * 256 + a.toNat * 16384 + n.toNat * 1048576)
  | .srai q d a n => some (32, 67108889 + q.toNat * 2 + d.toNat * 256 + a.toNat * 16384 + n.toNat * 1048576)
  | .rori q d a n => some (32, 100663321 + q.toNat * 2 + d.toNat * 256 + a.toNat * 16384 + n.toNat * 1048576)
  | .lui q d v => some (32, 29 + q.toNat * 2 + d.toNat * 256 + v.toNat * 16384)
  | .luiZ q d v => some (32, 1073741853 + q.toNat * 2 + d.toNat * 256 + v.toNat * 16384)
  | .luiLo q d v => some (32, 2147483677 + q.toNat * 2 + d.toNat * 256 + v.toNat * 16384)
  | .luiS q d v => some (32, 3221225501 + q.toNat * 2 + d.toNat * 256 + v.toNat * 16384)
  | .bfx q d a l w => some (32, 33 + q.toNat * 2 + d.toNat * 256 + a.toNat * 16384 + l.toNat * 1048576 + w.toNat * 33554432)
  | .bfxS q d a l w => some (32, 1073741857 + q.toNat * 2 + d.toNat * 256 + a.toNat * 16384 + l.toNat * 1048576 + w.toNat * 33554432)
  | .bfi q d a l w => some (32, 37 + q.toNat * 2 + d.toNat * 256 + a.toNat * 16384 + l.toNat * 1048576 + w.toNat * 33554432)
  | .cmp q k a b c => some (32, 41 + q.toNat * 2 + k.toNat * 256 + a.toNat * 16384 + b.toNat * 1048576 + c.toNat * 67108864)
  | .cmpi q k c a im => some (32, 45 + q.toNat * 2 + k.toNat * 256 + c.toNat * 2048 + a.toNat * 16384 + im.toNat * 1048576)
  | .sel q d a b p => some (32, 49 + q.toNat * 2 + d.toNat * 256 + a.toNat * 16384 + b.toNat * 1048576 + p.toNat * 67108864)
  | .kand q d a b => some (32, 53 + q.toNat * 2 + d.toNat * 256 + a.toNat * 16384 + b.toNat * 1048576)
  | .kor q d a b => some (32, 67108917 + q.toNat * 2 + d.toNat * 256 + a.toNat * 16384 + b.toNat * 1048576)
  | .kxor q d a b => some (32, 134217781 + q.toNat * 2 + d.toNat * 256 + a.toNat * 16384 + b.toNat * 1048576)
  | .kandn q d a b => some (32, 201326645 + q.toNat * 2 + d.toNat * 256 + a.toNat * 16384 + b.toNat * 1048576)
  | .korn q d a b => some (32, 268435509 + q.toNat * 2 + d.toNat * 256 + a.toNat * 16384 + b.toNat * 1048576)
  | .knot q d a => some (32, 335544373 + q.toNat * 2 + d.toNat * 256 + a.toNat * 16384)
  | .ktox q d a => some (32, 402653237 + q.toNat * 2 + d.toNat * 256 + a.toNat * 16384)
  | .xtok q d a => some (32, 469762101 + q.toNat * 2 + d.toNat * 256 + a.toNat * 16384)
  | .kpack q d => some (32, 536870965 + q.toNat * 2 + d.toNat * 256)
  | .kunpk q a => some (32, 603979829 + q.toNat * 2 + a.toNat * 16384)
  | .adda q d a b sx => some (32, 57 + q.toNat * 2 + d.toNat * 256 + a.toNat * 16384 + b.toNat * 1048576 + sx.toNat * 67108864)
  | .addai q d a im => some (32, 61 + q.toNat * 2 + d.toNat * 256 + a.toNat * 16384 + im.toNat * 1048576)
  | .br q k n o => some (32, 65 + q.toNat * 2 + k.toNat * 256 + n.toNat * 2048 + o.toNat * 4096)
  | .jmp q o => some (32, 69 + q.toNat * 2 + o.toNat * 256)
  | .call q o => some (32, 73 + q.toNat * 2 + o.toNat * 256)
  | .jr q a => some (32, 77 + q.toNat * 2 + a.toNat * 16384)
  | .callr q a => some (32, 67108941 + q.toNat * 2 + a.toNat * 16384)
  | .ret q => some (32, 134217805 + q.toNat * 2)
  | .become q d a => some (32, 81 + q.toNat * 2 + d.toNat * 256 + a.toNat * 16384)
  | .meet q o => some (32, 85 + q.toNat * 2 + o.toNat * 256)
  | .yield q => some (32, 89 + q.toNat * 2)
  | .loop q n a l => some (32, 93 + q.toNat * 2 + n.toNat * 256 + a.toNat * 16384 + l.toNat * 1048576)
  | .nop q => some (32, 97 + q.toNat * 2)
  | .trap q c => some (32, 67108961 + q.toNat * 2 + c.toNat * 256)
  | .brk q c => some (32, 134217825 + q.toNat * 2 + c.toNat * 256)
  | .mfs q d sx => some (32, 101 + q.toNat * 2 + d.toNat * 256 + sx.toNat * 1048576)
  | .mts q a sx => some (32, 105 + q.toNat * 2 + a.toNat * 16384 + sx.toNat * 1048576)
  | .fadd q d a b => some (32, 109 + q.toNat * 2 + d.toNat * 256 + a.toNat * 16384 + b.toNat * 1048576)
  | .fsub q d a b => some (32, 67108973 + q.toNat * 2 + d.toNat * 256 + a.toNat * 16384 + b.toNat * 1048576)
  | .fmul q d a b => some (32, 134217837 + q.toNat * 2 + d.toNat * 256 + a.toNat * 16384 + b.toNat * 1048576)
  | .fmin q d a b => some (32, 201326701 + q.toNat * 2 + d.toNat * 256 + a.toNat * 16384 + b.toNat * 1048576)
  | .fmax q d a b => some (32, 268435565 + q.toNat * 2 + d.toNat * 256 + a.toNat * 16384 + b.toNat * 1048576)
  | .fabs q d a => some (32, 335544429 + q.toNat * 2 + d.toNat * 256 + a.toNat * 16384)
  | .fneg q d a => some (32, 402653293 + q.toNat * 2 + d.toNat * 256 + a.toNat * 16384)
  | .fsgnj q d a b => some (32, 469762157 + q.toNat * 2 + d.toNat * 256 + a.toNat * 16384 + b.toNat * 1048576)
  | .ffma q d a b c => some (32, 113 + q.toNat * 2 + d.toNat * 256 + a.toNat * 16384 + b.toNat * 1048576 + c.toNat * 67108864)
  | .ffms q d a b c => some (32, 117 + q.toNat * 2 + d.toNat * 256 + a.toNat * 16384 + b.toNat * 1048576 + c.toNat * 67108864)
  | .fnma q d a b c => some (32, 121 + q.toNat * 2 + d.toNat * 256 + a.toNat * 16384 + b.toNat * 1048576 + c.toNat * 67108864)
  | .hadd2 q d a b => some (32, 125 + q.toNat * 2 + d.toNat * 256 + a.toNat * 16384 + b.toNat * 1048576)
  | .hsub2 q d a b => some (32, 67108989 + q.toNat * 2 + d.toNat * 256 + a.toNat * 16384 + b.toNat * 1048576)
  | .hmul2 q d a b => some (32, 134217853 + q.toNat * 2 + d.toNat * 256 + a.toNat * 16384 + b.toNat * 1048576)
  | .hmin2 q d a b => some (32, 201326717 + q.toNat * 2 + d.toNat * 256 + a.toNat * 16384 + b.toNat * 1048576)
  | .hmax2 q d a b => some (32, 268435581 + q.toNat * 2 + d.toNat * 256 + a.toNat * 16384 + b.toNat * 1048576)
  | .badd2 q d a b => some (32, 536871037 + q.toNat * 2 + d.toNat * 256 + a.toNat * 16384 + b.toNat * 1048576)
  | .bsub2 q d a b => some (32, 603979901 + q.toNat * 2 + d.toNat * 256 + a.toNat * 16384 + b.toNat * 1048576)
  | .bmul2 q d a b => some (32, 671088765 + q.toNat * 2 + d.toNat * 256 + a.toNat * 16384 + b.toNat * 1048576)
  | .bmin2 q d a b => some (32, 738197629 + q.toNat * 2 + d.toNat * 256 + a.toNat * 16384 + b.toNat * 1048576)
  | .bmax2 q d a b => some (32, 805306493 + q.toNat * 2 + d.toNat * 256 + a.toNat * 16384 + b.toNat * 1048576)
  | .hfma2 q d a b c => some (32, 129 + q.toNat * 2 + d.toNat * 256 + a.toNat * 16384 + b.toNat * 1048576 + c.toNat * 67108864)
  | .bfma2 q d a b c => some (32, 133 + q.toNat * 2 + d.toNat * 256 + a.toNat * 16384 + b.toNat * 1048576 + c.toNat * 67108864)
  | .fcmp q k a b c => some (32, 137 + q.toNat * 2 + k.toNat * 256 + a.toNat * 16384 + b.toNat * 1048576 + c.toNat * 67108864)
  | .fcvt q d a t sx h => some (32, 141 + q.toNat * 2 + d.toNat * 256 + a.toNat * 16384 + t.toNat * 1048576 + sx.toNat * 67108864 + h.toNat * 1073741824)
  | .rcp q d a => some (32, 145 + q.toNat * 2 + d.toNat * 256 + a.toNat * 16384)
  | .rsq q d a => some (32, 67109009 + q.toNat * 2 + d.toNat * 256 + a.toNat * 16384)
  | .sqrt q d a => some (32, 134217873 + q.toNat * 2 + d.toNat * 256 + a.toNat * 16384)
  | .exp2 q d a => some (32, 201326737 + q.toNat * 2 + d.toNat * 256 + a.toNat * 16384)
  | .log2 q d a => some (32, 268435601 + q.toNat * 2 + d.toNat * 256 + a.toNat * 16384)
  | .tanh q d a => some (32, 335544465 + q.toNat * 2 + d.toNat * 256 + a.toNat * 16384)
  | .sin q d a => some (32, 402653329 + q.toNat * 2 + d.toNat * 256 + a.toNat * 16384)
  | .cos q d a => some (32, 469762193 + q.toNat * 2 + d.toNat * 256 + a.toNat * 16384)
  | .faddE q d a b => some (32, 149 + q.toNat * 2 + d.toNat * 256 + a.toNat * 16384 + b.toNat * 1048576)
  | .fmulE q d a b => some (32, 67109013 + q.toNat * 2 + d.toNat * 256 + a.toNat * 16384 + b.toNat * 1048576)
  | .ffmaE q d a b => some (32, 134217877 + q.toNat * 2 + d.toNat * 256 + a.toNat * 16384 + b.toNat * 1048576)
  | .eadd q d a b => some (32, 201326741 + q.toNat * 2 + d.toNat * 256 + a.toNat * 16384 + b.toNat * 1048576)
  | .efrom q d a => some (32, 268435605 + q.toNat * 2 + d.toNat * 256 + a.toNat * 16384)
  | .ernd q d a t => some (32, 335544469 + q.toNat * 2 + d.toNat * 256 + a.toNat * 16384 + t.toNat * 1048576)
  | .eget q d a => some (32, 402653333 + q.toNat * 2 + d.toNat * 512 + a.toNat * 16384)
  | .eset q d a => some (32, 469762197 + q.toNat * 2 + d.toNat * 256 + a.toNat * 32768)
  | .dot4 q d a b => some (32, 153 + q.toNat * 2 + d.toNat * 256 + a.toNat * 16384 + b.toNat * 1048576)
  | .dot4u q d a b => some (32, 67109017 + q.toNat * 2 + d.toNat * 256 + a.toNat * 16384 + b.toNat * 1048576)
  | .dot4su q d a b => some (32, 134217881 + q.toNat * 2 + d.toNat * 256 + a.toNat * 16384 + b.toNat * 1048576)
  | .dot2h q d a b => some (32, 201326745 + q.toNat * 2 + d.toNat * 256 + a.toNat * 16384 + b.toNat * 1048576)
  | .bpack q d a b f => some (32, 157 + q.toNat * 2 + d.toNat * 256 + a.toNat * 16384 + b.toNat * 2097152 + f.toNat * 67108864)
  | .bpackFx q d a b f => some (32, 268435613 + q.toNat * 2 + d.toNat * 256 + a.toNat * 16384 + b.toNat * 2097152 + f.toNat * 67108864)
  | .bunpk q d a f => some (32, 536871069 + q.toNat * 2 + d.toNat * 256 + a.toNat * 16384 + f.toNat * 67108864)
  | .rndm q d a b w => some (32, 161 + q.toNat * 2 + d.toNat * 256 + a.toNat * 32768 + b.toNat * 1048576 + w.toNat * 67108864)
  | .rndm4 q d a b => some (32, 268435617 + q.toNat * 2 + d.toNat * 1024 + a.toNat * 32768 + b.toNat * 1048576)
  | .voteBal q d a => some (32, 165 + q.toNat * 2 + d.toNat * 256 + a.toNat * 16384)
  | .voteAny q d a => some (32, 67109029 + q.toNat * 2 + d.toNat * 256 + a.toNat * 16384)
  | .voteAll q d a => some (32, 134217893 + q.toNat * 2 + d.toNat * 256 + a.toNat * 16384)
  | .shflIdx q d a b => some (32, 268435621 + q.toNat * 2 + d.toNat * 256 + a.toNat * 16384 + b.toNat * 1048576)
  | .shflUp q d a b => some (32, 335544485 + q.toNat * 2 + d.toNat * 256 + a.toNat * 16384 + b.toNat * 1048576)
  | .shflDn q d a b => some (32, 402653349 + q.toNat * 2 + d.toNat * 256 + a.toNat * 16384 + b.toNat * 1048576)
  | .shflXor q d a b => some (32, 469762213 + q.toNat * 2 + d.toNat * 256 + a.toNat * 16384 + b.toNat * 1048576)
  | .cred q d a o => some (32, 169 + q.toNat * 2 + d.toNat * 256 + a.toNat * 16384 + o.toNat * 67108864)
  | .cscan q d a o => some (32, 1073741993 + q.toNat * 2 + d.toNat * 256 + a.toNat * 16384 + o.toNat * 67108864)
  | .cscanx q d a o => some (32, 2147483817 + q.toNat * 2 + d.toNat * 256 + a.toNat * 16384 + o.toNat * 67108864)
  | .ld q d p sx z im => some (32, 173 + q.toNat * 2 + d.toNat * 256 + p.toNat * 16384 + sx.toNat * 524288 + z.toNat * 1048576 + im.toNat * 8388608)
  | .st q d p z im => some (32, 177 + q.toNat * 2 + d.toNat * 256 + p.toNat * 16384 + z.toNat * 1048576 + im.toNat * 8388608)
  | .lds q d p sx => some (32, 181 + q.toNat * 2 + d.toNat * 256 + p.toNat * 16384 + sx.toNat * 33554432)
  | .ldsD q d p sx => some (32, 268435637 + q.toNat * 2 + d.toNat * 512 + p.toNat * 16384 + sx.toNat * 33554432)
  | .sts q d p sx => some (32, 185 + q.toNat * 2 + d.toNat * 256 + p.toNat * 16384 + sx.toNat * 33554432)
  | .stsD q d p sx => some (32, 268435641 + q.toNat * 2 + d.toNat * 512 + p.toNat * 16384 + sx.toNat * 33554432)
  | .acqp q d p b => some (32, 100663485 + q.toNat * 2 + d.toNat * 256 + p.toNat * 16384 + b.toNat * 524288)
  | .acqpAll q d p => some (32, 369098941 + q.toNat * 2 + d.toNat * 256 + p.toNat * 16384)
  | .atom q d p b sx o => some (32, 193 + q.toNat * 2 + d.toNat * 256 + p.toNat * 16384 + b.toNat * 524288 + sx.toNat * 33554432 + o.toNat * 268435456)
  | .atomt q d p b sx => some (32, 197 + q.toNat * 2 + d.toNat * 256 + p.toNat * 16384 + b.toNat * 1048576 + sx.toNat * 33554432)
  | .red q p b sx o => some (32, 201 + q.toNat * 2 + p.toNat * 16384 + b.toNat * 524288 + sx.toNat * 33554432 + o.toNat * 268435456)
  | .waita q d p b sx c => some (32, 205 + q.toNat * 2 + d.toNat * 256 + p.toNat * 16384 + b.toNat * 524288 + sx.toNat * 33554432 + c.toNat * 268435456)
  | .barArrive q n a => some (32, 209 + q.toNat * 2 + n.toNat * 256 + a.toNat * 16384)
  | .barWait q n a => some (32, 67109073 + q.toNat * 2 + n.toNat * 256 + a.toNat * 16384)
  | .barSync q n a => some (32, 134217937 + q.toNat * 2 + n.toNat * 256 + a.toNat * 16384)
  | .waitc q c t sx r u => some (32, 213 + q.toNat * 2 + c.toNat * 256 + t.toNat * 1024 + sx.toNat * 65536 + r.toNat * 524288 + u.toNat * 1048576)
  | .emit q a b => some (32, 217 + q.toNat * 2 + a.toNat * 16384 + b.toNat * 1048576)
  | .cpy q d a => some (32, 221 + q.toNat * 2 + d.toNat * 256 + a.toNat * 16384)
  | .cpys q d a b => some (32, 67109085 + q.toNat * 2 + d.toNat * 256 + a.toNat * 16384 + b.toNat * 1048576)
  | .slinv q a => some (32, 134217949 + q.toNat * 2 + a.toNat * 16384)
  | .mxc q d a b => some (32, 225 + q.toNat * 2 + d.toNat * 256 + a.toNat * 16384 + b.toNat * 1048576)
  | .mxr q d a t => some (32, 229 + q.toNat * 2 + d.toNat * 256 + a.toNat * 16384 + t.toNat * 1048576)
  | .mxrn q d a t => some (32, 67109093 + q.toNat * 2 + d.toNat * 256 + a.toNat * 16384 + t.toNat * 1048576)
  | .mxw q d a t => some (32, 134217957 + q.toNat * 2 + d.toNat * 256 + a.toNat * 16384 + t.toNat * 1048576)
  | .rtake q d r => some (32, 233 + q.toNat * 2 + d.toNat * 256 + r.toNat * 16384)
  | .rtakeRes q d r => some (32, 67109097 + q.toNat * 2 + d.toNat * 256 + r.toNat * 16384)
  | .rgivePub q r b => some (32, 134217961 + q.toNat * 2 + r.toNat * 16384 + b.toNat * 1048576)
  | .rgiveRel q r b => some (32, 201326825 + q.toNat * 2 + r.toNat * 16384 + b.toNat * 1048576)
  | .bind q a => some (32, 237 + q.toNat * 2 + a.toNat * 16384)
  | .bindWb q a => some (32, 67109101 + q.toNat * 2 + a.toNat * 16384)
  | .grun q a b => some (32, 134217965 + q.toNat * 2 + a.toNat * 16384 + b.toNat * 1048576)
  | .gstop q a => some (32, 201326829 + q.toNat * 2 + a.toNat * 16384)
  | .gstat q d a => some (32, 268435693 + q.toNat * 2 + d.toNat * 512 + a.toNat * 16384)
  | .pendingResultReturn _ _ _ => none
  | .seedbedRelease _ => none
  | .displacement _ => none
  | .recordCommit _ => none
  | .castEnd _ => none
  | .bundleRegroup _ => none
  | .fairnessTimerExpiry _ _ => none
  | .meetRejoin _ _ => none
  | .participantSetFixed _ _ => none
  | .allZeroWriteback _ _ => none
  | .memoryOpRetire _ _ _ => none
  | .promotionRequest _ => none
  | .waitaWake _ _ => none
  | .barrierComplete _ _ => none
  | .reelReserve _ _ => none
  | .reelTake _ _ => none
  | .copyStart _ => none
  | .copyRetire _ _ => none
  | .matrixCommandStart _ _ => none
  | .matrixCommandRetire _ _ => none
  | .binding _ _ => none
  | .firingStart _ _ => none
  | .eosFiring _ _ => none
  | .rebinding _ _ => none
  | .graphFailureStop _ _ => none
  | .quantumExpiry _ => none
  | .deferredListApply _ => none
  | .sceneAccept _ => none
  | .castPlacement _ => none
  | .endOfLaunch _ _ => none
  | .completionRecordWrite _ _ => none
  | .leaseGrant _ => none
  | .wdog _ => none
  | .sliceEnd _ _ => none
  | .softSaveComplete _ _ => none
  | .hardPreemption _ _ => none
  | .contextRestore _ _ => none
  | .contextRecall _ _ => none
  | .faultRecordWrite => none
  | .frespReplay _ => none
  | .frespFail _ => none
  | .assign _ _ _ => none
  | .share _ _ => none
  | .free _ => none
  | .scrubComplete => none
  | .query _ => none
  | .xinvPage _ _ => none
  | .xinvAllotment _ => none
  | .xinvComplete => none
  | .migdst _ => none
  | .migrationComplete => none
  | .kgen _ => none
  | .uncorrectableError _ => none
  | .correctedError _ _ _ => none
  | .patrolScrub _ _ => none
  | .create _ => none
  | .update _ => none
  | .destroy _ => none
  | .rtsync => none
  | .crepair _ => none
  | .registerWrite _ _ => none
  | .rdmaWrite _ _ _ _ => none
  | .rdmaRead _ _ _ _ => none
  | .atomicFetchAndAdd _ _ _ _ => none
  | .atomicCompareAndSwap _ _ _ _ _ => none
  | .invalidRequestNak _ => none
  | .ecnMarkedPacket _ => none
  | .remoteRequest _ => none
  | .flitReceive _ _ _ => none
  | .laneRetire _ _ => none
  | .laneFailure _ _ => none
  | .arbitrationWindow _ => none
  | .thermalSample _ _ _ => none
  | .lifetimeRecordSave => none
  | .sensor _ => none
  | .setop _ _ => none
  | .pcap _ => none
  | .evread _ => none
  | .liferead _ => none
  | .fwwrite _ _ _ => none
  | .fwseal _ => none
  | .fwcommit _ => none
  | .attest _ _ => none
  | .atread _ => none
  | .reset => none
  | .i3cDynamicAddress _ => none
  | .powerOn => none
  | .ethernetOpen => none
  | .pageOut _ _ => none
  | .laneRetrainComplete _ => none
  | .powerLoss => none
  | .orderlyShutdown => none
  | .priorityFlowControlFrame _ _ _ => none

/-- The length in bytes that bit 0 of the first halfword gives (R120). -/
def lengthOf (w : Nat) : Nat := if num w 0 1 = 1 then 4 else 2

/-- The instruction whose bits are `w`, first halfword lowest, by the length that bit 0 gives (R120). -/
def decodeNat (w : Nat) : Except DecodeError Instr :=
  if num w 0 1 = 1 then decodeWide (w % 2 ^ 32) else decodeNarrow (w % 2 ^ 16)

/-- The little-endian number of a list of bytes (R5). -/
def bytesNat : List Byte → Nat
  | [] => 0
  | b :: bs => b.toNat + 256 * bytesNat bs

/-- Reads one instruction from the front of a byte stream and gives the rest (R120). -/
def decode (bs : List Byte) : Except DecodeError (Instr × List Byte) :=
  if bs.length < 2 then .error .truncated
  else
    let n := lengthOf (bytesNat (bs.take 2))
    if bs.length < n then .error .truncated
    else (decodeNat (bytesNat (bs.take n))).map (fun i => (i, bs.drop n))

/-- The `n` bytes of a number, lowest first (R5). -/
def natBytes : Nat → Nat → List Byte
  | 0, _ => []
  | n + 1, v => BitVec.ofNat 8 v :: natBytes n (v / 256)

/-- The instruction that the decoder reads from an instruction whose bits are `w`, numbered as
spec/opcode_table.json numbers them; bits above `nbits` are 0. -/
def decodeTableWord (nbits w : Nat) : Option Instr :=
  match decode (natBytes 4 (w % 2 ^ nbits)) with
  | .ok (i, _) => some i
  | .error _ => none

/-- The length of an instruction in bytes (R120): 2 for the sixteen narrow forms, 4 for the wide ones, 0 for
an event row. -/
def Instr.bytes (i : Instr) : Nat :=
  match encode i with
  | some (nb, _) => nb / 8
  | none => 0

end Sys2Proof
end

