-- ==== Sys2Proof/Config.lean ====
section
/-!
DEFINITION. The values the spec leaves open: each is a constant with no body, so that no proof can see
what it is, and a claim is true whatever it is.
-/

namespace Sys2Proof.Config

/-- The special-function unit's raw answer for function code `f` and input `x` (R118): one input gives
one output on every plot; which of the values inside the stated bound it is, the spec leaves open. The
meaning keeps the bound (log 20, DESIGN CHOICE). -/
opaque sfuRaw : Nat → Word → Word

/-- The n-th open value that an instruction takes where the spec states no value (log 3, DESIGN CHOICE). -/
opaque freeValue : Nat → Nat

/-- Byte `i` of the image of cast number `c` saved with free-value number `n`: the contents of an image are in the device's
own format (R391). -/
opaque imageByte : Nat → Nat → Nat → Byte

/-- The key that the n-th KGEN draws from the I/O die's random source (R412). -/
opaque freshKey : Nat → BitVec 512

/-- SHA3-512 of a byte string (R450, R453): an uninterpreted hash; no rule of the spec rests on its value. -/
opaque sha3 : List Byte → BitVec 512

/-- Whether an ML-DSA-87 signature is valid for a public key over a digest (R450). -/
opaque mldsaValid : List Byte → List Byte → BitVec 512 → Bool

/-- The ML-DSA-87 signature over a message by the key with a seed (R453), as bytes. -/
opaque mldsaSign : BitVec 256 → List Byte → List Byte

/-- The ML-DSA-87 public key of a seed (R453), as bytes. -/
opaque mldsaPublic : BitVec 256 → List Byte

/-- The 256-bit unique device secret in fuses (R453). -/
opaque deviceSecret : BitVec 256

/-- The DeviceID certificate, issued at manufacture and held in flash (R441, R453). -/
opaque deviceIdCert : List Byte

/-- The key hash fused at manufacture (R450). -/
opaque fusedKeyHash : BitVec 512

/-- The HBM row address of a line, by line number: how rows interleave is the memory device's (R442, R446). -/
opaque hbmRow : Nat → Nat

/-- The payload of a flit that carries one message (R433): bytes 8 to 247, for the message's kind (0 a request to read, 1 a request to
write, 2 data, 3 an acknowledgement, 4 a refusal), its address and its data. The spec gives messages no layout (log 49, DEDUCED). -/
opaque flitPayload : Nat → DWord → List Byte → BitVec 1920

/-- The forward error correction of a flit's bytes 0 to 247 (R433): the spec names no code. -/
opaque flitFec : BitVec 1984 → BitVec 64

end Sys2Proof.Config
end

