-- ==== Sys2Proof/Machine/State.lean ====
section
/-!
DEFINITION. The machine's state as plain data: threads, crews, casts, plots, scenes, graphs, allotments,
the memory system, the fabric, the host link and the management island; the fault codes; the ways a step
can stop; and the state that bring-up hands to the resident operating system (R10, R456 stage 6).
-/

namespace Sys2Proof.Machine

open Sys2Proof

/-! ### Threads (spec/01 R14) -/

/-- A register that a result is written to (R50, R207). -/
inductive Dst where
  | x (r : BitVec 6)
  | k (r : BitVec 3)
  deriving DecidableEq, Repr

/-- Where an in-flight result comes from. -/
inductive Source where
  /-- the values stand in the flight -/
  | value
  /-- the access waits in the operand log (R418) -/
  | held
  /-- MXR (R275), issued as number `seq` of the script's order: a cell, after the named commands have retired -/
  | mxr (seq cell : Nat) (after : List Nat)
  /-- MXRN (R276), issued as number `seq`: a cell, read at the return -/
  | mxrn (seq cell : Nat)
  deriving DecidableEq, Repr

/-- A result in flight (R50): destinations with their values, the flags that the return sets (R108), and
the counted operation that completes with it (R212). -/
structure Flight where
  dst : List (Dst × Word)
  flags : Word := 0
  /-- the collective whose result this is: its flags are set once for the crew, with the first return (R204) -/
  grp : Option Nat := none
  op : Option Nat := none
  src : Source := .value
  deriving DecidableEq, Repr

/-- One storage location, after path and translation: a byte of home memory by physical address, of a
commons bank, of a cast's scratch or operand region, or of another device (R58, R75, R82). -/
inductive Loc where
  | home (pa : Nat)
  | bank (a : Nat)
  | scr (c off : Nat)
  | opd (c off : Nat)
  | peer (a : Nat)
  deriving DecidableEq, Repr

/-- A WAITA that waits (R237): its operands and its ceiling (R425), read at issue, and whether a wake event (R238) or a
spurious event (R239) has reached it. -/
structure Waiter where
  addr : DWord
  loc : Loc
  scope : BitVec 3
  ceil : Nat
  cond : BitVec 4
  cmp : Word
  d : BitVec 6
  woken : Bool := false
  spurious : Bool := false
  /-- the synchronisation engine that held the registration has lost its state (R454) -/
  lost : Bool := false
  deriving DecidableEq, Repr

/-- A participant set as it was fixed (R36, R203): the slots in increasing lane order, and MODE, OUTL and OUTLH as
read then. -/
structure FixedSet where
  parts : List Nat
  mode : Word
  outl : Word
  outlh : Word
  deriving DecidableEq, Repr

/-- A thread that has arrived at a collective (R203): the instruction, its operands and its ceiling (R425) at arrival. -/
structure Arrival where
  instr : Instr
  vals : List Word
  ceil : Nat
  /-- the participant set is fixed, and the operation still waits: for an access, for room, or for an earlier cast
  (R200, R268, R349) -/
  fixed : Option FixedSet := none
  deriving DecidableEq, Repr

/-- What a BLOCKED thread waits for (R40). -/
inductive Wait where
  | waita (w : Waiter)
  | barrier (b gen : Nat) (cnt : Word) (isWait : Bool)
  /-- a WAITC, with the ceiling at its issue (R425) -/
  | waitc (ceil : Nat)
  /-- RTAKE (false) or RTAKE.RES (true) of a reel, with its destination (R261) -/
  | rtake (res : Bool) (r : Nat) (d : BitVec 5)
  | emit
  | collective (a : Arrival)
  /-- a BECOME whose seedbed write, or an access, waits in the operand log (R418, R466) -/
  | xlate
  /-- an issue wait: a full counter, a full operand log, a full sequencer window, a slate (R137, R253) -/
  | issue
  /-- an access that must follow one that is not performed yet (R418) -/
  | order
  deriving DecidableEq, Repr

/-- The states of a live thread (R40); DEFERRED threads are seedbed records, SAVED ones lie in a saved
cast, ENDED ones are gone. -/
inductive TState where
  | ready | cueWait | held
  | blocked (w : Wait)
  deriving DecidableEq, Repr

/-- A store byte that the thread's READONLY loads do not observe (R65): its number among the state's `owns`, and whether a
release-side WAITC has followed the store. -/
structure OwnRef where
  n : Nat
  rel : Bool
  deriving DecidableEq, Repr

/-- A byte that a thread of a cast has stored to home memory, and that its READONLY loads do not observe (R65). -/
structure OwnByte where
  n : Nat
  cid : Nat
  pa : Nat
  /-- the newest byte at the home that is not this store -/
  old : Byte
  /-- the plot whose cache holds the store, where it is not written back -/
  cached : Option Nat
  deriving DecidableEq, Repr

/-- The state a thread owns (R14). -/
structure Thread where
  pc : DWord
  /-- x0 to x63; position 0 is never read -/
  x : Vector Word 64
  /-- k0 to k7; position 0 is never read -/
  k : Vector Bool 8
  e : Vector DWord 4
  lc : Vector Word 3
  /-- body lengths in halfwords of the LOOPs that opened the levels (R175). (Log 70, DEDUCED.) -/
  ll : Vector (BitVec 12) 3
  meet : Word
  /-- LKEY0:LKEY1:LKEY2:LKEY3, level 0 in the most significant 16 bits (R17) -/
  key : BitVec 128
  /-- LDEP, 1 to 8 -/
  dep : BitVec 4
  cmask : Word
  retired : DWord
  /-- the high word that the last MFS of RETIRED latched (R139) -/
  retLatch : Word
  st : TState
  /-- registers made pending since the last cue point (R50, R52) -/
  pend : List Dst
  flights : List Flight
  /-- plot cycles counted since the last issue (R47) -/
  timer : Nat
  /-- the thread has left HELD at its PC and issues there without being held again (R48) -/
  pass : Bool
  /-- threads, by key and depth, that keep this one no longer in HELD (R48) -/
  met : List (BitVec 128 × BitVec 4)
  own : List OwnRef
  /-- the ceiling under which its WAITC has issued, which now tries again (R425) -/
  wceil : Option Nat := none
  deriving DecidableEq, Repr

/-! ### Crews and casts -/

/-- An outstanding counted operation (R212). -/
structure OutOp where
  id : Nat
  cls : OpClass
  slot : Nat
  done : Bool
  deriving DecidableEq, Repr

/-- What a crew owns (R34, R135, R236); the counters of R137 are the counts of `ops`. -/
structure Crew where
  mode : Word := 0
  flags : Word := 0
  outl : Word := 0
  outlh : Word := 0
  key0 : Word := 0
  key1 : Word := 0
  clampn : BitVec 16 := 0
  ops : List OutOp := []
  deriving DecidableEq, Repr

/-- A live seedbed record (R25), as the device wrote it to memory, with what the device keeps beside it of a displaced
thread: its latched RETIREDH and the registers that raise PEND until a cue point (R31: every register is given back
unchanged). (Log 71, DEDUCED.) -/
structure SeedRec where
  pos : Nat
  x : Vector Word 64
  e : Vector DWord 4
  key : BitVec 128
  pc : DWord
  lc : Vector Word 3
  ll : Vector (BitVec 12) 3
  meet : Word
  cmask : Word
  k : Vector Bool 8
  depth : Nat
  dreg : BitVec 6
  kind : Nat
  olo : Nat
  ohi : Nat
  ret : DWord
  latch : Word
  pend : List Dst
  own : List OwnRef
  deriving DecidableEq, Repr

/-- An emitted record with its sort key (R29). -/
structure EmitRec where
  key : BitVec 128
  dep : BitVec 4
  ord : Nat
  w0 : Word
  w1 : Word
  slot : Nat
  pc : DWord
  /-- it takes no entry of the emit buffer: its own commit write is held (R30, R466) -/
  direct : Bool := false
  deriving DecidableEq, Repr

/-- A named barrier (R242). -/
structure Barrier where
  cnt : Word := 0
  arr : Nat := 0
  gen : Nat := 0
  /-- accesses that the arriving threads had issued before, and that were not performed at the arrival -/
  by_ : List Nat := []
  /-- cell accesses that the arriving threads had issued before, and that had not taken effect at the arrival, by their issue numbers -/
  cells : List Nat := []
  deriving DecidableEq, Repr

/-- A deferred floating-point update (R348, R350). -/
structure Deferred where
  key : BitVec 128
  dep : BitVec 4
  ord : Nat
  idx : Nat
  addr : DWord
  scope : BitVec 3
  bf : Bool
  /-- an element of a copy with ACC: it wakes no waiter (R238, R256) -/
  acc : Bool := false
  val : Word
  deriving DecidableEq, Repr

/-- An enabled reel (R78, R79): its word's fields and its state. -/
structure Reel where
  /-- true: operand region -/
  space : Bool
  /-- byte offset of entry 0 -/
  base : Nat
  /-- entry size in bytes -/
  esz : Nat
  /-- number of entries -/
  nent : Nat
  free : Nat
  full : Nat
  pix : Nat
  cix : Nat
  /-- reserved entries in reservation order, with their publish done or not -/
  resq : List (Nat × Bool)
  /-- taken entries in take order, with their release done or not -/
  takq : List (Nat × Bool)
  /-- entries that threads hold: entry, and true for taken, false for reserved (R261) -/
  held : List (Nat × Bool)
  deriving DecidableEq, Repr

/-- A copy in the plot's copy engine (R253, R258). -/
structure Copy where
  /-- its place in the plot's issue order -/
  seq : Nat
  cid : Nat
  slot : Nat
  op : Nat
  pc : DWord
  /-- MODE as read at issue (R254) -/
  mode : Word
  key : BitVec 128
  dep : BitVec 4
  ord : Nat
  src : BitVec 512
  dst : BitVec 512
  srcA : DWord
  dstA : DWord
  cval : Option Word
  entry : Option Nat
  /-- the payload has begun: it is in progress, also where a translation fault holds it (R259) -/
  begun : Bool
  /-- every payload byte is performed -/
  started : Bool
  deriving DecidableEq, Repr

/-- The states of a cast that the model keeps a record of (R42); QUEUED, SAVED and ENDED casts are scene
counts and saved contexts. -/
inductive CastState where
  | resident | draining | failed
  /-- waits, without slots, banks, tiles or reels, for its deferred list (R350) -/
  | listWait
  | ended
  deriving DecidableEq, Repr

/-- A graph firing's place (R333): graph number, period, ordinal, stage; `eos` for R337. -/
structure FireRef where
  g : Nat
  k : Nat
  j : Nat
  stage : Nat
  eos : Bool
  deriving DecidableEq, Repr

/-- A cast (R37). -/
structure Cast where
  al : Nat
  qn : Nat
  /-- number of its scene in the state's scene list -/
  scene : Nat
  fire : Option FireRef
  ix : Nat
  plot : Nat
  st : CastState
  /-- the scene descriptor as accepted (R371) -/
  desc : BitVec 1024
  /-- parameter block address that a1 receives (R15, R335) -/
  param : DWord
  threads : List (Nat × Thread)
  crews : List Crew
  seeds : List SeedRec
  ebuf : List EmitRec
  accepted : Nat
  committed : Nat
  bars : Vector Barrier 16
  scr : List Host.Cell
  opd : List Host.Cell
  scrBanks : List Nat
  opdBanks : List Nat
  tiles : List Nat
  reels : Vector (Option Reel) 4
  clk : DWord
  digest : DWord
  steps : List (DWord × Nat)
  deferred : List Deferred
  /-- plot-cycles left of its lease, and the buckets that the lease was charged to (R378) -/
  lease : Nat
  leased : List DWord
  wdog : Nat
  /-- the thread chosen for displacement (R31) -/
  displaced : Option Nat
  nextOp : Nat
  /-- a WLOAD has been appended on the plot since placement or restore (R266) -/
  wload : Bool
  /-- one of its crews has retired an instruction since the last plot cycle (R386) -/
  active : Bool
  failCode : BitVec 8
  /-- copies that a hard save has withdrawn, in issue order (R389) -/
  withdrawn : List Copy
  /-- an uncorrectable error lies in a word of its storage that it has not read since (R421) -/
  bad : Bool
  deriving DecidableEq, Repr

/-! ### Plots -/

/-- A line that a plot's cache holds (R216). -/
structure Line where
  n : Nat
  data : BitVec 1024
  /-- the bytes stored since the last write-back; none: the line is clean -/
  dirty : BitVec 128
  stamp : Word
  deriving DecidableEq, Repr

/-- The translation caches that serve a plot (R402): its own, its copy engine's, its matrix sequencer's, and a synchronisation
engine's, which reads for waiters; and the migration engine's own. -/
inductive Eng where
  | plot | copy | mx | sync | mig
  deriving DecidableEq, Repr

/-- A cached translation (R402). -/
structure Tlb where
  eng : Eng
  al : Nat
  vpn : Nat
  leaf : DWord
  /-- physical address of the leaf entry -/
  ea : Nat
  block : Bool
  deriving DecidableEq, Repr

/-- What an atomic update does: op4 of R231, or ATOMT's threshold (R234). -/
inductive Update where
  | op (o : Nat) (x y : Word)
  | thresh (x limit : Word)
  deriving DecidableEq, Repr

/-- What an access that is not performed yet does (R418): its kind, destination and data, read at issue. -/
inductive HeldKind where
  | load (dst : List Dst) (sx : Bool)
  | store (v : Nat)
  | red (op : BitVec 4) (v : Word)
  | lds (dst : List Dst)
  | sts (v : Nat)
  /-- ATOM or ATOMT, with its destination -/
  | atom (d : BitVec 6) (u : Update)
  /-- a WAITA's first read -/
  | waita (cond : BitVec 4) (cmp : Word) (d : BitVec 6)
  /-- an ACQP whose address has not come through, with its targets (R228) -/
  | acqp (targets : List Nat) (d : BitVec 6)
  /-- an ACQP that waits for the completions of a request (R228) -/
  | acqpGo (n : Nat) (d : BitVec 6)
  /-- a commit write: committing for the cast stops until the replay (R466) -/
  | commit
  /-- a release's or a displacement's seedbed access (R466) -/
  | seed
  /-- a payload access of the copy with this operation number (R259) -/
  | copy (op : Nat)
  /-- an access of the matrix command with this number (R273) -/
  | cmd (id : Nat)
  /-- the thread waits at its instruction, which runs again from its start -/
  | again
  /-- no log entry: the thread waits for its own instruction fetch, or for a page under migration (R414, R418) -/
  | wait
  deriving DecidableEq, Repr

/-- An access that has issued and is not performed: an entry of the operand log (R418), or one that the device performs later
(R214). The list of a plot stands in issue order. -/
structure Held where
  id : Nat
  cid : Nat
  slot : Nat
  /-- the thread, by its key and depth -/
  key : BitVec 128
  dep : BitVec 4
  pc : DWord
  va : DWord
  size : Nat
  scope : BitVec 3
  /-- the scope ceiling at the issue (R425) -/
  ceil : Nat
  kind : HeldKind
  acck : Acck
  op : Option Nat
  /-- not in the operand log: the device has only put it off (R214) -/
  late : Bool
  /-- the combined step of ordered atomics that it is part of (R347): its entries are performed together -/
  set : Option Nat := none
  deriving DecidableEq, Repr

/-- A matrix command in the plot's script (R265, R268). -/
structure MxCmd where
  /-- its place in the order of appends, and of MXR, MXRN and MXW issues -/
  id : Nat
  cid : Nat
  slot : Nat
  crew : Nat
  op : Nat
  pc : DWord
  key : BitVec 128
  dep : BitVec 4
  block : DWord
  raw : BitVec 512
  opnd : Word
  pitch : Word
  /-- MODE as read when the participant set was fixed (R106) -/
  mode : Word
  /-- rows captured from registers (ASRC = REG) -/
  rows : List Nat
  /-- the commands that its predecessor ids name (R270) -/
  preds : List Nat
  started : Bool
  /-- reel entry taken (R269) -/
  entry : Option Nat
  /-- per cell, how far MXRN has seen the command's sum sequence (R276) -/
  seen : List (Nat × Nat)
  deriving DecidableEq, Repr

/-- An MXW that has not taken effect (R275). -/
structure PendMxw where
  seq : Nat
  cid : Nat
  /-- the thread that issued it, by its key and depth -/
  key : BitVec 128
  dep : BitVec 4
  cell : Nat
  val : Word
  after : List Nat
  deriving DecidableEq, Repr

/-- The ORDERED turn of a plot (R342, R343, R355). -/
structure TurnSt where
  /-- cast and crew -/
  holder : Option (Nat × Nat) := none
  /-- logical index of the last holder -/
  last : Option Nat := none
  count : Nat := 0
  /-- slots that have still to perform the current step -/
  members : List Nat := []
  stepPc : DWord := 0
  /-- a switch point occurred in the current step -/
  switch : Bool := false
  /-- the cue and pending-result rules of every member of the step are met (R343) -/
  gate : Bool := false
  deriving DecidableEq, Repr

/-- A promotion request that has arrived at a plot (R228, R229). -/
structure PromReq where
  n : Nat
  /-- allotment that asks -/
  al : Nat
  cut : Word
  deriving DecidableEq, Repr

/-- One plot. -/
structure Plot where
  rseq : Word := 0
  proms : Word := 0
  mxseq : Word := 0
  log : List Word := []
  cache : List Line := []
  roc : List Line := []
  ic : List Line := []
  tlb : List Tlb := []
  roles : Vector (BitVec 2) 8 := Vector.replicate 8 0
  slates : List (DWord × BitVec 512) := []
  copies : List Copy := []
  script : List MxCmd := []
  /-- the most recent command with each CID (R270) -/
  cids : List (Nat × Nat) := []
  /-- format of the last WLOAD appended (R266) -/
  wlast : BitVec 8 := 0
  mxws : List PendMxw := []
  wfmt : BitVec 8 := 0
  /-- the latched weight rows, each as one little-endian number -/
  wrows : List Nat := []
  tiles : List (Nat × Word) := []
  /-- accesses that have issued and are not performed, in issue order: the operand log (R418) and the late ones (R214) -/
  oplog : List Held := []
  turn : TurnSt := {}
  bundles : List (List (Nat × Nat)) := []
  /-- the threads still to issue of the bundle that issues (R46) -/
  issuing : List (Nat × Nat) := []
  /-- casts in round-robin order (R46) -/
  rr : List Nat := []
  preqs : List PromReq := []
  /-- resident contexts: allotment and queue (R467) -/
  ctx : List (Nat × Nat) := []
  deriving DecidableEq, Repr

/-! ### Scenes, queues, graphs and allotments -/

/-- Where an accepted scene stands (R380 to R383). -/
inductive ScenePhase where
  | running | settled
  deriving DecidableEq, Repr

/-- An accepted scene (R371, R377, R383). -/
structure Scene where
  al : Nat
  qn : Nat
  subn : Word
  acc : Nat
  desc : BitVec 1024
  reason : Nat
  nextC : Nat
  nEnd : Nat
  /-- failed and not-started casts: index and code, in increasing index (R384) -/
  fails : List (Nat × BitVec 8)
  stopped : Bool
  prio : Nat
  fdom : Nat
  trapr : Bool
  wdlim : Nat
  drain : Nat
  slice : Nat
  /-- addresses of the nodes of its chain that have budget fields of their own, from its node up (R377) -/
  path : List DWord
  digests : List (Nat × DWord)
  rerun : Bool
  phase : ScenePhase
  /-- order of settling, which is the order of the completion records (R383) -/
  setOrd : Nat
  /-- the graph firing that this scene is the launch of (R333) -/
  fire : Option FireRef
  deriving DecidableEq, Repr

/-- The dispatcher's state of one queue (R370, R371, R387). -/
structure QState where
  head : Word := 0
  cqtail : Word := 0
  /-- 0 idle, 1 resident, 2 saved, 3 paged out, 4 restoring -/
  ctxst : Nat := 0
  err : Bool := false
  /-- stopped by ERR until the next write of TAIL after the clearing (R371) -/
  stall : Bool := false
  /-- ERR was set because of CQLOG (R371) -/
  errCq : Bool := false
  /-- TAIL or RESV has been written since the page-out (R393) -/
  recalled : Bool := false
  /-- I/O die cycle at which the current slice began -/
  since : Nat := 0
  /-- I/O die cycle at which the context last became a candidate, or was last restored (R387) -/
  candAt : Nat := 0
  /-- counted I/O die cycles of the drain in progress (R388), and its limit -/
  draining : Option Nat := none
  drainLim : Nat := 0
  /-- a hard save has begun: no thread of the context issues (R389) -/
  saving : Bool := false
  deriving DecidableEq, Repr

/-- The dispatcher's states of a graph (R332). -/
inductive GState where
  | unbound | binding | bound | running | stopping | rebinding | failed
  deriving DecidableEq, Repr

/-- A port's share of a channel's records: channel, first record, count (R335). -/
structure PortRange where
  ch : Nat
  first : Nat
  cnt : Nat
  deriving DecidableEq, Repr

/-- A firing that has started (R333), kept while its end or its promotion still matters. -/
structure Firing where
  k : Nat
  j : Nat
  stage : Nat
  eos : Bool
  /-- its plot, once placed -/
  plot : Option Nat
  ended : Bool
  ins : List PortRange
  outs : List PortRange
  deriving DecidableEq, Repr

/-- A channel of a bound graph (R326): the binding's copy and the record counters (R333, R335). -/
structure Chan where
  src : Nat
  dst : Nat
  p : Nat
  c : Nat
  init : Nat
  rsz : Nat
  buf : DWord
  cap : Nat
  req : Nat
  /-- records claimed by started firings of DST -/
  claimed : Nat
  /-- records of started firings of SRC, INIT included -/
  made : Nat
  /-- a run has used BUF and CAP since the binding (R334) -/
  used : Bool
  deriving DecidableEq, Repr

/-- A stage of a bound graph (R325), with its scene descriptor as the binding copied it (R329). -/
structure Stage where
  desc : BitVec 1024
  aff : Nat
  pin : Bool
  q : Nat
  /-- the plot of its first firing, where PIN is set -/
  pinned : Option Nat
  deriving DecidableEq, Repr

/-- A graph (R324, R329, R332). -/
structure Graph where
  addr : Nat
  st : GState
  perdone : Word := 0
  runw : Word := 0
  ctab : Nat := 0
  stages : List Stage := []
  chans : List Chan := []
  table : List (Nat × Nat) := []
  /-- next firing to start: period and ordinal -/
  k : Nat := 0
  j : Nat := 0
  /-- first period that is not started; none: until GSTOP -/
  stopAt : Option Nat := none
  /-- the period at which GRUN's count ends the run (R334, R338) -/
  target : Option Nat := none
  firings : List Firing := []
  /-- ended firings per period not yet counted in PERDONE -/
  perEnds : List (Nat × Nat) := []
  /-- EOS firings started so far (R337) -/
  eosPos : Nat := 0
  failed : Option (BitVec 8) := none
  /-- the context of the GRUN's queue, and its scene's SUBN (R333) -/
  ctxQ : Nat := 0
  ctxSubn : Word := 0
  /-- producer firings (period, ordinal) already promoted to a consumer plot (R336) -/
  promoted : List (Nat × Nat × Nat) := []
  deriving DecidableEq, Repr

/-- A cast of a hard-saved context (R389, R391): the cast, and what the plot held of it. -/
structure SavedCast where
  cid : Nat
  cast : Cast
  /-- its image in the save area: offset and size -/
  ioff : Nat
  isize : Nat
  /-- accumulator cells: logical tile × 16384 + row × 128 + column -/
  cells : List (Nat × Word)
  /-- copies that have begun, and wait in the operand log -/
  begun : List Copy
  /-- withdrawn copies, in issue order -/
  copies : List Copy
  cmds : List MxCmd
  mxws : List PendMxw
  held : List Held
  /-- the latched weights, where a saved command is an MMA (R273) -/
  weights : Option (BitVec 8 × List Nat)
  deriving DecidableEq, Repr

/-- A saved context (R388 to R393). -/
structure Saved where
  qn : Nat
  casts : List SavedCast
  /-- the ORDERED turn by plot (R355) -/
  turns : List (Nat × TurnSt)
  /-- bytes of the save area in use -/
  size : Nat
  /-- the save area's bytes on the allotment's NVMe namespace, where the context is paged out (R393), and the key of the allotment's
  slot that they are encrypted under (R412) -/
  nvme : Option (List Byte × Nat)
  deriving DecidableEq, Repr

/-- An active allotment (R422 to R425). -/
structure Allot where
  acb : BitVec 1024
  acbA : Nat
  plots : List Nat
  clamps : Word
  frtail : Word
  queues : Vector QState 64
  /-- queue the next acceptance looks at first (R371) -/
  rrQ : Nat
  nAcc : Nat
  /-- scenes settled so far -/
  nSet : Nat
  graphs : List Graph
  saved : List Saved
  /-- steps on region nodes whose page is under migration: address, field, amount (R378, R414) -/
  owed : List (DWord × Nat × Int)
  deriving DecidableEq, Repr

/-! ### Faults -/

/-- The fault codes of the device (R416). -/
inductive FCode where
  | ill | pend | align | path | xlate | prot | fown | scope | bcnt | bdepth | seedfull | budget | barcnt
  | plotid | outlmax | slate | mxcmd | mxfuse | grate | gdead | gbusy | digest | trap | brk | wdog | memerr
  | priv | emitfull
  deriving DecidableEq, Repr

/-- A fault record (R417). -/
structure FaultRec where
  code : FCode
  cls : BitVec 2
  agent : Bool
  acck : Acck
  dep : BitVec 8
  al : BitVec 16
  qn : BitVec 8
  seq : Word
  subn : Word
  castix : Word
  slot : BitVec 16
  plot : BitVec 16
  iaddr : DWord
  faddr : DWord
  key : BitVec 128
  info : Word
  time : Word
  /-- also for the allotment's ring (classes 0, 1 and 3) -/
  both : Bool
  deriving DecidableEq, Repr

/-- A resolvable record that is outstanding (R418). -/
structure Resolv where
  seq : Word
  al : Nat
  plot : Nat
  vpn : Nat
  cid : Nat
  deriving DecidableEq, Repr

/-! ### Memory system -/

/-- A line that a shared-cache slice holds, with the owner tag that it took from its frame's entry at the fill (R405). -/
structure SLine where
  n : Nat
  owner : BitVec 12
  st : BitVec 2
  /-- it holds stores that memory has not taken: the line is written whole when the slice gives it up (R446) -/
  dirty : Bool := false
  deriving DecidableEq, Repr

/-- A frame ownership entry (R404). -/
structure FrameEnt where
  owner : BitVec 12
  st : BitVec 2
  key : BitVec 12
  zero : Bool
  deriving DecidableEq, Repr

/-- The memory-system window's registers (R411, R424, R443). -/
structure Window where
  fresult : BitVec 2 := 0
  fbusy : Bool := false
  fentry : Word := 0
  /-- the frame under scrub (R408) -/
  scrub : Option Nat := none
  xbusy : Bool := false
  xinv : Option (Nat × Option Nat) := none
  migvpn : Word := 0
  migal : BitVec 12 := 0
  migdst : BitVec 28 := 0
  mresult : BitVec 4 := 0
  mbusy : Bool := false
  /-- physical address of the migrating leaf -/
  migEa : Nat := 0
  /-- the frame that the migrating page leaves (R414) -/
  migSrc : Nat := 0
  /-- lines of that frame that could not be read and are still to be reported; none: the copy has not been made (R414, R421) -/
  migLeft : Option (List Nat) := none
  kresult : BitVec 2 := 0
  kbusy : Bool := false
  sfrbase : BitVec 44 := 0
  sfrlog : BitVec 5 := 0
  sfrtail : Word := 0
  sfrhead : Word := 0
  aresult : BitVec 4 := 0
  abusy : Bool := false
  rtbase : BitVec 44 := 0
  rtsync : Bool := false
  cresult : BitVec 2 := 0
  /-- the core under repair, while BUSY of CREPAIR is 1 (R443) -/
  crep : Option Nat := none
  mcBusy : Bool := false
  /-- OP and TAG of the request in progress (R455) -/
  mcOp : BitVec 8 := 0
  mcNew : BitVec 16 := 0
  mcResult : BitVec 4 := 0
  mcTag : BitVec 16 := 0
  mdata : List DWord := []
  deriving DecidableEq, Repr

/-! ### Fabric, host link, management island -/

/-- What a message of the fabric carries (R433): a request for an address of the peer, a read or a write; data, an acknowledgement, or a
refusal. -/
inductive FabricMsg where
  | request (addr : DWord) (write : Bool)
  | data (d : List Byte)
  | ack
  | refuse
  deriving DecidableEq, Repr

/-- A message as a flit carries it (R433): its target device, PEER, REQA, the line that its routing goes by (R437), and what it says. -/
structure Packet where
  dest : BitVec 11
  peer : BitVec 12
  reqa : BitVec 12
  line : Nat
  msg : FabricMsg
  deriving DecidableEq, Repr

/-- A fabric port (R432, R438 to R440): lanes that are up, and a retrain in progress. -/
structure Port where
  lane0 : Bool := true
  lane1 : Bool := true
  retrain : Bool := false
  /-- next link sequence number expected -/
  lseq : BitVec 12 := 0
  /-- link sequence number of the next flit sent -/
  tseq : BitVec 12 := 0
  /-- flits sent, from the oldest that may still be resent on: at most 4,095 (R438) -/
  replay : List (BitVec 12 × Packet) := []
  /-- messages that wait for a retrain (R439) -/
  wait : List Packet := []
  deriving DecidableEq, Repr

/-- A port that carries flits: one of its lanes is up (R440). -/
def Port.up (p : Port) : Bool := p.lane0 || p.lane1

/-- A request of a queue pair (R429, R431). -/
inductive RdmaOp where
  | write (d : List Byte)
  | read (n : Nat)
  | atomic (u : Update)
  /-- an operation that the device does not support -/
  | invalid
  deriving DecidableEq, Repr

/-- A posted request: its R_Key, its address, and what it asks. -/
structure RdmaReq where
  rk : Word
  va : DWord
  op : RdmaOp
  deriving DecidableEq, Repr

/-- A RoCE queue pair (R429, R430): its allotment, its R_Key, its path MTU, the Ethernet port and the priority that its packets use,
and its requests that wait, in the order posted (R431). -/
structure QPair where
  al : Nat
  rkey : Word
  mtu : Nat
  /-- its peer is reached by IPv6, else by IPv4 (R429) -/
  ip6 : Bool := false
  port : Nat
  prio : BitVec 3
  err : Bool
  wait : List RdmaReq
  deriving DecidableEq, Repr

/-- What the device has sent to the outside (responses, NAKs, congestion notifications, acknowledgements). -/
inductive Sent where
  | writeAck (qp : Nat)
  | readData (qp : Nat) (d : List Byte)
  | atomicOld (qp : Nat) (v : DWord)
  | nakInvalid (qp : Nat)
  | nakAccess (qp : Nat)
  | cnp (qp : Nat)
  /-- a flit that leaves by a port: its 256 bytes, and the message that it carries (R433) -/
  | flit (port : Nat) (v : BitVec 2048) (p : Packet)
  /-- a packet of RoCE version 2, by IPv6 or else IPv4, to a UDP destination port (R429) -/
  | roce (ip6 : Bool) (udp : BitVec 16) (x : Sent)
  | linkRetry (port : Nat) (lseq : BitVec 12)
  /-- the response to a request of R455, with the stage and the failed bit of R456 -/
  | response (op : Nat) (result : BitVec 4) (status : BitVec 4) (d : List Byte)
  /-- an in-band interrupt of the I3C target for an event (R455) -/
  | interrupt (seq : Word)
  deriving DecidableEq, Repr

/-- A repair-map entry (R442). -/
structure RepairEnt where
  kind : BitVec 4
  die : BitVec 3
  field : Bool
  loc : BitVec 48
  /-- the island that the part lies in, 0xFFFF for none: no field of the entry, which names it by LOC -/
  isl : Nat := 0xFFFF
  deriving DecidableEq, Repr

/-- A copy of the repair map in flash (R442): its generation, whether its CRC-64 verifies, and its entries. -/
structure MapCopy where
  gen : Nat := 0
  ok : Bool := true
  ents : List RepairEnt := []
  deriving DecidableEq, Repr

/-- An event-log entry (R448). -/
structure EventEnt where
  seq : Word
  bootn : Word
  usec : DWord
  cls : BitVec 8
  code : BitVec 8
  isl : BitVec 16
  data : BitVec 96
  deriving DecidableEq, Repr

/-- Lifetime counters of an island (R447). -/
structure LifeIsl where
  vbin : Vector Word 8 := Vector.replicate 8 0
  tbin : Vector Word 8 := Vector.replicate 8 0
  cec : Word := 0
  uec : Word := 0
  retrain : BitVec 16 := 0
  repairs : BitVec 16 := 0
  deriving DecidableEq, Repr

/-- An island's operating point and limits (R454) with its last sensor reading. -/
structure IslSt where
  point : BitVec 3 := 5
  req : BitVec 3 := 5
  thermal : BitVec 3 := 5
  power : BitVec 3 := 5
  temp : BitVec 16 := 200
  mv : BitVec 16 := 750
  /-- samples below 100 °C since the last rise of the thermal limit -/
  cool : Nat := 0
  /-- samples since the power limit was last judged -/
  ticks : Nat := 0
  deriving DecidableEq, Repr

/-- The lifetime record (R447). -/
structure LifeRec where
  gen : Nat := 0
  bootn : Word := 0
  hours : Word := 0
  isl : List (Nat × LifeIsl) := []
  /-- macro identifier and corrected count, in the order of their first corrections -/
  macros : List (Nat × Word) := []
  deriving DecidableEq, Repr

/-- A firmware slot (R450, R451): the state of R451 and the image bytes. -/
structure FwSlot where
  st : Nat := 0
  img : List Host.Cell := []
  deriving DecidableEq, Repr

/-- What the DICE layer of a boot was made from (R453): the image of the slot that runs, and F. -/
structure Dice where
  img : List Host.Cell := []
  fuses : Nat := 0
  deriving DecidableEq, Repr

/-- The management island (spec/20). (Log 62, DESIGN CHOICE.) -/
structure Mgmt where
  stage : Nat := 6
  failed : Bool := false
  /-- microseconds since the management island's power-up (R448) -/
  usec : DWord := 0
  slotA : FwSlot := { st := 3 }
  slotB : FwSlot := {}
  /-- the running slot, where one runs: false A, true B -/
  running : Option Bool := some false
  fuses : Nat := 0
  /-- the boot ROM can read the device secret (R453) -/
  secretOpen : Bool := false
  /-- the layer of the management firmware that runs: its CDI, its Alias key and its certificate follow from it (R453) -/
  layer : Option Dice := some {}
  /-- the address that the control cores started at, where they run (R456, stage 6) -/
  entry : Option DWord := some 0
  /-- flash configuration: verifies by CRC-64, DEVNUM, I3C static address, board identifier (R441) -/
  cfgOk : Bool := true
  cfgDev : BitVec 11 := 0
  cfgI3c : BitVec 7 := 0
  cfgBoard : Word := 0
  /-- the repair map, as the management island holds it -/
  repairs : List RepairEnt := []
  /-- repairs of the current boot that the full map does not hold (R442) -/
  extra : List RepairEnt := []
  /-- the two flash copies of the repair map (R441, R442) -/
  mapA : MapCopy := {}
  mapB : MapCopy := {}
  /-- entries at the front of the map that REPAIRS counts already (R447) -/
  counted : Nat := 0
  events : List EventEnt := []
  eseq : Word := 0
  isl : List (Nat × IslSt) := []
  /-- the lifetime record in the management island's own memory -/
  life : LifeRec := { bootn := 1 }
  /-- corrections of a macro (even keys) or an HBM row (odd keys), with their times in microseconds (R445, R446) -/
  recent : List (Nat × Nat) := []
  /-- the two flash copies of the lifetime record -/
  saveA : LifeRec := {}
  saveB : LifeRec := {}
  pcap : BitVec 16 := 2200
  power : Nat := 0
  i3cAddr : BitVec 7 := 0
  report : List Byte := []
  down : Bool := false
  spares : Vector Nat 4 := Vector.replicate 4 8
  /-- enabled cores whose physical core is not the default (R395, R443) -/
  phys : List (Nat × Nat) := []
  deriving DecidableEq, Repr

/-! ### The whole machine -/

/-- Which agent takes the next step: a thread of a cast, an event row, a cycle of an island, an eviction by a cache (R215,
R402), an access that is performed after its issue (R214), or the management island's clock. -/
inductive Turn where
  | issue (c t : Nat)
  /-- the thread issues, and the access of its instruction is performed later where the rules let it (R214) -/
  | issueLate (c t : Nat)
  | event (i : Instr)
  /-- one cycle of an island's clock (R4, R8) -/
  | cycle (i : Nat)
  | evict (p l : Nat)
  /-- a slice of the shared cache evicts a line -/
  | evictShared (l : Nat)
  /-- a translation cache of a plot drops a translation (R402) -/
  | dropTlb (p : Nat) (e : Eng) (al vpn : Nat)
  /-- an access that has issued is performed (R214) -/
  | perform (p id : Nat)
  /-- the management island's clock goes on by `us` microseconds (R447, R448) -/
  | mgClock (us : Nat)
  /-- a core repair in progress goes on (R443) -/
  | repair
  /-- the other end of a port's link has refused a flit: it is resent from that number on (R438) -/
  | refused (port : Nat) (lseq : BitVec 12)
  /-- requests of `n` units are pending at an arbiter (R427) -/
  | pending (arb : Nat) (c : Charge) (n : Nat)
  /-- the resident operating system creates a queue pair (R430) -/
  | queuePair (qp : Nat) (q : QPair)
  /-- a packet arrives over Ethernet: its IP version, its UDP destination port, and a request of a queue pair (R429) -/
  | packet (ip udp : Nat) (qp : Nat) (r : RdmaReq)
  deriving DecidableEq, Repr

/-- The thread that executes: cast and slot. -/
structure TRef where
  c : Nat
  t : Nat
  deriving DecidableEq, Repr

/-- Why the machine stops: states that no rule of the spec gives a step. -/
inductive Fault where
  /-- An instruction word was to be executed and `cur` names no thread in READY of a cast that issues (R40):
  raised by the prologue of every word's meaning. Safe: no thread executes there. -/
  | noThread
  deriving DecidableEq, Repr

/-- Why a step has no meaning. -/
inductive Refusal where
  /-- The instruction has no meaning in this model yet: raised by the arms of `exec`. Safe. -/
  | notModelled (mnemonic : String)
  deriving DecidableEq, Repr

end Sys2Proof.Machine

namespace Sys2Proof.Machine

open Sys2Proof

/-- The state of a Chiuno package. -/
structure State where
  /-- resident casts by number -/
  casts : List (Nat × Cast)
  nextCast : Nat
  plots : List (Nat × Plot)
  scenes : List (Nat × Scene)
  nextScene : Nat
  allots : List (Nat × Allot)
  /-- home memory (R403): bytes that are not 0, by physical address -/
  mem : List Host.Cell
  /-- commons banks (R75): bytes that are not 0, by die × 2^26 + bank × 2^20 + offset -/
  cmn : List Host.Cell
  /-- memory of other devices as this package's accesses left it: (device × 4,096 + peer allotment) × 2^62 + the
  address in the peer's own form (R434, R435) -/
  peers : List Host.Cell
  frames : List (Nat × FrameEnt)
  keys : List (Nat × Nat)
  nextKey : Nat
  /-- lines of memory that an uncorrectable error lies in (R421) -/
  errLines : List Nat
  /-- lines whose dirty data were lost: a tag with an error flag (R421) -/
  lostLines : List Nat
  /-- the lines that the shared cache's slices hold (R405); their data are the home memory's -/
  slines : List SLine
  /-- the translations that the migration engine caches (R402) -/
  mtlb : List Tlb
  /-- stores to home memory that their threads' READONLY loads do not observe (R65) -/
  owns : List OwnByte
  nextOwn : Nat
  /-- number of the next access that is put off -/
  nextHeld : Nat
  win : Window
  wpmask : List (Nat × BitVec 16)
  devnum : BitVec 11
  /-- records that wait to be written to the rings (R420) -/
  faultQ : List FaultRec
  faultSeq : Word
  resolv : List Resolv
  /-- the cycle counters of the islands, but for island 496, whose count is the I/O die's (R4, R138) -/
  clks : List (Nat × DWord)
  /-- the I/O die's cycle count, which is island 496's (R4, R8). (Log 72, DESIGN CHOICE.) -/
  dieClk : DWord
  nextReq : Nat
  ports : List (Nat × Port)
  spareLanes : Vector Nat 8
  routes : List (Nat × BitVec 128)
  qps : List (Nat × QPair)
  ethOpen : Bool
  /-- priorities that a port may not send at (R429), and what waits there to be sent -/
  pfc : List (Nat × BitVec 3)
  ethQ : List (Nat × BitVec 3 × Sent)
  /-- messages that accepted flits have brought, and that are not performed: source, PEER, REQA (R433, R438) -/
  rx : List (BitVec 11 × BitVec 12 × BitVec 12)
  /-- units served in an arbiter's last window, by arbiter × 4,096 + allotment (R428) -/
  arb : List (Nat × Nat)
  /-- units that wait at an arbiter, by the allotment that they are charged to; none: the system's (R427) -/
  pend : List (Nat × Option Nat × Nat)
  sent : List Sent
  mg : Mgmt
  /-- the model's own: the turns that come next -/
  agenda : List Turn
  /-- the model's own: choices among allowed outcomes, taken from the front; 0 when empty -/
  oracle : List Nat
  /-- the model's own: the thread that executes an instruction word -/
  cur : Option TRef
  /-- the model's own: index of the next free value -/
  freeCtr : Nat
  /-- the model's own: the access that issues now is performed later (R214) -/
  lag : Bool
  deriving DecidableEq, Repr

/-- The package right after bring-up (R10, R456 stage 6): no allotment, every queue idle, no cast placed,
every register at its Reset value. (Log 1, DESIGN CHOICE.) (Log 52, DESIGN CHOICE.) -/
def State.reset : State where
  casts := []
  nextCast := 0
  plots := []
  scenes := []
  nextScene := 0
  allots := []
  mem := []
  cmn := []
  peers := []
  frames := []
  keys := [(0, 0), (1, 1)]
  nextKey := 2
  errLines := []
  lostLines := []
  slines := []
  mtlb := []
  owns := []
  nextOwn := 0
  nextHeld := 0
  win := {}
  wpmask := []
  devnum := 0
  faultQ := []
  faultSeq := 0
  resolv := []
  clks := []
  dieClk := 0
  nextReq := 0
  ports := []
  spareLanes := Vector.replicate 8 2
  routes := []
  qps := []
  ethOpen := false
  pfc := []
  ethQ := []
  rx := []
  arb := []
  pend := []
  sent := []
  mg := {}
  agenda := []
  oracle := []
  cur := none
  freeCtr := 0
  lag := false

end Sys2Proof.Machine
end

