-- ==== Sys2Proof/Machine/Base.lean ====
section
/-!
DEFINITION. The plainest operations on the state: keyed lists, memory in its canonical form, registers, the
in-memory structures' fields, and the parts of the state.
-/

namespace Sys2Proof.Machine

open Sys2Proof

/-- The outcome of one step. -/
abbrev Out := Host.Outcome State Fault Refusal

/-- The state of a step that always answers one. -/
def Out.state (o : Out) (s : State) : State :=
  match o with
  | .next s => s
  | _ => s

/-! ### Keyed lists -/

/-- The value under key `n`. -/
def look {α : Type} (l : List (Nat × α)) (n : Nat) : Option α :=
  match l with
  | [] => none
  | (m, v) :: r => if m = n then some v else look r n

/-- Sets the value under key `n`, in place where the key stands already. -/
def put {α : Type} (l : List (Nat × α)) (n : Nat) (v : α) : List (Nat × α) :=
  match l with
  | [] => [(n, v)]
  | (m, w) :: r => if m = n then (n, v) :: r else (m, w) :: put r n v

/-- Removes key `n`. -/
def del {α : Type} (l : List (Nat × α)) (n : Nat) : List (Nat × α) := l.filter (fun e => e.1 != n)

/-- The bits [lo+n-1:lo] of a bit vector, as a number (R5). -/
def bitsN {w : Nat} (v : BitVec w) (lo n : Nat) : Nat := v.toNat / 2 ^ lo % 2 ^ n

/-- The bytes from byte offset `o` of a structure, `n` of them, as a number (R5). -/
def byteN {w : Nat} (v : BitVec w) (o n : Nat) : Nat := bitsN v (8 * o) (8 * n)

/-! ### Memory -/

/-- The byte at `a`: an address that is not listed reads 0 (R72, R404, R456 stage 5). -/
def Memory.byte (m : List Host.Cell) (a : Nat) : Byte :=
  match m with
  | [] => 0
  | (b, v) :: r => if b = a then v else Memory.byte r a

/-- Sets the byte at `a`, keeping addresses rising and listing no byte that is 0. -/
def Memory.setByte (m : List Host.Cell) (a : Nat) (v : Byte) : List Host.Cell :=
  match m with
  | [] => if v = 0 then [] else [(a, v)]
  | (b, w) :: r =>
    if a < b then (if v = 0 then (b, w) :: r else (a, v) :: (b, w) :: r)
    else if a = b then (if v = 0 then r else (a, v) :: r)
    else (b, w) :: Memory.setByte r a v

/-- The canonical form: every address above `lo` and rising, no byte listed as 0. -/
def Memory.wfFrom (lo : Nat) (m : List Host.Cell) : Bool :=
  match m with
  | [] => true
  | (b, w) :: r => decide (lo ≤ b) && w != 0 && Memory.wfFrom (b + 1) r

/-- A memory in its canonical form. -/
def Memory.wf (m : List Host.Cell) : Bool := Memory.wfFrom 0 m

/-- The `n` bytes from `a`, as a little-endian number (R5). -/
def Memory.read (m : List Host.Cell) (a : Nat) : Nat → Nat
  | 0 => 0
  | n + 1 => (Memory.byte m a).toNat + 256 * Memory.read m (a + 1) n

/-- Stores the low `n` bytes of `v` from `a` on (R5). -/
def Memory.write (m : List Host.Cell) (a : Nat) : Nat → Nat → List Host.Cell
  | 0, _ => m
  | n + 1, v => Memory.write (Memory.setByte m a (BitVec.ofNat 8 v)) (a + 1) n (v / 256)

/-- Removes every byte from `a` up to `a + n`: they read 0. -/
def Memory.clear (m : List Host.Cell) (a n : Nat) : List Host.Cell :=
  m.filter (fun c => decide (c.1 < a) || decide (a + n ≤ c.1))

/-- Stores the bytes of a list from `a` on. -/
def Memory.writeList (m : List Host.Cell) (a : Nat) : List Byte → List Host.Cell
  | [] => m
  | b :: bs => Memory.writeList (Memory.setByte m a b) (a + 1) bs

/-- The bytes from `a` on, as a list. -/
def Memory.readList (m : List Host.Cell) (a : Nat) : Nat → List Byte
  | 0 => []
  | n + 1 => Memory.byte m a :: Memory.readList m (a + 1) n

/-! ### Registers (R14) -/

/-- A general register: x0 reads as zero (R14). -/
def Thread.getX (t : Thread) (r : BitVec 6) : Word := if r = 0 then 0 else t.x[r.toNat]'(r.isLt)

/-- Writes a general register: a write to x0 is discarded (R14). -/
def Thread.setX (t : Thread) (r : BitVec 6) (v : Word) : Thread :=
  if r = 0 then t else { t with x := t.x.set r.toNat v r.isLt }

/-- A predicate: k0 reads as 1 (R14). -/
def Thread.getK (t : Thread) (r : BitVec 3) : Bool := if r = 0 then true else t.k[r.toNat]'(r.isLt)

/-- Writes a predicate: a write to k0 is discarded (R14). -/
def Thread.setK (t : Thread) (r : BitVec 3) (v : Bool) : Thread :=
  if r = 0 then t else { t with k := t.k.set r.toNat v r.isLt }

/-- An extended register. -/
def Thread.getE (t : Thread) (r : BitVec 2) : DWord := t.e[r.toNat]'(r.isLt)

/-- Writes an extended register. -/
def Thread.setE (t : Thread) (r : BitVec 2) (v : DWord) : Thread := { t with e := t.e.set r.toNat v r.isLt }

/-- The general register that holds the low word of pair `a` (R14). -/
def pairLo (a : BitVec 5) : BitVec 6 := a ++ 0#1

/-- The general register that holds the high word of pair `a` (R14). -/
def pairHi (a : BitVec 5) : BitVec 6 := a ++ 1#1

/-- An address pair a0 to a31 (R14). -/
def Thread.getA (t : Thread) (a : BitVec 5) : DWord := t.getX (pairHi a) ++ t.getX (pairLo a)

/-- Writes an address pair; the low word of a0 is discarded (R14). -/
def Thread.setA (t : Thread) (a : BitVec 5) (v : DWord) : Thread :=
  (t.setX (pairLo a) (v.setWidth 32)).setX (pairHi a) ((v >>> 32).setWidth 32)

/-- The registers of a pair, for the check of R52. -/
def pairDst (a : BitVec 5) : List Dst := [.x (pairLo a), .x (pairHi a)]

/-- A narrow register field names x0 to x31 (R127). -/
def wideReg (r : BitVec 5) : BitVec 6 := r.setWidth 6

/-- Writes a result to its destination. -/
def Thread.setDst (t : Thread) (d : Dst) (v : Word) : Thread :=
  match d with
  | .x r => t.setX r v
  | .k r => t.setK r (v != 0)

/-- Writes several results. -/
def Thread.setDsts (t : Thread) : List (Dst × Word) → Thread
  | [] => t
  | (d, v) :: r => (t.setDst d v).setDsts r

/-- A register that is never pending: x0 and k0 discard their writes (R14, R130). -/
def Dst.isZero : Dst → Bool
  | .x r => r == 0
  | .k r => r == 0

/-- Leaves the destinations of a result pending (R50, R130). -/
def Thread.pending (t : Thread) (f : Flight) : Thread :=
  { t with pend := t.pend ++ (f.dst.map Prod.fst).filter (fun d => !d.isZero), flights := t.flights ++ [f] }

/-- The level l of a lineage key (R17). -/
def keyLevel (k : BitVec 128) (l : Nat) : Nat := bitsN k (16 * (7 - l)) 16

/-- A lineage key with level l set (R17). -/
def keySet (k : BitVec 128) (l v : Nat) : BitVec 128 :=
  BitVec.ofNat 128 (k.toNat - keyLevel k l * 2 ^ (16 * (7 - l)) + v % 65536 * 2 ^ (16 * (7 - l)))

/-- Key order (R18): the 128-bit values first, then the smaller depth. -/
def keyLt (k1 : BitVec 128) (d1 : Nat) (k2 : BitVec 128) (d2 : Nat) : Bool :=
  decide (k1.toNat < k2.toNat) || (k1 == k2 && decide (d1 < d2))

/-! ### Fields of the structures in memory -/

/-- DET of a scene descriptor (R374). -/
def descDet (d : BitVec 1024) : Nat := bitsN d 240 2
/-- Whether a cast of the scene keeps a digest: CHECKED, or the ORDERED re-run of a CHECKED scene, which alone has a digest
area (R351 to R353). (Log 18, DEDUCED.) -/
def descFolds (d : BitVec 1024) : Bool := descDet d == 2 || byteN d 104 8 != 0
/-- SLOTS of a scene descriptor (R374). -/
def descSlots (d : BitVec 1024) : Nat := byteN d 22 2
/-- BUDGET of a scene descriptor (R374). -/
def descBudget (d : BitVec 1024) : Nat := bitsN d (8 * 35) 7
/-- QUANT of a scene descriptor, with 0 read as 65,536 (R340). -/
def descQuant (d : BitVec 1024) : Nat := if bitsN d 256 24 = 0 then 65536 else bitsN d 256 24
/-- SCNT, OCNT and ACNT of the bank layout (R67). -/
def descScnt (d : BitVec 1024) : Nat := bitsN d (8 * 26) 4
/-- OCNT of the bank layout (R67). -/
def descOcnt (d : BitVec 1024) : Nat := bitsN d (8 * 26 + 4) 4
/-- ACNT of the bank layout (R67). -/
def descAcnt (d : BitVec 1024) : Nat := bitsN d (8 * 26 + 8) 4
/-- The number of casts of a scene (R38). -/
def descCasts (d : BitVec 1024) : Nat := byteN d 16 2 * byteN d 18 2 * byteN d 20 2
/-- Crew count of a cast (R22). -/
def descCrews (d : BitVec 1024) : Nat := (descSlots d + 31) / 32

/-- Allotment identifier (R422). -/
def acbOwner (a : BitVec 1024) : Nat := bitsN a 0 12
/-- Key slot (R422). -/
def acbKey (a : BitVec 1024) : Nat := bitsN a 16 12
/-- Scope ceiling (R422, R426). -/
def acbCeil (a : BitVec 1024) : Nat := bitsN a 28 3
/-- Clamp-trap bit (R236, R422). -/
def acbCtrap (a : BitVec 1024) : Bool := bitsN a 31 1 == 1
/-- Commons window banks (R75, R422). -/
def acbCmnb (a : BitVec 1024) : Nat := bitsN a (8 * 14) 9
/-- Level-1 table (R396, R422). -/
def acbRoot (a : BitVec 1024) : Nat := byteN a 16 8
/-- Queue control blocks (R370, R422). -/
def acbQtab (a : BitVec 1024) : Nat := byteN a 24 8
/-- The share groups that an allotment lists as valid (R422). -/
def acbGroups (a : BitVec 1024) : List Nat :=
  ((List.range 8).map (fun i => byteN a (0x58 + 2 * i) 2)).filterMap
    (fun h => if h / 2 ^ 15 % 2 = 1 then some (h % 4096) else none)

/-! ### Parts of the state -/

/-- A plot by its number 4 × core + p (R423). -/
def State.plot (s : State) (p : Nat) : Plot := (look s.plots p).getD {}

/-- Sets a plot. -/
def State.setPlot (s : State) (p : Nat) (v : Plot) : State := { s with plots := put s.plots p v }

/-- Changes a plot. -/
def State.onPlot (s : State) (p : Nat) (f : Plot → Plot) : State := s.setPlot p (f (s.plot p))

/-- Sets a cast. -/
def State.setCast (s : State) (c : Nat) (v : Cast) : State := { s with casts := put s.casts c v }

/-- Changes a cast, where it is placed. -/
def State.onCast (s : State) (c : Nat) (f : Cast → Cast) : State :=
  match look s.casts c with
  | some v => s.setCast c (f v)
  | none => s

/-- Sets a thread of a cast. -/
def Cast.setThread (c : Cast) (t : Nat) (v : Thread) : Cast := { c with threads := put c.threads t v }

/-- Sets a thread. -/
def State.setThread (s : State) (r : TRef) (v : Thread) : State := s.onCast r.c (fun c => c.setThread r.t v)

/-- The thread in a slot of a cast. -/
def State.thread? (s : State) (r : TRef) : Option Thread := (look s.casts r.c).bind (fun c => look c.threads r.t)

/-- A crew of a cast. -/
def Cast.crew (c : Cast) (w : Nat) : Crew := c.crews.getD w {}

/-- Changes a crew of a cast. -/
def Cast.onCrew (c : Cast) (w : Nat) (f : Crew → Crew) : Cast := { c with crews := c.crews.set w (f (c.crew w)) }

/-- The counter of a class (R137, R212). -/
def Crew.count (w : Crew) (k : OpClass) : Nat := (w.ops.filter (fun o => o.cls == k)).length

/-- Sets flags, which are sticky (R107). -/
def Crew.setFlags (w : Crew) (f : Word) : Crew := { w with flags := w.flags ||| f }

/-- An allotment's active copy. -/
def State.acb (s : State) (al : Nat) : BitVec 1024 := ((look s.allots al).map Allot.acb).getD 0

/-- Changes an allotment, where it is active. -/
def State.onAllot (s : State) (al : Nat) (f : Allot → Allot) : State :=
  match look s.allots al with
  | some v => { s with allots := put s.allots al (f v) }
  | none => s

/-- Changes a scene. -/
def State.onScene (s : State) (n : Nat) (f : Scene → Scene) : State :=
  match look s.scenes n with
  | some v => { s with scenes := put s.scenes n (f v) }
  | none => s

/-- An island's operating point, limits and readings (R454). -/
def State.island (s : State) (i : Nat) : IslSt := (look s.mg.isl i).getD {}

/-- Whether an island runs its clock: point 2 or above (R454). -/
def State.runs (s : State) (i : Nat) : Bool := decide (2 ≤ (s.island i).point.toNat)

/-- The island of a fabric port's group: eight groups of four ports on a die (R4, R432). (Log 39, DEDUCED.) -/
def portIsland (p : Nat) : Nat := 384 + 28 * (p / 32) + 12 + p % 32 / 4

/-- Whether a port carries flits: one of its lanes is up (R440), and its group's island runs (R454). -/
def State.portUp (s : State) (p : Nat) : Bool := ((look s.ports p).getD {}).up && s.runs (portIsland p)

/-! ### Messages to other devices (R433, R437 to R439) -/

/-- Records what the device sends out. -/
def State.send (s : State) (x : Sent) : State := { s with sent := s.sent ++ [x] }

/-- A port's state. -/
def State.port (s : State) (p : Nat) : Port := (look s.ports p).getD {}
/-- Sets a port's state. -/
def State.setPort (s : State) (p : Nat) (v : Port) : State := { s with ports := put s.ports p v }

/-- The port that a request to a device leaves by (R437): among the set bits of ports that are up, by the line's address. -/
def State.routePort (s : State) (dev line : Nat) : Option Nat :=
  let m := (look s.routes dev).getD 0
  let l := (List.range 128).filter (fun i => m.getLsbD i && s.portUp i)
  l[line % l.length]?

/-- What a message is, as a flit's payload names it: its kind, its address and its data (R433). -/
def FabricMsg.parts (m : FabricMsg) : Nat × DWord × List Byte :=
  match m with
  | .request a w => (if w then 1 else 0, a, [])
  | .data d => (2, 0, d)
  | .ack => (3, 0, [])
  | .refuse => (4, 0, [])

/-- The 256 bytes of a flit that carries one message (R433): DEST, SRC, PEER, REQA, LSEQ, NMSG 1, the payload, and FEC; bits [47:46] are 0. -/
def flitBytes (dev : BitVec 11) (lseq : BitVec 12) (p : Packet) : BitVec 2048 :=
  let head : BitVec 64 := (1#4 ++ lseq) ++ (0#2 ++ p.reqa ++ p.peer ++ dev ++ p.dest)
  let body := Config.flitPayload p.msg.parts.1 p.msg.parts.2.1 p.msg.parts.2.2 ++ head
  Config.flitFec body ++ body

/-- The allotment that a request is charged to (R427); none: the system's traffic. -/
def chargedTo (c : Charge) : Option Nat :=
  match c with
  | .access al => some al
  | .remoteOut al => some al
  | .remoteIn al => some al
  | .move al => some al
  | .caused al => some al
  | .system => none

/-- Requests of `n` units come to wait at an arbiter, charged as R427 says. -/
def State.charge (s : State) (arb : Nat) (c : Charge) (n : Nat) : State :=
  let k := (s.pend.filter (fun e => e.1 == arb && e.2.1 == chargedTo c)).map (fun e => e.2.2)
  { s with pend := s.pend.filter (fun e => !(e.1 == arb && e.2.1 == chargedTo c)) ++ [(arb, chargedTo c, k.sum + n)] }

/-- The arbiter of a port's direction (R427): out of the device, or into it. -/
def portArb (port : Nat) (inward : Bool) : Nat := 2 * port + if inward then 1 else 0

/-- The arbiter of the memory controller behind a physical address (R403, R427): one for each HBM stack and LPDDR channel, from 256 on.
(Log 68, DESIGN CHOICE.) -/
def memArb (pa : Nat) : Nat := 256 + (if pa < 2 ^ 39 then pa / 2 ^ 36 else 8 + (pa - 2 ^ 41) / 2 ^ 36)

/-- The charge of a flit that the device sends (R427): a request to its requester, an answer to the peer allotment that the request has
reached. -/
def Packet.charge (p : Packet) : Charge :=
  match p.msg with
  | .request _ _ => .remoteOut p.reqa.toNat
  | _ => .remoteIn p.peer.toNat

/-- A flit with a link sequence number is put on a port's lanes: one slot of its outward direction (R427, R433). -/
def State.putFlit (s : State) (port : Nat) (lseq : BitVec 12) (p : Packet) : State :=
  (s.send (.flit port (flitBytes s.devnum lseq p) p)).charge (portArb port false) p.charge 1

/-- A flit leaves by a port, with the next link sequence number; the port keeps it to send it again (R438). -/
def State.emitFlit (s : State) (port : Nat) (p : Packet) : State :=
  let v := s.port port
  let r := v.replay ++ [(v.tseq, p)]
  (s.setPort port { v with tseq := v.tseq + 1, replay := r.drop (r.length - 4095) }).putFlit port v.tseq p

/-- A message goes to another device: it waits at its port during a retrain (R439). -/
def State.fabricSend (s : State) (p : Packet) : State :=
  match s.routePort p.dest.toNat p.line with
  | none => s
  | some n => if (s.port n).retrain then s.setPort n { s.port n with wait := (s.port n).wait ++ [p] } else s.emitFlit n p

/-- Whether the island of a plot's core, which has the core's number (R4), runs its clock. -/
def State.powered (s : State) (p : Nat) : Bool := s.runs (p / 4)

/-- The cycle counter of a plot's core island, which the four plots of the core share (R4, R138). -/
def State.coreClk (s : State) (p : Nat) : DWord := (look s.clks (p / 4)).getD 0

/-- Takes the next choice among allowed outcomes (log 2, DESIGN CHOICE): 0 where the oracle is empty. -/
def State.choose (s : State) : Nat × State :=
  match s.oracle with
  | [] => (0, s)
  | n :: r => (n, { s with oracle := r })

/-- Whether an agent reads a word of a cast's storage that an uncorrectable error lies in (R421): the next choice, 1 for yes, where there
is such a word (log 86, DESIGN CHOICE). -/
def State.readsBad (s : State) (c : Cast) : Nat × State := if c.bad then s.choose else (0, s)

/-- Takes the next free value (log 3, DESIGN CHOICE). -/
def State.fresh (s : State) : Nat × State := (Config.freeValue s.freeCtr, { s with freeCtr := s.freeCtr + 1 })

/-- The allotment-relative number of a plot (R423); 0xFFFF where the allotment does not hold it. -/
def State.relPlot (s : State) (al p : Nat) : Nat :=
  match look s.allots al with
  | some a => if p ∈ a.plots then a.plots.idxOf p else 0xFFFF
  | none => 0xFFFF

end Sys2Proof.Machine
end

