-- ==== Sys2Proof/Machine/Access.lean ====
section
/-!
DEFINITION. Addresses and accesses (spec/02, 07 R212 to R218, 18 R396 to R409): the path field, the checks of
R63, the page walk, frame ownership, zero frames, home memory, the plot's cache with stamps, commons banks,
scratch and operand regions, remote memory, write-back, release, acquire, promotion, and wake events.
-/

namespace Sys2Proof.Machine

open Sys2Proof

/-! ### The path field (R58 to R62) -/

/-- A data address as its path field reads it, after R59: a remote address that names this device is local. -/
inductive Space where
  | glob (va : Nat)
  | ro (va : Nat)
  | cmn (off : Nat)
  | scr (off : Nat)
  | opd (off : Nat)
  | rglob (dev va : Nat)
  | rcmn (dev off : Nat)
  | bad
  deriving DecidableEq, Repr

/-- Reads the path field and the must-be-zero bits (R58, R59). -/
def classify (devnum : BitVec 11) (a : DWord) : Space :=
  match bitsN a 60 4 with
  | 0 =>
    if bitsN a 59 1 = 0 then (if bitsN a 48 11 = 0 then .glob (bitsN a 0 48) else .bad)
    else if bitsN a 48 11 = devnum.toNat then .glob (bitsN a 0 48)
    else .rglob (bitsN a 48 11) (bitsN a 0 48)
  | 1 => if bitsN a 48 12 = 0 then .ro (bitsN a 0 48) else .bad
  | 2 =>
    if bitsN a 59 1 = 0 then (if bitsN a 28 31 = 0 then .cmn (bitsN a 0 28) else .bad)
    else if bitsN a 28 20 = 0 then
      (if bitsN a 48 11 = devnum.toNat then .cmn (bitsN a 0 28) else .rcmn (bitsN a 48 11) (bitsN a 0 28))
    else .bad
  | 3 => if bitsN a 18 42 = 0 then .scr (bitsN a 0 18) else .bad
  | 4 => if bitsN a 18 42 = 0 then .opd (bitsN a 0 18) else .bad
  | _ => .bad

/-- An address in a remote form (R58): GLOBAL or COMMONS with bit 59 set. The rules on the addresses that a slate or a matrix command
holds name the form, so that they refuse the device's own number too (log 22, DEDUCED); an access through such an address is local (R59). -/
def remoteForm (a : DWord) : Bool := (bitsN a 60 4 == 0 || bitsN a 60 4 == 2) && bitsN a 59 1 == 1

/-- The operations that R61 tells apart. -/
inductive AccOp where
  | ld | st | lds | sts | atom | waita | acqp
  /-- EMIT's region, the seedbed, scripts, slates and graph descriptors: GLOBAL, local only -/
  | ctrl
  deriving DecidableEq, Repr

/-- Whether an operation writes. -/
def AccOp.writes : AccOp → Bool
  | .st | .sts | .atom => true
  | _ => false

/-- The path check of R61, with the offset limits of R69 and R75 (R63, step 1). -/
def pathOk (s : State) (c : Cast) (op : AccOp) (sp : Space) : Bool :=
  match sp with
  | .glob _ => true
  | .ro _ => match op with | .ld | .st | .sts | .atom => true | _ => false
  | .cmn off => op != .ctrl && decide (off < acbCmnb (s.acb c.al) * 2 ^ 20)
  | .scr off =>
    (match op with | .acqp | .ctrl => false | _ => true) && decide (off < 32768 * descScnt c.desc)
  | .opd off =>
    (match op with | .ld | .st | .lds | .sts => true | _ => false) && decide (off < 32768 * descOcnt c.desc)
  | .rglob _ _ | .rcmn _ _ => match op with | .ld | .st | .lds | .sts | .atom => true | _ => false
  | .bad => false

/-- The byte of storage that an address names on its path, as one number (R278): addresses of different paths differ. -/
def Space.byteKey (sp : Space) : Nat :=
  match sp with
  | .glob va => va
  | .ro va => 2 ^ 49 + va
  | .cmn off => 2 ^ 50 + off
  | .scr off => 2 ^ 50 + 2 ^ 49 + off
  | .opd off => 2 ^ 51 + off
  | .rglob d va => (d + 1) * 2 ^ 52 + va
  | .rcmn d off => (d + 1) * 2 ^ 52 + 2 ^ 51 + off
  | .bad => 2 ^ 64

/-- Whether an address form is remote (R62). -/
def Space.remote : Space → Bool
  | .rglob _ _ | .rcmn _ _ => true
  | _ => false

/-- The checks of R63 up to step 4, in their order: PATH; SCOPE for a remote access (R62), and for a local one whose
scope `sc` is clamped in an allotment that traps clamps (R236); ALIGN; PROT for a write through READONLY.
(Log 79, DESIGN CHOICE.) -/
def checkAcc (s : State) (c : Cast) (op : AccOp) (a : DWord) (size sc : Nat) : Except FCode Space :=
  let sp := classify s.devnum a
  if !pathOk s c op sp then .error .path
  else if sp.remote && acbCeil (s.acb c.al) != 5 then .error .scope
  else if !sp.remote && acbCtrap (s.acb c.al) && decide (acbCeil (s.acb c.al) < sc) then .error .scope
  else if a.toNat % size ≠ 0 then .error .align
  else match sp with
    | .ro _ => if op.writes then .error .prot else .ok sp
    | _ => .ok sp

/-! ### Physical memory and the frame ownership table (R403 to R405) -/

/-- Little-endian packing of fields given with their sizes in bytes (R5). -/
def packN : List (Nat × Nat) → Nat
  | [] => 0
  | (v, n) :: r => v % 2 ^ (8 * n) + 2 ^ (8 * n) * packN r

/-- The populated ranges of HBM and the LPDDR tier (R403). -/
def populated (pa : Nat) : Bool := decide (pa < 2 ^ 39) || (decide (2 ^ 41 ≤ pa) && decide (pa < 2 ^ 42))

/-- The 64 frames of each stack or channel that hold ownership entries (R404). -/
def tableFrame (f : Nat) : Bool := decide (2 ^ 20 - 64 ≤ f % 2 ^ 20)

/-- The ownership entry of a frame: after bring-up free with ZERO = 1, but for the system's frames, which are
owner 0 (R404, R456 stage 5). -/
def State.frame (s : State) (f : Nat) : FrameEnt :=
  (look s.frames f).getD
    (if tableFrame f then { owner := 0, st := 2, key := 1, zero := true } else { owner := 0xFFF, st := 0, key := 0, zero := true })

/-- Sets an ownership entry. -/
def State.setFrame (s : State) (f : Nat) (e : FrameEnt) : State := { s with frames := put s.frames f e }

/-- The line that the shared cache holds of a physical line number, where it holds one (R405). -/
def State.sline? (s : State) (ln : Nat) : Option SLine := s.slines.find? (fun l => l.n == ln)

/-- An ownership entry as FSTAT.ENTRY and memory hold it (R404). -/
def FrameEnt.bits (e : FrameEnt) : Word :=
  BitVec.ofNat 32 (e.owner.toNat + e.st.toNat * 2 ^ 12 + e.key.toNat * 2 ^ 14 + (if e.zero then 2 ^ 26 else 0))

/-- The frame whose ownership entry lies at an address of the table frames: 4 bytes per frame, in the last 4 MiB of each
stack or channel (R404). -/
def entryFrame (pa : Nat) : Nat := pa / 2 ^ 36 * 2 ^ 20 + pa % 2 ^ 22 / 4

/-- The byte at an address of the table frames (R404). -/
def State.tableByte (s : State) (pa : Nat) : Byte := BitVec.ofNat 8 (bitsN (s.frame (entryFrame pa)).bits (8 * (pa % 4)) 8)

/-- Home memory as an access finds it: the ownership entries in the table frames (R404); zeros in a frame whose all-zero bit is
set (R72), but for a line that a slice still holds from before the frame's scrub (R409); else what is stored. -/
def State.homeRead (s : State) (pa n : Nat) : Nat :=
  let e := s.frame (pa / 65536)
  if tableFrame (pa / 65536) then packN ((List.range n).map (fun i => ((s.tableByte (pa + i)).toNat, 1)))
  else if e.zero && !(e.st == 1 && (s.sline? (pa / 128)).isSome) then 0
  else Memory.read s.mem pa n

/-- The charge of a line transfer that the action of a frame's owner has caused (R427). -/
def State.ownerCharge (s : State) (pa : Nat) : Charge :=
  let o := (s.frame (pa / 65536)).owner.toNat
  if (look s.allots o).isSome then .caused o else .system

/-- Makes a frame's zeros real before its first write (R73): every byte of it 0, and the all-zero bit clear. Every
line of it is written again (R446). -/
def State.realise (s : State) (f : Nat) : State :=
  let e := s.frame f
  if e.zero then
    { s.setFrame f { e with zero := false } with
      mem := Memory.clear s.mem (f * 65536) 65536
      errLines := s.errLines.filter (fun l => l / 512 != f) }.charge (memArb (f * 65536)) (s.ownerCharge (f * 65536)) 512
  else s

/-- The queue control block that holds a physical address: allotment, queue and byte offset (R370). -/
def State.qcbAt (s : State) (a : Nat) : Option (Nat × Nat × Nat) :=
  s.allots.findSome? (fun (al, v) =>
    let t := acbQtab v.acb
    if t ≤ a ∧ a < t + 4096 then some (al, (a - t) / 64, (a - t) % 64) else none)

/-- Changes the dispatcher's state of a queue. -/
def State.onQueue (s : State) (al q : Nat) (f : QState → QState) : State :=
  s.onAllot al (fun a => { a with queues := a.queues.setIfInBounds q (f (a.queues.toList.getD q {})) })

/-- The device's value of a byte of a read-only field (R9) of a queue control block: HEAD, CQTAIL, CTXST (R370). -/
def QState.roByte (x : QState) (off : Nat) : Option Byte :=
  if 20 ≤ off ∧ off < 24 then some (BitVec.ofNat 8 (byteN x.head (off - 20) 1))
  else if 36 ≤ off ∧ off < 40 then some (BitVec.ofNat 8 (byteN x.cqtail (off - 36) 1))
  else if 44 ≤ off ∧ off < 48 then some (BitVec.ofNat 8 (byteN (BitVec.ofNat 32 x.ctxst) (off - 44) 1))
  else none

/-- The device's value of a byte of a read-only field (R9) of an active allotment's control block: FRTAIL, CLAMPS (R422). -/
def State.acbRoByte (s : State) (a : Nat) : Option Byte :=
  s.allots.findSome? (fun (_, v) =>
    if v.acbA + 0x4C ≤ a ∧ a < v.acbA + 0x50 then some (BitVec.ofNat 8 (byteN v.frtail (a - (v.acbA + 0x4C)) 1))
    else if v.acbA + 0x54 ≤ a ∧ a < v.acbA + 0x58 then some (BitVec.ofNat 8 (byteN v.clamps (a - (v.acbA + 0x54)) 1))
    else none)

/-- What the store of the byte at a physical address does beyond storing it: a byte of a read-only field keeps the device's value
(R9); ERR clears where 1 is written and else stays (R370); TAIL lets a queue go on whose ERR is clear (R371); TAIL and RESV ask
for a paged-out context (R393). -/
def State.qcbNote (s : State) (a : Nat) : State :=
  match s.acbRoByte a with
  | some v => { s with mem := Memory.setByte s.mem a v }
  | none =>
    match s.qcbAt a with
    | none => s
    | some (al, q, off) =>
      let x := ((look s.allots al).map (fun x => x.queues.toList.getD q {})).getD {}
      match x.roByte off with
      | some v => { s with mem := Memory.setByte s.mem a v }
      | none =>
        if off = 18 then
          let v := Memory.byte s.mem a
          let err := x.err && !v.getLsbD 1
          { s.onQueue al q (fun x => { x with err := err }) with
            mem := Memory.setByte s.mem a ((v &&& ~~~2) ||| (if err then 2 else 0)) }
        else if 32 ≤ off ∧ off < 36 then s.onQueue al q (fun x => { x with stall := x.stall && x.err, recalled := true })
        else if 24 ≤ off ∧ off < 32 then s.onQueue al q (fun x => { x with recalled := true })
        else s

/-- A byte of home memory takes a value that no thread's hidden store put there (R65). -/
def State.ownHome (s : State) (pa : Nat) (v : Byte) : State :=
  if s.owns.isEmpty then s else { s with owns := s.owns.map (fun o => if o.pa = pa then { o with old := v } else o) }

/-- The lines of `n` bytes at a physical address have been written: those that a slice holds are dirty there, and one that is written
whole in memory can be read again (R446). -/
def State.written (s : State) (pa n : Nat) : State :=
  { s with
    slines := s.slines.map (fun l => if pa < l.n * 128 + 128 ∧ l.n * 128 < pa + n then { l with dirty := true } else l)
    errLines := s.errLines.filter (fun l => !(decide (pa ≤ l * 128) && decide (l * 128 + 128 ≤ pa + n) && (s.sline? l).isNone)) }

/-- Writes home memory (R73). The ownership entries in the table frames are read only (R404). -/
def State.homeWrite (s : State) (pa n v : Nat) : State :=
  if tableFrame (pa / 65536) then s
  else
    let s := s.realise (pa / 65536)
    let s : State := { s with mem := Memory.write s.mem pa n v }.written pa n
    (List.range n).foldl (fun s i => (s.ownHome (pa + i) (BitVec.ofNat 8 (v / 256 ^ i))).qcbNote (pa + i)) s

/-- Whether a line cannot be read (R421): an uncorrectable error in memory that a fill would read, or a tag with an error
flag. -/
def State.lineBad (s : State) (pa : Nat) (z : Bool) : Bool :=
  s.lostLines.contains (pa / 128) ||
    (s.errLines.contains (pa / 128) && !z && !(s.frame (pa / 65536)).zero && (s.sline? (pa / 128)).isNone)

/-- Whether a device agent may access a physical address: in owner-0 frames, which it reads and writes for the system, and
for allotment `al` in that allotment's frames (R405). -/
def State.dpOk (s : State) (al pa : Nat) : Bool :=
  let e := s.frame (pa / 65536)
  populated pa && e.st == 2 && (e.owner == 0 || decide (e.owner.toNat = al))

/-- A read of the dispatcher at a physical address, for the system or for an allotment: 0 where it is refused (R405) or the line
cannot be read (R421). (Log 73, DESIGN CHOICE.) -/
def State.dpRead (s : State) (pa n : Nat) (al : Nat := 0) : Nat :=
  if s.dpOk al pa && !s.lineBad pa false then s.homeRead pa n else 0

/-- A write of the dispatcher at a physical address, with no effect on a queue control block beyond it; a refused one is
discarded (R405). -/
def State.dpWrite (s : State) (pa n v : Nat) (al : Nat := 0) : State :=
  if s.dpOk al pa && !tableFrame (pa / 65536) then
    let s := s.realise (pa / 65536)
    { s with mem := Memory.write s.mem pa n v }.written pa n
  else s

/-- The check of R405 for allotment `al` against an owner tag or an entry. -/
def tagOk (s : State) (al : Nat) (owner : BitVec 12) (st : BitVec 2) (wr : Bool) : Bool :=
  let listed := owner.toNat ∈ acbGroups (s.acb al)
  if st = 2 then decide (owner.toNat = al) || decide listed
  else if st = 3 then !wr && decide listed
  else false

/-- The fill check of R405 for allotment `al`, against the frame's entry. -/
def ownOk (s : State) (al pa : Nat) (wr : Bool) : Bool := tagOk s al (s.frame (pa / 65536)).owner (s.frame (pa / 65536)).st wr

/-- The owner tag that an access to a line meets: of the slice's line where one holds it, else the frame's entry (R405). -/
def State.ownTag (s : State) (pa : Nat) : BitVec 12 × BitVec 2 :=
  match s.sline? (pa / 128) with
  | some l => (l.owner, l.st)
  | none => ((s.frame (pa / 65536)).owner, (s.frame (pa / 65536)).st)

/-- The home die of a physical address (R82, R403). -/
def homeDie (pa : Nat) : Nat := if pa < 2 ^ 39 then pa / 2 ^ 37 else pa / 65536 % 4

/-- The island of the shared-cache slice that homes a line: a slice group holds three slices (R4, R82). (Log 39, DEDUCED.) -/
def homeIsland (pa : Nat) : Nat := 384 + 28 * homeDie pa + pa / 128 % 24 / 3

/-- WAYS of way partition `i` on die `d` (R84). -/
def State.wpmaskOf (s : State) (d i : Nat) : BitVec 16 := (look s.wpmask (8 * d + i)).getD (BitVec.allOnes 16)

/-- Whether accesses through a leaf pass by the slice of the shared cache: the bypass policy (R83), a partition with no way (R84),
or a slice group whose island is off (R454). -/
def State.bypass (s : State) (pa : Nat) (leaf : DWord) : Bool :=
  bitsN leaf 5 2 == 3 || s.wpmaskOf (homeDie pa) (bitsN leaf 7 3) == 0 || !s.runs (homeIsland pa)

/-- A line that its slice does not hold is transferred for an allotment's access (R427), and fills the slice with its owner tag, where it
does not pass by it (R83, R84, R405). -/
def State.fillSlice (s : State) (al pa : Nat) (leaf : DWord) : State :=
  if (s.sline? (pa / 128)).isSome then s
  else
    let s := s.charge (memArb pa) (.access al) 1
    if s.bypass pa leaf then s
    else { s with slines := { n := pa / 128, owner := (s.frame (pa / 65536)).owner, st := (s.frame (pa / 65536)).st } :: s.slines }

/-! ### The page walk (R396 to R402) -/

/-- How a translation ends. -/
inductive Walk where
  /-- leaf, its physical address, whether it maps a block -/
  | leaf (l : DWord) (ea : Nat) (block : Bool)
  /-- XLATE of a kind (R399) -/
  | fail (kind : Nat)
  /-- M = 1: the walk waits (R414) -/
  | migrating
  /-- an entry lies in a line that cannot be read (R421) -/
  | memerr

/-- One entry of a table, with the checks of kinds 5 and 6 on the table, and of its line (R421). -/
def tableEntry (s : State) (ea : Nat) : Except Walk DWord :=
  if !populated ea then .error (.fail 5)
  else if (s.frame (ea / 65536)).owner ≠ 0 then .error (.fail 6)
  else if s.lineBad ea false then .error .memerr
  else .ok (BitVec.ofNat 64 (s.homeRead ea 8))

/-- The checks of a leaf (R398, R399). Of several faults of one entry the first in this order is reported: V, L, a reserved bit or
TIER, FRAME of a block, the range of FRAME; a walk waits for M only where there is none. (Log 96, DESIGN CHOICE.) -/
def leafCheck (l : DWord) (ea : Nat) (block : Bool) : Walk :=
  let pa := bitsN l 16 28 * 65536
  if bitsN l 4 1 ≠ 0 ∨ bitsN l 44 12 ≠ 0 ∨ 2 ≤ bitsN l 14 2 then .fail 2
  else if block ∧ bitsN l 16 10 ≠ 0 then .fail 4
  else if !populated pa || (decide (bitsN l 14 2 = 0) != decide (pa < 2 ^ 39)) then .fail 5
  else if bitsN l 13 1 = 1 then .migrating
  else .leaf l ea block

/-- The three-level walk of R396 for a virtual address, with the kinds of R399. -/
def walk (s : State) (al va : Nat) : Walk :=
  let e1 := acbRoot (s.acb al) + 8 * (va / 2 ^ 37 % 2048)
  match tableEntry s e1 with
  | .error w => w
  | .ok l1 =>
    if bitsN l1 0 1 = 0 then .fail 1
    else if bitsN l1 1 1 = 1 then .fail 3
    else if bitsN l1 2 12 ≠ 0 ∨ bitsN l1 44 12 ≠ 0 then .fail 2
    else
      let e2 := bitsN l1 14 30 * 16384 + 8 * (va / 2 ^ 26 % 2048)
      match tableEntry s e2 with
      | .error w => w
      | .ok l2 =>
        if bitsN l2 0 1 = 0 then .fail 1
        else if bitsN l2 1 1 = 1 then leafCheck l2 e2 true
        else if bitsN l2 2 12 ≠ 0 ∨ bitsN l2 44 12 ≠ 0 then .fail 2
        else
          let e3 := bitsN l2 14 30 * 16384 + 8 * (va / 2 ^ 16 % 1024)
          match tableEntry s e3 with
          | .error w => w
          | .ok l3 =>
            if bitsN l3 0 1 = 0 then .fail 1
            else if bitsN l3 1 1 = 0 then .fail 3
            else leafCheck l3 e3 false

/-- The transfer of the last entry that a walk reads, which the action of the allotment has caused (R427). -/
def State.walkCharge (s : State) (al ea : Nat) : State := s.charge (memArb ea) (.caused al) 1

/-- The translation that a cache of a plot holds of a page (R402). -/
def State.tlb? (s : State) (p : Nat) (e : Eng) (al va : Nat) : Option Tlb :=
  (s.plot p).tlb.find? (fun t => t.eng == e && t.al == al && t.vpn == va / 65536)

/-- The translation that an agent of a plot uses: a cached one where it holds one (R402), else a walk. -/
def translate (s : State) (p : Nat) (e : Eng) (al va : Nat) : Walk :=
  match s.tlb? p e al va with
  | some t => .leaf t.leaf t.ea t.block
  | none => walk s al va

/-- The physical address under a leaf (R398). -/
def leafPa (l : DWord) (block : Bool) (va : Nat) : Nat :=
  if block then bitsN l 26 18 * 2 ^ 26 + va % 2 ^ 26 else bitsN l 16 28 * 65536 + va % 65536

/-- Why an access does not go through. -/
inductive Stop where
  /-- a fatal fault; `walk`: the walk of the access has met it (R417, ACCK) -/
  | fatal (c : FCode) (cls : Nat) (info : Nat) (walk : Bool)
  /-- XLATE of a kind, at an address -/
  | xlate (kind va : Nat)
  | migrating (va : Nat)
  deriving DecidableEq, Repr

/-- ACCK of a fault's record: 5 for one that the walk meets (R417). -/
def walkAcck (walk : Bool) (a : Acck) : Acck := if walk then .walk else a

/-- A of a leaf: set at a load of the translation (R401). -/
def leafA (l : DWord) : DWord := l ||| (1#64 <<< 12)
/-- D of a leaf: set before the first write (R401). -/
def leafD (l : DWord) : DWord := l ||| (1#64 <<< 11)
/-- Z of a leaf cleared, before the first write (R401). -/
def leafNoZ (l : DWord) : DWord := l &&& ~~~(1#64 <<< 10)

/-- An atomic step on a leaf at its home slice: on the entry as memory holds it then (R401). -/
def State.leafStep (s : State) (ea : Nat) (f : DWord → DWord) : State :=
  let l : DWord := BitVec.ofNat 64 (s.homeRead ea 8)
  if f l = l then s else s.homeWrite ea 8 (f l).toNat

/-- Drops the cached translations of pages of one allotment, `n` of them from page number `vpn` on, everywhere (R401, R410). -/
def State.dropTlb (s : State) (al vpn : Nat) (n : Nat := 1) : State :=
  let keep (l : List Tlb) : List Tlb := l.filter (fun t => t.al != al || !(decide (vpn ≤ t.vpn) && decide (t.vpn < vpn + n)))
  { s with plots := s.plots.map (fun (i, p) => (i, { p with tlb := keep p.tlb })), mtlb := keep s.mtlb }

/-- Makes the zeros of the page or block under a leaf real before the first write through it (R401): the all-zero bit of each
frame that it maps and that the writer may write, Z of the leaf, and the cached translations. (Log 74, DEDUCED.) -/
def State.makeZeros (s : State) (al va pa ea : Nat) (block : Bool) : State :=
  let n := if block then 1024 else 1
  let f0 := pa / 65536 / n * n
  let s := (List.range n).foldl (fun s i =>
    if ownOk s al ((f0 + i) * 65536) true then s.setFrame (f0 + i) { s.frame (f0 + i) with zero := true } else s) s
  (s.leafStep ea leafNoZ).dropTlb al (va / 65536 / n * n) n

/-- What an access asks of a page (R400). -/
inductive Want where
  | read | write | fetch
  deriving DecidableEq, Repr

/-- Where an access of a plot is made: in the plot's cache (plain, crew, plot scope), at the home, or among the copies that the plot
holds on the READONLY path or the instruction path (R65, R171). -/
inductive View where
  | plot | home | ro | instr
  deriving DecidableEq, Repr

/-- A plot with at least one cache-role bank (R66, R71). -/
def Plot.hasCache (p : Plot) : Bool := p.roles.toList.any (fun r => r == 0)

/-- Whether a line holds stores that are not written back (R216). -/
def Line.isDirty (l : Line) : Bool := l.dirty != 0

/-- Whether an access of a plot meets a line that the plot holds on its path: in the cache a read any line, a write one that it has
already written (R405: a line is checked when it fills, a write when the line fills with intent to write). -/
def Plot.hits (p : Plot) (v : View) (pa : Nat) (wr : Bool) : Bool :=
  match v with
  | .plot => p.hasCache && p.cache.any (fun l => l.n == pa / 128 && (!wr || l.isDirty))
  | .home => false
  | .ro => !wr && p.roc.any (fun l => l.n == pa / 128)
  | .instr => !wr && p.ic.any (fun l => l.n == pa / 128)

/-- What an access through a valid leaf meets: the permissions of R400, the owner tag of R405, and a line that cannot be read
(R421). `hit` says that the plot's cache answers. -/
def leafStop (s : State) (al : Nat) (w : Want) (l : DWord) (pa : Nat) (hit : Bool) : Option Stop :=
  let wr := w == .write
  let tag := s.ownTag pa
  if wr && bitsN l 2 1 == 0 then some (.fatal .prot 1 0 false)
  else if w == .fetch && bitsN l 3 1 == 0 then some (.fatal .prot 1 0 false)
  else if hit then none
  else if !tagOk s al tag.1 tag.2 wr then some (.fatal .fown 1 (tag.1.toNat + tag.2.toNat * 4096) false)
  else if s.lineBad pa (bitsN l 10 1 == 1 && !wr) then some (.fatal .memerr 1 0 false)
  else none

/-- The walker's and the slice's part of an access that goes through: D before the first write, the page's zeros made real
(R401), and the fill (R405), which a zero line does not need (R72). -/
def leafGo (s : State) (al va : Nat) (wr : Bool) (l : DWord) (pa ea : Nat) (block hit : Bool) : State :=
  let s := if wr && bitsN l 11 1 == 0 then s.leafStep ea leafD else s
  let z := bitsN l 10 1 == 1
  let s := if wr && z then s.makeZeros al va pa ea block else s
  if hit || (z && !wr) then s else s.fillSlice al pa l

/-- Translates a virtual address for an access of an agent of a plot, which keeps the translation (R402): the walker sets A when it
loads one (R401); then permissions, ownership, and the updates of a write. It answers the physical address, and whether the
page reads as zeros. -/
def access (s : State) (p al va : Nat) (w : Want) (v : View := .home) (e : Eng := .plot) : Except Stop (State × Nat × Bool) :=
  match translate s p e al va with
  | .fail k => .error (.xlate k va)
  | .migrating => .error (.migrating va)
  | .memerr => .error (.fatal .memerr 1 0 true)
  | .leaf l ea block =>
    let pa := leafPa l block va
    let wr := w == .write
    let hit := (s.plot p).hits v pa wr
    match leafStop s al w l pa hit with
    | some st => .error st
    | none =>
      let s := if (s.tlb? p e al va).isNone then s.walkCharge al ea else s
      let s := if (s.tlb? p e al va).isNone && bitsN l 12 1 == 0 then s.leafStep ea leafA else s
      let s := leafGo s al va wr l pa ea block hit
      let l' := leafA (if wr then leafNoZ (leafD l) else l)
      .ok (s.onPlot p (fun q =>
        { q with tlb := { eng := e, al := al, vpn := va / 65536, leaf := l', ea := ea, block := block } ::
            q.tlb.filter (fun t => t.eng != e || t.al != al || t.vpn != va / 65536) }), pa, bitsN l 10 1 == 1 && !wr)

/-- What the walk of an access that stops leaves behind: A of the leaf that it loaded (R401). -/
def State.walked (s : State) (p al va : Nat) (e : Eng := .plot) : State :=
  match s.tlb? p e al va, walk s al va with
  | none, .leaf _ ea _ => (s.walkCharge al ea).leafStep ea leafA
  | _, _ => s

/-- What the walk of an access of an agent leaves behind, also where the access is refused: A of the leaf (R401). -/
def State.sees (s : State) (al va : Nat) : State :=
  match walk s al va with
  | .leaf _ ea _ => (s.walkCharge al ea).leafStep ea leafA
  | _ => s

/-- The same for an access of `n` bytes, which may reach into the next page. -/
def State.seesTo (s : State) (al va n : Nat) : State := (s.sees al va).sees al (va + n - 1)

/-- Translates a virtual address for an access of the dispatcher or the balance engine, which act for an allotment. -/
def agentAccess (s : State) (al va : Nat) (w : Want) : Except Stop (State × Nat × Bool) :=
  match walk s al va with
  | .fail k => .error (.xlate k va)
  | .migrating => .error (.migrating va)
  | .memerr => .error (.fatal .memerr 1 0 true)
  | .leaf l ea block =>
    let pa := leafPa l block va
    match leafStop s al w l pa false with
    | some st => .error st
    | none =>
      let s := s.walkCharge al ea
      let s := if bitsN l 12 1 == 0 then s.leafStep ea leafA else s
      .ok (leafGo s al va (w == .write) l pa ea block false, pa, bitsN l 10 1 == 1 && w != .write)

/-- The location of a commons offset (R75): window bank by line, then the byte in that bank. The bank list is read at every
access (log 75, DESIGN CHOICE: the spec says when the block is copied, R422, and not when the list is read). -/
def commonsAddr (s : State) (al off : Nat) : Nat :=
  let a := s.acb al
  let b := acbCmnb a
  let line := off / 128
  let bank := s.dpRead (byteN a 40 8 + line % b) 1 al
  bank / 64 * 2 ^ 26 + bank % 64 * 2 ^ 20 + line / b * 128 + off % 128

/-- The peer allotment on a device that an allotment's remote accesses name (R434): of the lowest-numbered valid entry. -/
def peerOf (s : State) (al dev : Nat) : Option Nat :=
  let a := s.acb al
  let n := bitsN a (8 * 0x38) 12
  let ents := (List.range n).map (fun i => s.dpRead (byteN a 0x30 8 + 8 * i) 8 al)
  (ents.find? (fun e => e % 2048 == dev && e / 2048 % 2 == 1 && e / 4096 % 16 == 0 && e / 2 ^ 28 == 0)).map
    (fun e => e / 65536 % 4096)

/-- Takes the next choice among allowed outcomes for an access to another device, whose state is not the package's: 0 accepts,
1 refuses or cannot translate (R434). (Log 35, DESIGN CHOICE.) -/
def State.remoteAnswer (s : State) : Nat × State := s.choose

/-- A request to a peer allotment goes out (R433, R434, R437); `a` is the address in the peer's own form. -/
def State.askPeer (s : State) (al dev pal a : Nat) (w : Bool) : State :=
  s.fabricSend { dest := BitVec.ofNat 11 dev, peer := BitVec.ofNat 12 pal, reqa := BitVec.ofNat 12 al, line := a / 128
                 msg := .request (BitVec.ofNat 64 a) w }

/-- The location of a remote address (R434, R437): the peer allotment's byte at its own address `a`, to which a request goes. XLATE of
kind 7 without a peer entry, and where the target refuses or cannot translate; MEMERR without a port. -/
def remoteLoc (s : State) (c : Cast) (dev a : Nat) (w : Want) : Except Stop (State × Loc × Bool) :=
  let fa := a + 2 ^ 59 + dev * 2 ^ 48
  match peerOf s c.al dev with
  | none => .error (.xlate 7 fa)
  | some pal =>
    if (s.routePort dev (a / 128)).isNone then .error (.fatal .memerr 1 0 false)
    else
      let (n, s) := s.remoteAnswer
      if n = 1 then .error (.xlate 7 fa)
      else .ok (s.askPeer c.al dev pal a (w == .write), .peer ((dev * 4096 + pal) * 2 ^ 62 + a), false)

/-- Resolves a checked address of a cast to a location, with translation (R63, steps 5 and 6). The last part
says that a GLOBAL or READONLY page reads as zeros. `v` says where a GLOBAL access is made, `e` which agent of the plot makes it. -/
def resolve (s : State) (c : Cast) (cid : Nat) (sp : Space) (w : Want) (v : View := .home) (e : Eng := .plot) :
    Except Stop (State × Loc × Bool) :=
  match sp with
  | .glob va =>
    match access s c.plot c.al va w v e with
    | .error e => .error e
    | .ok (s, pa, z) => .ok (s, .home pa, z)
  | .ro va =>
    match access s c.plot c.al va w (if e = .plot then .ro else v) e with
    | .error e => .error e
    | .ok (s, pa, z) => .ok (s, .home pa, z)
  | .cmn off => .ok (s, .bank (commonsAddr s c.al off), false)
  | .scr off => .ok (s, .scr cid off, false)
  | .opd off => .ok (s, .opd cid off, false)
  | .rglob dev va => remoteLoc s c dev va w
  | .rcmn dev off => remoteLoc s c dev (2 ^ 61 + off) w
  | .bad => .error (.fatal .path 0 0 false)

/-! ### Read-only fields of structures in memory (R9) -/

/-- The physical address that a virtual address of an allotment has, where the walk finds one. -/
def State.paOf (s : State) (al va : Nat) : Option Nat :=
  match walk s al va with
  | .leaf l _ b => some (leafPa l b va)
  | _ => none

/-- How far a physical address lies behind a virtual one, within the page. -/
def pageDist (va pa : Nat) : Nat := (pa % 65536 + 65536 - va % 65536) % 65536

/-- Whether a physical address is a byte of STATUS, PERF, PERDONE or RUNW of a graph's descriptor (R324). -/
def State.graphRo (s : State) (al : Nat) (g : Graph) (pa : Nat) : Bool :=
  let i := pageDist g.addr pa
  g.st != .unbound && ((decide (44 ≤ i) && decide (i < 52)) || (decide (56 ≤ i) && decide (i < 64))) &&
    s.paOf al (g.addr + i) == some pa

/-- The output region of a cast (R32): OUTBASE + cast index × OUTSTRIDE. -/
def Cast.outVa (c : Cast) : DWord := BitVec.ofNat 64 (byteN c.desc 48 8 + c.ix * byteN c.desc 36 4)

/-- Whether a physical address is a byte of COUNT or of a committed record of a cast (R32). -/
def State.outRo (s : State) (c : Cast) (pa : Nat) : Bool :=
  let va := c.outVa.toNat % 2 ^ 48
  let n := 8 + 8 * c.committed
  byteN c.desc 56 4 != 0 && (List.range (n / 65536 + 1)).any (fun m =>
    let i := 65536 * m + pageDist va pa
    decide (i < n) && s.paOf c.al (va + i) == some pa)

/-- Whether a physical address is a byte of a read-only field that the device maintains: a store leaves it unchanged (R9). Of the
structures in memory these are the fields of the queue control blocks (R370), of the control blocks of active allotments (R422),
of the descriptors of graphs that are not UNBOUND (R324), and the output regions of casts that have not ended (R32); every other
field of a structure in memory holds what was written there last (R10). (Log 87, DEDUCED.) -/
def State.roByte (s : State) (pa : Nat) : Bool :=
  (s.acbRoByte pa).isSome ||
  (match s.qcbAt pa with
    | some (al, q, off) => ((((look s.allots al).map (fun (x : Allot) => x.queues.toList.getD q {})).getD {}).roByte off).isSome
    | none => false) ||
  s.allots.any (fun (al, a) => a.graphs.any (fun g => s.graphRo al g pa)) ||
  s.casts.any (fun (_, c) => s.outRo c pa)

/-- Whether one of `n` bytes at a physical address is read-only. -/
def State.roAny (s : State) (pa n : Nat) : Bool := (List.range n).any (fun i => s.roByte (pa + i))

/-! ### The plot's cache (R71, R215, R216) -/

/-- Writes a line's dirty bytes back to its home (R73, R215). -/
def wbBytes (m : List Host.Cell) (a : Nat) (data : BitVec 1024) (mask : BitVec 128) : Nat → List Host.Cell
  | 0 => m
  | n + 1 =>
    let m := wbBytes m a data mask n
    if mask.getLsbD n then Memory.setByte m (a + n) (BitVec.ofNat 8 (byteN data n 1)) else m

/-- The active allotment that holds a plot (R423). -/
def State.plotAllot (s : State) (p : Nat) : Option Nat := (s.allots.find? (fun (_, a) => a.plots.contains p)).map Prod.fst

/-- The charge of a write-back of a plot (R427): to the allotment that holds the plot, whose action causes it. -/
def State.plotCharge (s : State) (p : Nat) : Charge :=
  match s.plotAllot p with
  | some al => .caused al
  | none => .system

/-- Whether a write-back of a plot to a physical address is allowed (R405, R408): the frame is neither free nor under scrub,
and the plot's allotment may write it. -/
def State.wbOk (s : State) (p pa : Nat) : Bool :=
  match s.plotAllot p with
  | some al => ownOk s al pa true
  | none => decide (2 ≤ (s.frame (pa / 65536)).st.toNat)

/-- A byte of home memory takes the value that a plot's write-back gives it: no thread's hidden store, but for the one that the
plot's cache held (R65). -/
def State.ownBack (s : State) (p pa : Nat) (v : Byte) : State :=
  if s.owns.isEmpty then s
  else { s with owns := s.owns.map (fun o =>
    if o.pa = pa then (if o.cached = some p then { o with cached := none } else { o with old := v }) else o) }

/-- Bytes that a plot's cache holds from a physical address on take a store: they are no longer an earlier one (R65). -/
def State.ownCached (s : State) (p pa n : Nat) : State :=
  if s.owns.isEmpty then s
  else { s with owns := s.owns.map (fun o =>
    if pa ≤ o.pa ∧ o.pa < pa + n ∧ o.cached = some p then { o with cached := none } else o) }

/-- Writes back one line of a plot; a write-back that is refused is discarded (R405, R408). A line that is written whole can be
read again (R446). -/
def State.writeBack (p : Nat) (s : State) (l : Line) : State :=
  if l.dirty = 0 then s
  else
    if !s.wbOk p (l.n * 128) then s
    else
      let s := if (s.sline? l.n).isSome then s else s.charge (memArb (l.n * 128)) (s.plotCharge p) 1
      let s := s.realise (l.n * 128 / 65536)
      let s := { s with mem := wbBytes s.mem (l.n * 128) l.data l.dirty 128 }.written (l.n * 128)
        (if l.dirty = BitVec.allOnes 128 then 128 else 1)
      (List.range 128).foldl (fun s i =>
        if l.dirty.getLsbD i then (s.ownBack p (l.n * 128 + i) (BitVec.ofNat 8 (byteN l.data i 1))).qcbNote (l.n * 128 + i)
        else s) s

/-- Marks a line clean (R216). -/
def Line.clean (l : Line) : Line := { l with dirty := 0, stamp := 0 }

/-- Writes back the lines of a plot's cache that a test picks; they stay, clean. -/
def State.writeBackIf (s : State) (p : Nat) (f : Line → Bool) : State :=
  let ls := (s.plot p).cache
  let s := (ls.filter f).foldl (State.writeBack p) s
  s.onPlot p (fun q => { q with cache := ls.map (fun l => if f l then l.clean else l) })

/-- Writes back and invalidates a plot's own copy of a line (R233, R279). -/
def State.expel (s : State) (p ln : Nat) : State :=
  match (s.plot p).cache.find? (fun l => l.n == ln) with
  | none => s
  | some l => (s.writeBack p l).onPlot p (fun q => { q with cache := q.cache.filter (fun l => l.n != ln) })

/-- The line a plot's cache holds after a fill from home (R72, R215). -/
def State.lineOf (s : State) (p ln : Nat) (z : Bool) : Line :=
  match (s.plot p).cache.find? (fun l => l.n == ln) with
  | some l => l
  | none => { n := ln, data := if z then 0 else BitVec.ofNat 1024 (s.homeRead (ln * 128) 128), dirty := 0, stamp := 0 }

/-- The ways of a plot's cache: its cache-role banks (R71). -/
def Plot.ways (p : Plot) : Nat := (p.roles.toList.filter (fun r => r == 0)).length

/-- Puts a line at the front of a plot's cache, whose lines stand in the order of their last uses. -/
def Plot.putLine (p : Plot) (l : Line) : Plot := { p with cache := l :: p.cache.filter (fun m => m.n != l.n) }

/-- The line that a set of a plot's cache gives up where it holds more lines than ways (R71): the one used longest ago.
(Log 54, DESIGN CHOICE.) -/
def Plot.victim (p : Plot) (set : Nat) : Option Nat :=
  let l := p.cache.filter (fun m => m.n % 256 == set)
  if p.ways < l.length then l.getLast?.map Line.n else none

/-- A line is used in a plot's cache, and its set evicts a line where it holds more than it has ways (R71, R215). -/
def State.useLine (s : State) (p : Nat) (l : Line) : State :=
  let s := s.onPlot p (fun q => q.putLine l)
  match (s.plot p).victim (l.n % 256) with
  | some n => s.expel p n
  | none => s

/-- A plot's cache gives up the lines that its cache-role banks no longer hold (R66, R71), up to `m` of them. -/
def State.trimCache (p : Nat) : Nat → State → State
  | 0, s => s
  | m + 1, s =>
    match (List.range 256).findSome? (fun i => (s.plot p).victim i) with
    | some n => State.trimCache p m (s.expel p n)
    | none => s

/-- A line with `n` bytes stored from offset `o`; its stamp is RSEQ + 1 where it was clean (R216). -/
def Line.store (l : Line) (rseq : Word) (o n v : Nat) : Line :=
  let keep : BitVec 1024 := ~~~((BitVec.ofNat 1024 (2 ^ (8 * n) - 1)) <<< (8 * o))
  { l with
    data := (l.data &&& keep) ||| (BitVec.ofNat 1024 (v % 2 ^ (8 * n)) <<< (8 * o))
    dirty := l.dirty ||| (BitVec.ofNat 128 (2 ^ n - 1) <<< o)
    stamp := if l.dirty = 0 then rseq + 1 else l.stamp }

/-- Reads `n` bytes at a location (R215, R225, R279). -/
def State.readAt (s : State) (p : Nat) (v : View) (l : Loc) (z : Bool) (n : Nat) : State × Nat :=
  match l with
  | .home pa =>
    if v == .plot && (s.plot p).hasCache then
      let ln := s.lineOf p (pa / 128) z
      (s.useLine p ln, byteN ln.data (pa % 128) n)
    else
      let s := s.expel p (pa / 128)
      (s, if z then 0 else s.homeRead pa n)
  | .bank a => (s, Memory.read s.cmn a n)
  | .scr c o => (s, ((look s.casts c).map (fun k => Memory.read k.scr o n)).getD 0)
  | .opd c o => (s, ((look s.casts c).map (fun k => Memory.read k.opd o n)).getD 0)
  | .peer a => (s, Memory.read s.peers a n)

/-- A write at a home slice (R215): where the frame's entry no longer lets it be written back, it is discarded, and the slice's
line with it (R405). -/
def State.sliceWrite (s : State) (pa n x : Nat) : State :=
  if (s.frame (pa / 65536)).st = 2 then s.homeWrite pa n x
  else { s with slines := s.slines.filter (fun l => l.n != pa / 128) }

/-- Writes `n` bytes of GLOBAL memory from a plot (R215, R225, R233). -/
def State.putHome (s : State) (p : Nat) (v : View) (pa n x : Nat) : State :=
  if v == .plot && (s.plot p).hasCache then
    let ln := s.lineOf p (pa / 128) false
    (s.ownCached p pa n).useLine p (ln.store (s.plot p).rseq (pa % 128) n x)
  else (s.expel p (pa / 128)).sliceWrite pa n x

/-- Performs `f` for each of `n` bytes at a physical address that is not read-only, with the byte of `x` (R9). -/
def State.softBytes (s : State) (f : State → Nat → Nat → State) (pa n x : Nat) : State :=
  (List.range n).foldl (fun t i => if s.roByte (pa + i) then t else f t (pa + i) (x / 256 ^ i % 256)) s

/-- Writes `n` bytes at a location, but for the bytes of read-only fields (R9, R215, R225, R233). -/
def State.writeAt (s : State) (p : Nat) (v : View) (l : Loc) (n x : Nat) : State :=
  match l with
  | .home pa =>
    if s.roAny pa n then s.softBytes (fun s a y => s.putHome p v a 1 y) pa n x else s.putHome p v pa n x
  | .bank a => { s with cmn := Memory.write s.cmn a n x }
  | .scr c o => s.onCast c (fun k => { k with scr := Memory.write k.scr o n x })
  | .opd c o => s.onCast c (fun k => { k with opd := Memory.write k.opd o n x })
  | .peer a => { s with peers := Memory.write s.peers a n x }

/-- The READONLY path and the instruction path (R65, R171): a copy that the plot holds, else a fill from home.
(Log 55, DEDUCED.) -/
def State.readOnly (s : State) (p pa : Nat) (z : Bool) (n : Nat) : State × Nat :=
  match (s.plot p).roc.find? (fun l => l.n == pa / 128) with
  | some l => (s, byteN l.data (pa % 128) n)
  | none =>
    let d : BitVec 1024 := if z then 0 else BitVec.ofNat 1024 (s.homeRead (pa / 128 * 128) 128)
    (s.onPlot p (fun q => { q with roc := { n := pa / 128, data := d, dirty := 0, stamp := 0 } :: q.roc }),
      byteN d (pa % 128) n)

/-! ### Instruction fetch (R60, R120, R171) -/

/-- Reads a halfword on the instruction path at a physical address. (Log 55, DEDUCED.) -/
def State.readInstr (s : State) (p pa : Nat) : State × Nat :=
  match (s.plot p).ic.find? (fun l => l.n == pa / 128) with
  | some l => (s, byteN l.data (pa % 128) 2)
  | none =>
    let d : BitVec 1024 := BitVec.ofNat 1024 (s.homeRead (pa / 128 * 128) 128)
    (s.onPlot p (fun q => { q with ic := { n := pa / 128, data := d, dirty := 0, stamp := 0 } :: q.ic }),
      byteN d (pa % 128) 2)

/-- Fetches one halfword at a GLOBAL, local address for a cast (R60, R120). -/
def fetchHalf (s : State) (c : Cast) (a : DWord) : Except Stop (State × Nat) :=
  match classify 0 a with
  | .glob va =>
    if bitsN a 59 1 = 1 then .error (.fatal .path 0 0 false)
    else match access s c.plot c.al va .fetch .instr with
      | .error e => .error e
      | .ok (s, pa, z) => if z then .ok (s, 0) else .ok (s.readInstr c.plot pa)
  | _ => .error (.fatal .path 0 0 false)

/-- Fetches a 32-bit word, low halfword first. -/
def fetchWord (s : State) (c : Cast) (a : DWord) : Except Stop (State × Nat) :=
  match fetchHalf s c a with
  | .error e => .error e
  | .ok (s, lo) =>
    match fetchHalf s c (a + 2) with
    | .error e => .error e
    | .ok (s, hi) => .ok (s, lo + 65536 * hi)

/-! ### Release, acquire, promotion (R217, R223 to R230) -/

/-- A sequence number at or below another, as serial numbers (R223). -/
def seqLe (a c : Word) : Bool := decide ((c - a).toNat < 2 ^ 31)

/-- Writes back every dirty line of a plot (R217). -/
def State.flushPlot (s : State) (p : Nat) : State := s.writeBackIf p (fun _ => true)

/-- A release at a scope code (R217): from die scope on, the write-back of every dirty line and an empty log. -/
def State.release (s : State) (p scope : Nat) : State :=
  if scope < 2 then s else (s.flushPlot p).onPlot p (fun q => { q with log := [] })

/-- An acquire at a scope code (R217): from die scope on, the write-back and invalidation of every GLOBAL line. -/
def State.acquire (s : State) (p scope : Nat) : State :=
  if scope < 2 then s else (s.flushPlot p).onPlot p (fun q => { q with cache := [] })

/-- A slice of the shared cache evicts a line: its data are the home memory's (R405). A dirty line is written whole, and memory can
read it again (R446). -/
def State.evictShared (s : State) (ln : Nat) : State :=
  let s := if s.slines.any (fun l => l.n == ln && l.dirty) then s.charge (memArb (ln * 128)) (s.ownerCharge (ln * 128)) 1 else s
  { s with
    slines := s.slines.filter (fun l => l.n != ln)
    errLines := if s.slines.any (fun l => l.n == ln && l.dirty) then s.errLines.filter (fun l => l != ln) else s.errLines }

/-- Serves a plot's lines and log entries up to a sequence number (R224, R229). -/
def State.promoteTo (s : State) (p : Nat) (c : Word) : State :=
  (s.writeBackIf p (fun l => l.isDirty && seqLe l.stamp c)).onPlot p
    (fun q => { q with log := q.log.filter (fun e => !seqLe e c) })

/-- A promotable plot-scope release takes the next sequence number s (R224). The store or atomic that it carries is performed while
RSEQ is still s - 1, so that its line receives the stamp s of R216 where it was clean. -/
def State.promoBegin (s : State) (p : Nat) : State := s.onPlot p (fun q => { q with rseq := q.rseq + 1 })

/-- The end of a promotable release (R224): an entry is appended; a full log first promotes its oldest entry. -/
def State.promoEnd (s : State) (p : Nat) : State :=
  let s := match (s.plot p).log with
    | e :: _ => if 32 ≤ (s.plot p).log.length then s.promoteTo p e else s
    | [] => s
  s.onPlot p (fun q => { q with log := q.log ++ [q.rseq] })

/-! ### Wake events (R238) -/

/-- Whether a waiter waits on the word at a location. -/
def Loc.sameWord (a b : Loc) : Bool :=
  match a, b with
  | .home x, .home y => x / 4 == y / 4
  | .bank x, .bank y => x / 4 == y / 4
  | .scr c x, .scr d y => c == d && x / 4 == y / 4
  | .opd c x, .opd d y => c == d && x / 4 == y / 4
  | .peer x, .peer y => x / 4 == y / 4
  | _, _ => false

/-- A thread whose WAITA on the location's word has seen a wake event. -/
def Thread.wake (t : Thread) (l : Loc) : Thread :=
  match t.st with
  | .blocked (.waita w) => if !w.lost && w.loc.sameWord l then { t with st := .blocked (.waita { w with woken := true }) } else t
  | _ => t

/-- Wakes every waiter on the words of a location: `n` bytes from it (R238). -/
def State.wake (s : State) (l : Loc) : State :=
  { s with casts := s.casts.map (fun (n, c) => (n, { c with threads := c.threads.map (fun (i, t) => (i, t.wake l)) })) }

/-- The location `n` bytes further. -/
def Loc.add (l : Loc) (n : Nat) : Loc :=
  match l with
  | .home a => .home (a + n)
  | .bank a => .bank (a + n)
  | .scr c a => .scr c (a + n)
  | .opd c a => .opd c (a + n)
  | .peer a => .peer (a + n)

/-- Wakes the waiters on each word of `n` bytes from a location. -/
def State.wakeRange (s : State) (l : Loc) (n : Nat) : State :=
  (List.range ((n + 3) / 4)).foldl (fun s i => s.wake (l.add (4 * i))) s

/-- Whether a location is in a scratch region: every write there wakes its waiters (R238). -/
def Loc.isScr : Loc → Bool
  | .scr _ _ => true
  | _ => false

/-- A plain write: it wakes the waiters on a scratch word only (R238). -/
def State.storeAt (s : State) (p : Nat) (v : View) (l : Loc) (n x : Nat) : State :=
  let s := s.writeAt p v l n x
  if l.isScr then s.wakeRange l n else s

/-- A write that the device performs at a home, which wakes no waiter (R238). -/
def State.quietWrite (s : State) (l : Loc) (n x : Nat) : State :=
  match l with
  | .home pa => if s.roAny pa n then s.softBytes (fun s a y => s.sliceWrite a 1 y) pa n x else s.sliceWrite pa n x
  | l => s.writeAt 0 .home l n x

/-- A write that the device performs as an allotment-scope release at a home (R238): it wakes the word's waiters. -/
def State.deviceWrite (s : State) (l : Loc) (n x : Nat) : State := (s.quietWrite l n x).wakeRange l n

/-- Whether one of the lines of `n` bytes at a physical address cannot be read (R421). -/
def State.linesBad (s : State) (pa n : Nat) (z : Bool) : Bool :=
  (s.errLines ++ s.lostLines).any (fun l => decide (pa / 128 ≤ l) && decide (l * 128 < pa + n) && s.lineBad (l * 128) z)

/-- Reads up to 64 KiB of GLOBAL memory for an allotment at allotment scope, without a plot: at the home, in the pages
that hold it. -/
def State.agentGet (s : State) (al va n : Nat) : Except Stop (State × Nat) :=
  let m := 65536 - va % 65536
  match agentAccess s al va .read with
  | .error e => .error e
  | .ok (s, pa, z) =>
    if s.linesBad pa (min n m) z then .error (.fatal .memerr 1 0 false)
    else
      let lo := if z then 0 else s.homeRead pa (min n m)
      if n ≤ m then .ok (s, lo)
      else match agentAccess s al (va + m) .read with
        | .error e => .error e
        | .ok (s, pa, z) =>
          if s.linesBad pa (n - m) z then .error (.fatal .memerr 1 0 false)
          else .ok (s, lo + 256 ^ m * (if z then 0 else s.homeRead pa (n - m)))

/-- Writes `n` bytes within one page for an allotment at allotment scope, without a plot; `wake` says that it is one of the
releases that wake waiters (R238). -/
def State.agentPut (s : State) (al va n v : Nat) (wake : Bool) : Except Stop State :=
  (agentAccess s al va .write).map (fun (s, pa, _) =>
    let s := s.sliceWrite pa n v
    if wake then s.wakeRange (.home pa) n else s)

/-- The address value of a GLOBAL, local address, where it is one (R58). -/
def globalVa (a : DWord) : Option Nat := if bitsN a 48 16 = 0 then some (bitsN a 0 48) else none

/-! ### Accesses of the device's agents for a cast -/

/-- A write of `n` bytes within one page, translated and checked for an allotment, at the home (R466). -/
def State.putVirt (s : State) (p al va n v : Nat) : Except Stop State :=
  match access s p al va .write with
  | .error e => .error e
  | .ok (s, pa, _) => .ok (s.writeAt p .home (.home pa) n v)

/-- Writes of `m` pieces of `n` bytes each, from a virtual address on; one that does not go through answers its address. -/
def State.putVirts (s : State) (p al va n v : Nat) : Nat → Except (Stop × Nat) State
  | 0 => .ok s
  | m + 1 =>
    match s.putVirt p al va n (v % 2 ^ (8 * n)) with
    | .error e => .error (e, va)
    | .ok s => s.putVirts p al (va + n) n (v / 2 ^ (8 * n)) m

/-- A read of `n` bytes within one page, translated and checked for an allotment, at the home. -/
def State.getVirt (s : State) (p al va n : Nat) : Except Stop (State × Nat) :=
  match access s p al va .read with
  | .error e => .error e
  | .ok (s, pa, z) => .ok (s.readAt p .home (.home pa) z n)

end Sys2Proof.Machine
end

