-- ==== Sys2Proof/Machine/Ops.lean ====
section
/-!
DEFINITION. The named operations over a cast: waits that try again, region leases, the failure of a cast, taking a
fault (R43, R415, R417: the one shared operation), and the prologue of every instruction word (R51, R52, R133).
-/

namespace Sys2Proof.Machine

open Sys2Proof

/-! ### Waits at issue (R40) -/

/-- The ceiling that a wait keeps of its issue (R425). -/
def Wait.ceil : Wait → Option Nat
  | .waitc c => some c
  | _ => none

/-- A thread that waits at its instruction in a way a test picks becomes READY and tries again (R40). -/
def Thread.retry (f : Wait → Bool) (t : Thread) : Thread :=
  match t.st with
  | .blocked w => if f w then { t with st := .ready, timer := 0, wceil := w.ceil } else t
  | _ => t

/-- The threads of a cast that wait in a way a test picks try again. One that leaves its EMIT stall ends the situation of R31, and
with it the choice of a thread to displace. -/
def Cast.retry (f : Wait → Bool) (c : Cast) : Cast :=
  { c with
    threads := c.threads.map (fun (i, t) => (i, t.retry f))
    displaced := if f .emit && c.threads.any (fun (_, t) => t.st == .blocked .emit) then none else c.displaced }

/-- The threads of a plot's casts that wait in a way a test picks try again. -/
def State.retry (s : State) (p : Nat) (f : Wait → Bool) : State :=
  { s with casts := s.casts.map (fun (n, c) => (n, if c.plot = p then c.retry f else c)) }

/-- Waits for room: a counter, the operand log, the script's window, a slate, an order of held accesses. -/
def Wait.room : Wait → Bool
  | .issue => true
  | .order => true
  | .waitc _ => true
  | _ => false

/-- Waits for the emit buffer (R30). -/
def Wait.emitRoom : Wait → Bool
  | .emit => true
  | _ => false

/-! ### Taking a fault (R43, R415 to R417) -/

/-- The number of a fault code (R416). -/
def FCode.num : FCode → Nat
  | .ill => 0x01 | .pend => 0x02 | .align => 0x03 | .path => 0x04 | .xlate => 0x05 | .prot => 0x06
  | .fown => 0x07 | .scope => 0x08 | .bcnt => 0x09 | .bdepth => 0x0A | .seedfull => 0x0B | .budget => 0x0C
  | .barcnt => 0x0D | .plotid => 0x0E | .outlmax => 0x0F | .slate => 0x10 | .mxcmd => 0x11 | .mxfuse => 0x12
  | .grate => 0x13 | .gdead => 0x14 | .gbusy => 0x15 | .digest => 0x16 | .trap => 0x17 | .brk => 0x18
  | .wdog => 0x19 | .memerr => 0x1A | .priv => 0x1B | .emitfull => 0x1C

/-- Puts a record in the queue of records to be written and numbers it (R417, R420). -/
def State.record (s : State) (r : FaultRec) : State :=
  { s with
    faultQ := s.faultQ ++ [{ r with seq := s.faultSeq, time := s.dieClk.setWidth 32 }]
    faultSeq := s.faultSeq + 1 }

/-- A saturating 32-bit sum (R422 CLAMPS). -/
def satAdd32 (a : Word) (n : Nat) : Word := if a.toNat + n < 2 ^ 32 then BitVec.ofNat 32 (a.toNat + n) else BitVec.allOnes 32

/-- What a plot drops when a cast leaves it: its bank roles, its tiles' cells, its held accesses, copies and
commands, its place in the turn and in the round-robin. -/
def Plot.dropCast (p : Plot) (cid : Nat) (c : Cast) : Plot :=
  { p with
    roles := (c.scrBanks ++ c.opdBanks).foldl (fun r b => r.setIfInBounds b 0) p.roles
    tiles := p.tiles.filter (fun e => !(c.tiles.contains (e.1 / 16384)))
    oplog := p.oplog.filter (fun h => h.cid != cid)
    copies := p.copies.filter (fun k => k.cid != cid)
    issuing := p.issuing.filter (fun e => e.1 != cid)
    bundles := p.bundles.map (fun b => b.filter (fun e => e.1 != cid))
    script := p.script.filter (fun k => k.cid != cid)
    mxws := p.mxws.filter (fun k => k.cid != cid)
    rr := p.rr.filter (fun k => k != cid)
    turn := if p.turn.holder.any (fun h => h.1 == cid) then { last := p.turn.last } else p.turn }

/-- Adds the crews' clamp counts to the allotment's sum at a cast's end, and writes it to the control block (R422, R426). -/
def State.addClamps (s : State) (c : Cast) : State :=
  match look s.allots c.al with
  | none => s
  | some a =>
    let v := satAdd32 a.clamps ((c.crews.map (fun w => w.clampn.toNat)).sum)
    (s.onAllot c.al (fun a => { a with clamps := v })).dpWrite (a.acbA + 0x54) 4 v.toNat c.al

/-- Inserts a failed cast in increasing index (R384). -/
def insFail (l : List (Nat × BitVec 8)) (n : Nat) (v : BitVec 8) : List (Nat × BitVec 8) :=
  match l with
  | [] => [(n, v)]
  | (m, w) :: r => if n < m then (n, v) :: (m, w) :: r else (m, w) :: insFail r n v

/-- Marks a firing as ended, and counts its period (R334). -/
def Graph.endFiring (g : Graph) (f : FireRef) : Graph :=
  let g : Graph := { g with firings := g.firings.map (fun x => if x.k = f.k ∧ x.j = f.j ∧ x.eos = f.eos then { x with ended := true } else x) }
  if f.eos then g else { g with perEnds := put g.perEnds f.k ((look g.perEnds f.k).getD 0 + 1) }

/-- A firing that fails (R339): no further firing starts; the first failure's code is kept. -/
def Graph.fireFail (g : Graph) (f : FireRef) (code : BitVec 8) : Graph :=
  { g.endFiring f with failed := some (g.failed.getD code) }

/-! ### Regions and leases (R376 to R379) -/

/-- Adds to a 64-bit field of a region node in memory, at its home; while the node's page is under migration, the step waits (R414). -/
def State.nodeAdd (s : State) (al : Nat) (node : DWord) (o : Nat) (v : Int) : State :=
  let va := bitsN node 0 48 + o
  match s.agentGet al va 8 with
  | .error (.migrating _) => s.onAllot al (fun a => { a with owed := a.owed ++ [(node, o, v)] })
  | .error _ => s.seesTo al va 8
  | .ok (s, x) => (s.agentPut al va 8 (BitVec.ofInt 64 ((x : Int) + v)).toNat false).toOption.getD (s.seesTo al va 8)

/-- The steps on region nodes that have waited for a page come now (R414). -/
def State.payOwed (s : State) (al : Nat) : State :=
  match look s.allots al with
  | none => s
  | some a =>
    if a.owed.isEmpty then s
    else a.owed.foldl (fun s (n, o, v) => s.nodeAdd al n o v) (s.onAllot al (fun a => { a with owed := [] }))

/-- Returns the unspent part of a cast's lease to the buckets that it was charged to (R378). -/
def State.returnLease (s : State) (c : Cast) : State :=
  if c.lease = 0 then s else c.leased.foldl (fun s n => s.nodeAdd c.al n 40 c.lease) s

/-! ### The failure of a cast (R43) -/

/-- What a cast that leaves a plot returns: its lease, and its place on the plot. -/
def State.leave (s : State) (cid : Nat) (c : Cast) : State :=
  let s := s.returnLease c
  let s := s.onPlot c.plot (fun p => p.dropCast cid c)
  let s : State := { s with casts := del s.casts cid, owns := s.owns.filter (fun o => o.cid != cid) }
  s.retry c.plot (fun w => w.room || w.emitRoom)

/-- Counts a failed cast: for its scene (R384, R385), or as the failure of its graph's firing (R339). -/
def State.countFail (s : State) (c : Cast) (code : FCode) : State :=
  let v : BitVec 8 := BitVec.ofNat 8 code.num
  match c.fire with
  | some f =>
    let s : State := { s with scenes := del s.scenes c.scene }
    s.onAllot c.al (fun a => { a with graphs := a.graphs.modify f.g (fun g => g.fireFail f v) })
  | none =>
    s.onScene c.scene (fun sc =>
      { sc with
        fails := insFail sc.fails c.ix v
        digests := put sc.digests c.ix c.digest
        stopped := sc.stopped || sc.fdom == 1 })

/-- A fatal fault fails its cast (R43): every thread ends, the seedbed and the buffered records are discarded,
committed records stay, and the cast's slots, banks, tiles and reels return to the plot. -/
def State.failCast (s : State) (cid : Nat) (code : FCode) : State :=
  match look s.casts cid with
  | none => s
  | some c => ((s.leave cid c).addClamps c).countFail c code

/-- The COHORT flag (R382). -/
def descCohort (d : BitVec 1024) : Bool := bitsN d (8 * 31) 1 == 1
/-- The dispatcher's state of a queue. -/
def State.queue (s : State) (al q : Nat) : QState := ((look s.allots al).bind (fun a => a.queues.toList[q]?)).getD {}

/-- Whether a core repair in progress stops a cast (R443, step 2): one on the core, or of a COHORT scene with a cast there. -/
def State.repairing (s : State) (c : Cast) : Bool :=
  match s.win.crep with
  | none => false
  | some k =>
    c.st != .listWait &&
      (c.plot / 4 == k || (descCohort c.desc && s.casts.any (fun (_, x) => x.scene == c.scene && x.plot / 4 == k && x.st != .listWait)))

/-- Whether a cast that a repair in progress stops is being saved or restored for pre-emption: the repair waits until that has finished
(R444). -/
def State.repairWaits (s : State) : Bool :=
  s.casts.any (fun (_, c) => s.repairing c && ((s.queue c.al c.qn).saving || (s.queue c.al c.qn).ctxst == 4))

/-- The code under which a fault fails a cast: MEMERR in step 2 of a core repair (R443). -/
def State.failCode (s : State) (cid : Nat) (code : FCode) : FCode :=
  if (look s.casts cid).any s.repairing && !s.repairWaits then .memerr else code

/-- A fault that is fatal to a cast: the record of R417 is queued, and the cast fails (R43). -/
def State.fatal (s : State) (cid : Nat) (r : FaultRec) : State :=
  let v := s.failCode cid r.code
  (s.record { r with code := v }).failCast cid v

/-- What an instruction of the current thread works on. -/
structure Ctx where
  r : TRef
  c : Cast
  t : Thread

/-- The crew of the context's thread (R22). -/
def Ctx.crewN (k : Ctx) : Nat := k.r.t / 32
/-- The crew's registers. -/
def Ctx.crew (k : Ctx) : Crew := k.c.crew k.crewN
/-- The lane of the context's thread (R22). -/
def Ctx.lane (k : Ctx) : Nat := k.r.t % 32

/-- Whether an access is one of a thread, and not of the committer, the seedbed or an engine for it. -/
def HeldKind.ofThread : HeldKind → Bool
  | .commit | .seed | .copy _ | .cmd _ => false
  | _ => true

/-- A thread, as accesses that it leaves behind name it: its key and depth (R17). -/
def Held.of (h : Held) (cid : Nat) (t : Thread) : Bool :=
  h.cid == cid && h.key == t.key && h.dep == t.dep && h.kind.ofThread

/-- The accesses that the context's thread has issued and that are not performed. -/
def Ctx.held (k : Ctx) (s : State) : List Held := (s.plot k.c.plot).oplog.filter (fun h => h.of k.r.c k.t)

/-- Whether the context's thread has accesses that are not performed; a release waits for them (R217). In ORDERED mode those of
its whole cast count: the cast's accesses are performed in step order (R345). -/
def Ctx.holds (k : Ctx) (s : State) : Bool :=
  if descDet k.c.desc = 1 then (s.plot k.c.plot).oplog.any (fun h => h.cid == k.r.c && h.kind.ofThread)
  else !(k.held s).isEmpty

/-- The record of a fault of a thread of a cast (R417). -/
def threadRec (s : State) (c : Cast) (slot : Nat) (t : Option Thread) (code : FCode) (cls : Nat)
    (info : Nat) (faddr : DWord) (acck : Acck) : FaultRec :=
  let sc := look s.scenes c.scene
  { code := code, cls := BitVec.ofNat 2 cls, agent := false, acck := acck
    dep := ((t.map (fun t => t.dep.toNat)).getD 0 : Nat)
    al := BitVec.ofNat 16 c.al, qn := BitVec.ofNat 8 c.qn, seq := 0
    subn := (sc.map Scene.subn).getD 0
    castix := BitVec.ofNat 32 c.ix
    slot := BitVec.ofNat 16 (if t.isSome then slot else 0xFFFF)
    plot := BitVec.ofNat 16 (s.relPlot c.al c.plot)
    iaddr := (t.map Thread.pc).getD 0
    faddr := faddr
    key := (t.map Thread.key).getD 0
    info := BitVec.ofNat 32 info, time := 0, both := cls != 2 }

/-- Whether the I/O die already holds the 256 records that it can hold while a ring is full: a thread that faults then
waits where it stands (R420). (Log 7, DEDUCED.) -/
def State.recFull (s : State) : Bool := decide (256 ≤ s.faultQ.length)

/-- Taking a fault that is fatal to the cast of the context's thread: the record of R417 is queued and the cast
fails (R43). Every precise fault of an instruction word goes through here; a precise one waits until the thread's earlier
accesses are performed, so that every earlier instruction has taken effect (R52, R53, R415). -/
def raiseWith (s : State) (k : Ctx) (code : FCode) (cls info : Nat) (faddr : DWord) (acck : Acck) : State :=
  if s.recFull then s.setThread k.r { k.t with st := .blocked .issue }
  else if cls == 0 && k.holds s then s.setThread k.r { k.t with st := .blocked .order }
  else s.fatal k.r.c (threadRec s k.c k.r.t (some k.t) code cls info faddr acck)

/-- A precise fault (class 0) with no data address (R415). -/
def raise (s : State) (k : Ctx) (code : FCode) : Out := .next (raiseWith s k code 0 0 0 .none)

/-- A precise fault that carries INFO (R417). -/
def raiseInfo (s : State) (k : Ctx) (code : FCode) (info : Nat) : Out := .next (raiseWith s k code 0 info 0 .none)

/-! ### The prologue of an instruction word (R133) -/

/-- The context of a thread that can execute: a live thread in READY of a cast that issues (R40, R42). (Log 11, DESIGN CHOICE.) -/
def State.ctx (s : State) : Option Ctx :=
  s.cur.bind fun r =>
    (look s.casts r.c).bind fun c =>
      if c.st = .resident ∨ c.st = .draining then
        (look c.threads r.t).bind fun t => if t.st = .ready then some { r := r, c := c, t := t } else none
      else none

/-- Stores the context's thread. -/
def State.putCtx (s : State) (k : Ctx) : State := s.setThread k.r k.t

/-- Blocks the context's thread at its instruction (R40). -/
def block (s : State) (k : Ctx) (w : Wait) : Out := .next (s.setThread k.r { k.t with st := .blocked w })

/-- A result that writes a register: one to x0 or k0 alone leaves nothing pending (R130, R150). -/
def Flight.writes (f : Flight) : Bool := f.dst.any (fun d => !d.1.isZero)

/-- Whether a register write of the thread is pending (R51). -/
def Thread.writing (t : Thread) : Bool := t.flights.any Flight.writes

/-- The common start of every instruction word (R133): ILL, then PRIV, then the cue point (R51), then PEND
(R52) over the registers read and written, then the instruction's own operation. -/
def prologue (ill priv q : Bool) (regs : List Dst) (s : State) (body : Ctx → Out) : Out :=
  match s.ctx with
  | none => .fault .noThread
  | some k =>
    if ill then raise s k .ill
    else if priv then raise s k .priv
    else if q && k.t.writing then .next (s.setThread k.r { k.t with st := .cueWait })
    else
      let t := if q then { k.t with pend := [] } else k.t
      if regs.any (fun d => t.pend.contains d) then raise s k .pend
      else body { k with t := t }

end Sys2Proof.Machine
end

