-- ==== Sys2Proof/Machine/Flags.lean ====
section
/-!
DEFINITION. Number formats, MODE, FLAGS and rounding (spec/03 R86 to R111): exact values, one rounding to a
format with the flags of R90, R91 and R105, arithmetic of floating-point values, comparisons, and conversions to
integers (R93, R94).
-/

namespace Sys2Proof.Machine

open Sys2Proof

/-! ### FLAGS (R107) -/

abbrev fNV : Word := 1
abbrev fDZ : Word := 2
abbrev fOF : Word := 4
abbrev fUF : Word := 8
abbrev fNX : Word := 16
abbrev fSAT : Word := 32
abbrev fOUT : Word := 64

/-- A flag where a condition holds. -/
def flagIf (b : Bool) (f : Word) : Word := if b then f else 0

/-! ### Formats (R86) -/

/-- A binary floating-point format: exponent and fraction bits. -/
structure Fmt where
  eb : Nat
  fb : Nat
  deriving DecidableEq, Repr

def fp32 : Fmt := ⟨8, 23⟩
def fp16 : Fmt := ⟨5, 10⟩
def bf16 : Fmt := ⟨8, 7⟩
def fp64 : Fmt := ⟨11, 52⟩

/-- The exponent bias (R86). -/
def Fmt.bias (f : Fmt) : Nat := 2 ^ (f.eb - 1) - 1
/-- The canonical NaN (R88). -/
def Fmt.nan (f : Fmt) : Nat := (2 ^ f.eb - 1) * 2 ^ f.fb + 2 ^ (f.fb - 1)
/-- An infinity. -/
def Fmt.inf (f : Fmt) (neg : Bool) : Nat := (if neg then 2 ^ (f.eb + f.fb) else 0) + (2 ^ f.eb - 1) * 2 ^ f.fb
/-- The largest finite value (R86). -/
def Fmt.maxFin (f : Fmt) (neg : Bool) : Nat := Fmt.inf f neg - 1
/-- A zero. -/
def Fmt.zero (f : Fmt) (neg : Bool) : Nat := if neg then 2 ^ (f.eb + f.fb) else 0

/-- A value: a NaN, an infinity, or a signed m × 2^e. -/
inductive FpVal where
  | nan (sig : Bool)
  | inf (neg : Bool)
  | fin (neg : Bool) (m : Nat) (e : Int)
  deriving DecidableEq, Repr

/-- Reads the bits of a format (R86); with `subn`, a subnormal as a zero of its sign (R91). -/
def Fmt.read (f : Fmt) (subn : Bool) (w : Nat) : FpVal :=
  let neg := w / 2 ^ (f.eb + f.fb) % 2 == 1
  let ex := w / 2 ^ f.fb % 2 ^ f.eb
  let fr := w % 2 ^ f.fb
  if ex = 2 ^ f.eb - 1 then (if fr = 0 then .inf neg else .nan (fr / 2 ^ (f.fb - 1) == 0))
  else if ex = 0 then .fin neg (if subn then 0 else fr) (1 - f.bias - f.fb)
  else .fin neg (2 ^ f.fb + fr) (ex - f.bias - f.fb)

/-! ### Rounding (R90, R91, R104, R105) -/

/-- Whether a discarded remainder `rem` of 2^sh rounds the magnitude up: nearest-even, toward zero, toward −∞,
toward +∞ (R104). -/
def roundUp (rnd : Nat) (neg : Bool) (odd : Bool) (rem sh : Nat) : Bool :=
  match rnd with
  | 0 => decide (2 ^ sh < 2 * rem) || (decide (2 * rem = 2 ^ sh) && odd)
  | 1 => false
  | 2 => neg && rem != 0
  | _ => !neg && rem != 0

/-- m × 2^e as an integer count of 2^qe, rounded, with whether it is inexact. -/
def quantise (rnd : Nat) (neg : Bool) (m : Nat) (e qe : Int) : Nat × Bool :=
  if qe ≤ e then (m * 2 ^ (e - qe).toNat, false)
  else
    let sh := (qe - e).toNat
    let q := m / 2 ^ sh
    let r := m % 2 ^ sh
    (if roundUp rnd neg (q % 2 == 1) r sh then q + 1 else q, r != 0)

/-- How a destination rounds (R104). -/
structure Rnd where
  rnd : Nat
  sat : Bool
  subn : Bool
  deriving DecidableEq, Repr

/-- Rounds the exact value ±m × 2^e once to a format: the bits and the flags (R90, R91, R105). -/
def Fmt.round (f : Fmt) (r : Rnd) (neg : Bool) (m : Nat) (e : Int) : Nat × Word :=
  if m = 0 then (f.zero neg, 0)
  else
    let big : Int := e + Nat.log2 m
    let emin : Int := 1 - f.bias
    let qe : Int := max (big - f.fb) (emin - f.fb)
    let (q, nx) := quantise r.rnd neg m e qe
    let (q, qe) := if q = 2 ^ (f.fb + 1) then (2 ^ f.fb, qe + 1) else (q, qe)
    let tiny := decide (big < emin) && decide ((quantise r.rnd neg m e (big - f.fb)).1 ≠ 2 ^ (f.fb + 1) ∨ big + 1 < emin)
    if 2 ^ f.fb ≤ q ∧ (f.bias : Int) < qe + f.fb then
      let infinite := match r.rnd with
        | 0 => true
        | 1 => false
        | 2 => neg
        | _ => !neg
      if infinite then (if r.sat then (f.maxFin neg, fOF ||| fNX ||| fSAT) else (f.inf neg, fOF ||| fNX))
      else (f.maxFin neg, fOF ||| fNX)
    else if q < 2 ^ f.fb then
      if r.subn && q != 0 then (f.zero neg, fUF ||| fNX)
      else (f.zero neg + q, flagIf nx fNX ||| flagIf (tiny && nx) fUF)
    else
      (f.zero neg + (qe - (emin - f.fb) + 1).toNat * 2 ^ f.fb + (q - 2 ^ f.fb), flagIf nx fNX ||| flagIf (tiny && nx) fUF)

/-! ### MODE (R104) -/

/-- The SUBN bit. -/
def modeSubn (m : Word) : Bool := m.getLsbD 22
/-- The STEP bit. -/
def modeStep (m : Word) : Bool := m.getLsbD 21
/-- The INTSAT bit. -/
def modeIntSat (m : Word) : Bool := m.getLsbD 20
/-- The INTRND code. -/
def modeIntRnd (m : Word) : Nat := bitsN m 18 2
/-- FP32's rounding, saturation and SUBN. -/
def modeF32 (m : Word) : Rnd := ⟨bitsN m 0 2, m.getLsbD 2, modeSubn m⟩
/-- FP16's. -/
def modeF16 (m : Word) : Rnd := ⟨bitsN m 3 2, m.getLsbD 5, modeSubn m⟩
/-- BF16's. -/
def modeB16 (m : Word) : Rnd := ⟨bitsN m 6 2, m.getLsbD 8, modeSubn m⟩
/-- The rounding code of a DB format, by its element width n (R97). -/
def modeDbRnd (m : Word) (n : Nat) : Nat := if n = 8 then bitsN m 9 2 else if n = 6 then bitsN m 12 2 else bitsN m 15 2
/-- The saturation bit of a DB format (R101). -/
def modeDbSat (m : Word) (n : Nat) : Bool := if n = 8 then m.getLsbD 11 else if n = 6 then m.getLsbD 14 else m.getLsbD 17
/-- Nearest-even, no saturation, subnormals honoured: engines, banks, and chains with STEP = 0 (R77, R91, R109). -/
def nearest : Rnd := ⟨0, false, false⟩

/-- The writable bits of MODE (R104). -/
def modeMask : Word := 0x007FFFFF
/-- The writable bits of FLAGS (R107). -/
def flagsMask : Word := 0x0000007F

/-! ### Exact arithmetic on values -/

/-- A value's signed integer at exponent e', where e' is at or below its own. -/
def scaled (neg : Bool) (m : Nat) (e e' : Int) : Int :=
  let v : Int := (m * 2 ^ (e - e').toNat : Nat)
  if neg then -v else v

/-- An exact result: a value, or an invalid operation. -/
inductive Exact where
  | val (v : FpVal)
  | invalid
  deriving DecidableEq, Repr

/-- A sum of two finite values, with the sign of an exact zero (R186). -/
def addFin (rnd : Nat) (n1 : Bool) (m1 : Nat) (e1 : Int) (n2 : Bool) (m2 : Nat) (e2 : Int) : FpVal :=
  let e := min e1 e2
  let v := scaled n1 m1 e1 e + scaled n2 m2 e2 e
  if v = 0 then .fin (if m1 = 0 ∧ m2 = 0 ∧ n1 = n2 then n1 else rnd == 2) 0 e
  else .fin (decide (v < 0)) v.natAbs e

/-- Whether a value is a signalling NaN (R88). -/
def FpVal.isSig : FpVal → Bool
  | .nan s => s
  | _ => false

/-- Whether a value is a NaN. -/
def FpVal.isNan : FpVal → Bool
  | .nan _ => true
  | _ => false

/-- The negative of a value. -/
def FpVal.neg : FpVal → FpVal
  | .nan s => .nan s
  | .inf n => .inf (!n)
  | .fin n m e => .fin (!n) m e

/-- x + y (R186). -/
def FpVal.add (rnd : Nat) (x y : FpVal) : Exact :=
  match x, y with
  | .nan a, .nan b => if a || b then .invalid else .val (.nan false)
  | .nan a, _ => if a then .invalid else .val (.nan false)
  | _, .nan b => if b then .invalid else .val (.nan false)
  | .inf a, .inf b => if a = b then .val (.inf a) else .invalid
  | .inf a, _ => .val (.inf a)
  | _, .inf b => .val (.inf b)
  | .fin n1 m1 e1, .fin n2 m2 e2 => .val (addFin rnd n1 m1 e1 n2 m2 e2)

/-- x × y (R186). -/
def FpVal.mul (x y : FpVal) : Exact :=
  match x, y with
  | .nan a, .nan b => if a || b then .invalid else .val (.nan false)
  | .nan a, _ => if a then .invalid else .val (.nan false)
  | _, .nan b => if b then .invalid else .val (.nan false)
  | .inf a, .inf b => .val (.inf (a != b))
  | .inf a, .fin n m _ => if m = 0 then .invalid else .val (.inf (a != n))
  | .fin n m _, .inf a => if m = 0 then .invalid else .val (.inf (a != n))
  | .fin n1 m1 e1, .fin n2 m2 e2 => .val (.fin (n1 != n2) (m1 * m2) (e1 + e2))

/-- x × y + z with one rounding to come (R188): 0 × ∞ + z is invalid whatever z is. -/
def FpVal.fma (rnd : Nat) (x y z : FpVal) : Exact :=
  match x.mul y with
  | .invalid => .invalid
  | .val p => p.add rnd z

/-- Rounds an exact result to a format, with its flags (R88, R186). -/
def Fmt.finish (f : Fmt) (r : Rnd) (x : Exact) : Nat × Word :=
  match x with
  | .invalid => (f.nan, fNV)
  | .val (.nan _) => (f.nan, 0)
  | .val (.inf n) => (f.inf n, 0)
  | .val (.fin n m e) => f.round r n m e

/-- The order of two values that are no NaN: below, with −0 below +0 where `zeros` says so. -/
def FpVal.lt (zeros : Bool) (x y : FpVal) : Bool :=
  match x, y with
  | .nan _, _ => false
  | _, .nan _ => false
  | .inf a, .inf b => a && !b
  | .inf a, .fin _ _ _ => a
  | .fin _ _ _, .inf b => !b
  | .fin n1 m1 e1, .fin n2 m2 e2 =>
    let e := min e1 e2
    let a := scaled n1 m1 e1 e
    let b := scaled n2 m2 e2 e
    decide (a < b) || (zeros && decide (a = 0) && decide (b = 0) && n1 && !n2)

/-- Whether two values that are no NaN are equal, −0 to +0. -/
def FpVal.eq (x y : FpVal) : Bool := !x.isNan && !y.isNan && !x.lt false y && !y.lt false x

/-- The bits of an operand as FMIN and FMAX return it: a flushed subnormal as a zero of its sign (R91, R187). -/
def Fmt.flush (f : Fmt) (subn : Bool) (w : Nat) : Nat :=
  match f.read subn w with
  | .fin n 0 _ => f.zero n
  | _ => w

/-- minimumNumber (`mx = false`) or maximumNumber (`mx = true`) of two encodings (R89). -/
def Fmt.minMax (f : Fmt) (subn mx : Bool) (a b : Nat) : Nat × Word :=
  let x := f.read subn a
  let y := f.read subn b
  let fl := flagIf (x.isSig || y.isSig) fNV
  if x.isNan && y.isNan then (f.nan, fl)
  else if x.isNan then (f.flush subn b, fl)
  else if y.isNan then (f.flush subn a, fl)
  else
    let first := if mx then !(x.lt true y) else !(y.lt true x)
    (f.flush subn (if first then a else b), fl)

/-- a + b in a format (R117). -/
def Fmt.addOp (f : Fmt) (r : Rnd) (a b : Nat) : Nat × Word :=
  f.finish r ((f.read r.subn a).add r.rnd (f.read r.subn b))
/-- a − b in a format. -/
def Fmt.subOp (f : Fmt) (r : Rnd) (a b : Nat) : Nat × Word :=
  f.finish r ((f.read r.subn a).add r.rnd (f.read r.subn b).neg)
/-- a × b in a format. -/
def Fmt.mulOp (f : Fmt) (r : Rnd) (a b : Nat) : Nat × Word :=
  f.finish r ((f.read r.subn a).mul (f.read r.subn b))
/-- ±(a × b) ± c in a format, rounded once (R188): `np` negates the product, `nc` the addend. -/
def Fmt.fmaOp (f : Fmt) (r : Rnd) (np nc : Bool) (a b c : Nat) : Nat × Word :=
  let x := f.read r.subn a
  let z := f.read r.subn c
  f.finish r (FpVal.fma r.rnd (if np then x.neg else x) (f.read r.subn b) (if nc then z.neg else z))

/-! ### Integers (R93, R94) -/

/-- The integer nearest a finite value by a rounding code, with whether it is inexact. -/
def roundInt (rnd : Nat) (neg : Bool) (m : Nat) (e : Int) : Int × Bool :=
  let (q, nx) := quantise rnd neg m e 0
  (if neg then -(q : Int) else q, nx)

/-- The bounds of an integer format of width w. -/
def intLo (signed : Bool) (w : Nat) : Int := if signed then -(2 ^ (w - 1) : Nat) else 0
/-- The upper bound. -/
def intHi (signed : Bool) (w : Nat) : Int := if signed then (2 ^ (w - 1) : Nat) - 1 else (2 ^ w : Nat) - 1

/-- Narrows an exact integer once (R93): clamped under INTSAT, else modulo 2^w. The result is the low 32 bits of
the value in its format, extended by its sign. -/
def narrow (sat signed : Bool) (w : Nat) (v : Int) : Int × Word :=
  if sat then
    if v < intLo signed w then (intLo signed w, fSAT)
    else if intHi signed w < v then (intHi signed w, fSAT)
    else (v, 0)
  else
    let u := v % (2 ^ w : Nat)
    (if signed && decide ((2 ^ (w - 1) : Nat) ≤ u) then u - (2 ^ w : Nat) else u, 0)

/-- A floating-point value to an integer format (R94): always saturating. -/
def toInt (rnd : Nat) (signed : Bool) (w : Nat) (v : FpVal) : Int × Word :=
  match v with
  | .nan _ => (0, fNV)
  | .inf n => (if n then intLo signed w else intHi signed w, fNV)
  | .fin n m e =>
    let (i, nx) := roundInt rnd n m e
    if i < intLo signed w then (intLo signed w, fNV)
    else if intHi signed w < i then (intHi signed w, fNV)
    else (i, flagIf nx fNX)

/-- The low 32 bits of an integer. -/
def intWord (v : Int) : Word := BitVec.ofInt 32 v

/-- An integer as a value. -/
def intVal (v : Int) : FpVal := .fin (decide (v < 0)) v.natAbs 0

/-- The result of an FP32 operation, as a word. -/
def w32 (r : Nat × Word) : Word × Word := (BitVec.ofNat 32 r.1, r.2)

end Sys2Proof.Machine
end

