-- ==== Sys2Proof/Machine/Retire.lean ====
section
/-!
DEFINITION. How an instruction word completes: the next PC and the hardware loops (R176 to R178), the retired
counts (R138, R139), pending results and counted operations (R50, R212), and the shapes that the meanings share.
-/

namespace Sys2Proof.Machine

open Sys2Proof

/-! ### Hardware loops (R175 to R178) -/

/-- Whether a loop level is active (R176). -/
def lcAct (l : Word) : Bool := l.getLsbD 31
/-- The iterations left (R176). -/
def lcCount (l : Word) : Nat := bitsN l 0 16
/-- The address of the level's LOOP, from any address within its body (R176). -/
def lcHead (pc : DWord) (l : Word) : DWord := BitVec.ofNat 64 (pc.toNat / 65536 * 65536 + bitsN l 16 15 * 2)

/-- The end of a level's body (R175): E = P + 4 + 2L, with L of the LOOP that opened the level. (Log 70, DEDUCED.) -/
def loopEnd (head : DWord) (l : BitVec 12) : DWord := head + 4 + BitVec.ofNat 64 (2 * l.toNat)

/-- One level at the end of an instruction (R178): the counter, the next PC, and whether a level has gone round. -/
def loopTest (taken : Bool) (head e : DWord) (l : Word) (next : DWord) (round : Bool) : Word × DWord × Bool :=
  if !round && lcAct l && e == next && !taken then
    if 1 < lcCount l then (l - 1, head + 4, true) else (0, next, false)
  else (l, next, round)

/-- Ends a level that the next PC has left (R178). -/
def loopLeave (head e : DWord) (l : Word) (next : DWord) : Word :=
  if lcAct l && (decide (next.toNat < (head + 4).toNat) || decide (e.toNat ≤ next.toNat)) then 0 else l

/-- Settles the next PC and the loop counters of a thread (R178). `t` is the thread after the instruction's own writes, `pc` the
completed instruction's address. -/
def settle (t : Thread) (pc next : DWord) (taken : Bool) : Vector Word 3 × DWord :=
  let lc := t.lc
  if !lcAct lc[0] && !lcAct lc[1] && !lcAct lc[2] then (lc, next)
  else
    let h0 := lcHead pc lc[0]
    let h1 := lcHead pc lc[1]
    let h2 := lcHead pc lc[2]
    let e0 := loopEnd h0 t.ll[0]
    let e1 := loopEnd h1 t.ll[1]
    let e2 := loopEnd h2 t.ll[2]
    let (l2, next, round) := loopTest taken h2 e2 lc[2] next false
    let (l1, next, round) := loopTest taken h1 e1 lc[1] next round
    let (l0, next, _) := loopTest taken h0 e0 lc[0] next round
    (#v[loopLeave h0 e0 l0 next, loopLeave h1 e1 l1 next, loopLeave h2 e2 l2 next], next)

/-! ### Completion -/

/-- The instructions the cast has retired (R138). -/
def State.countRetired (s : State) (k : Ctx) : State := s.onCast k.r.c (fun c => { c with clk := c.clk + 1, active := true })

/-- Completes the instruction of the context's thread: `t` is the thread with its results, `next` the PC that the
instruction itself produced (R178). -/
def retire (s : State) (k : Ctx) (t : Thread) (next : DWord) (taken : Bool) : State :=
  let (lc, pc) := settle t k.t.pc next taken
  (s.setThread k.r { t with pc := pc, lc := lc, retired := t.retired + 1, timer := 0, pass := false, st := .ready, wceil := none }).countRetired k

/-- Sets flags of the context's crew (R107, R108). -/
def State.flag (s : State) (k : Ctx) (f : Word) : State :=
  if f = 0 then s else s.onCast k.r.c (fun c => c.onCrew k.crewN (fun w => w.setFlags f))

/-- The address after an instruction of `len` bytes (R120). -/
def Ctx.after (k : Ctx) (len : Nat) : DWord := k.t.pc + BitVec.ofNat 64 len

/-- Marks a switch point of ORDERED mode in the current step, which is one of the crew that holds the turn (R344). -/
def State.switch (s : State) (k : Ctx) : State :=
  if descDet k.c.desc = 1 ∧ (s.plot k.c.plot).turn.holder = some (k.r.c, k.crewN) then s.onPlot k.c.plot (fun p => { p with turn := { p.turn with switch := true } }) else s

/-- Counts an operation of a class for the context's crew (R212): its number and the state. -/
def State.count (s : State) (k : Ctx) (cls : OpClass) (done : Bool) : Nat × State :=
  (k.c.nextOp,
    s.onCast k.r.c (fun c =>
      { c.onCrew k.crewN (fun w => { w with ops := w.ops ++ [{ id := k.c.nextOp, cls := cls, slot := k.r.t, done := done }] }) with
        nextOp := c.nextOp + 1 }))

/-- Whether a class counter holds an operation back at issue (R137). -/
def Ctx.full (k : Ctx) (cls : OpClass) : Bool := decide (63 ≤ k.crew.count cls)

/-! ### Shapes of meanings -/

/-- An operation on the thread's registers whose result is available to the next instruction: reads `rd`, writes
`wr`, and changes the thread by `f`. -/
def threadOp (len : Nat) (q : Bool) (rd wr : List Dst) (f : Thread → Thread) (s : State) : Out :=
  prologue false false q (rd ++ wr) s fun k => .next (retire s k (f k.t) (k.after len) false)

/-- An operation that writes one general register from general registers (R147). -/
def aluOp (len : Nat) (q : Bool) (rd : List (BitVec 6)) (d : BitVec 6) (f : Thread → Word) (s : State) : Out :=
  threadOp len q (rd.map Dst.x) [.x d] (fun t => t.setX d (f t)) s

/-- An operation that writes one predicate from general registers or predicates (R156, R159). -/
def predOp (q : Bool) (rd : List Dst) (d : BitVec 3) (f : Thread → Bool) (s : State) : Out :=
  threadOp 4 q rd [.k d] (fun t => t.setK d (f t)) s

/-- An operation that also sets FLAGS and reads MODE (R106, R186). -/
def modeOp (ill : Bool) (len : Nat) (q : Bool) (rd wr : List Dst) (f : Word → Thread → Thread × Word) (s : State) : Out :=
  prologue ill false q (rd ++ wr) s fun k =>
    let (t, fl) := f k.crew.mode k.t
    .next ((retire s k t (k.after len) false).flag k fl)

/-- A floating-point operation to one general register. -/
def fpOp (len : Nat) (q : Bool) (rd : List (BitVec 6)) (d : BitVec 6) (f : Word → Thread → Word × Word) (s : State) : Out :=
  modeOp false len q (rd.map Dst.x) [.x d] (fun m t => (t.setX d (f m t).1, (f m t).2)) s

/-- An operation whose result is pending (R50): the values and flags that its return gives. -/
def pendOp (q : Bool) (rd wr : List Dst) (f : Ctx → Flight) (s : State) : Out :=
  prologue false false q (rd ++ wr) s fun k => .next (retire s k (k.t.pending (f k)) (k.after 4) false)

end Sys2Proof.Machine
end

