-- ==== Sys2Proof/Machine/Operands.lean ====
section
/-!
DEFINITION. Operand forms and the integer functions of the general registers (spec/04 R123 to R126, spec/05 R147 to
R161): immediates, fields, shifts, divisions, conditions, loads' sizes and effective addresses.
-/

namespace Sys2Proof.Machine

open Sys2Proof

/-- A sign-extended immediate (R123). -/
def simm {n : Nat} (i : BitVec n) : Word := i.signExtend 32
/-- A zero-extended immediate (R123). -/
def uimm {n : Nat} (i : BitVec n) : Word := i.setWidth 32
/-- A shift or rotate amount, modulo 32 (R148). -/
def amt (v : Word) : Nat := v.toNat % 32

/-- Leading zero bits (R147 CLZ). -/
def clz (v : Word) : Nat := if v.toNat = 0 then 32 else 31 - Nat.log2 v.toNat
/-- One bits among the low n (R147 POPC). -/
def popc (v : Word) : Nat → Nat
  | 0 => 0
  | n + 1 => popc v n + (v.getLsbD n).toNat

/-- Signed quotient with its corner cases (R149). -/
def divS (a b : Word) : Word := if b = 0 then BitVec.allOnes 32 else BitVec.ofInt 32 (a.toInt.tdiv b.toInt)
/-- Unsigned quotient (R149). -/
def divU (a b : Word) : Word := if b = 0 then BitVec.allOnes 32 else BitVec.ofNat 32 (a.toNat / b.toNat)
/-- Signed remainder (R149). -/
def remS (a b : Word) : Word := if b = 0 then a else BitVec.ofInt 32 (a.toInt.tmod b.toInt)
/-- Unsigned remainder (R149). -/
def remU (a b : Word) : Word := if b = 0 then a else BitVec.ofNat 32 (a.toNat % b.toNat)

/-- Bits [63:32] of a product formed exactly (R148). -/
def hiWord (p : Int) : Word := BitVec.ofInt 32 (p / 2 ^ 32)

/-- The conditions of CMP and CMPI (R156); codes 6 and 7 raise ILL before they are asked. -/
def condHolds (c : Nat) (a b : Word) : Bool :=
  match c with
  | 0 => a == b
  | 1 => a != b
  | 2 => decide (a.toInt < b.toInt)
  | 3 => decide (b.toInt ≤ a.toInt)
  | 4 => decide (a.toNat < b.toNat)
  | _ => decide (b.toNat ≤ a.toNat)

/-- The field that BFX extracts (R154). -/
def bfx (sx : Bool) (v : Word) (lsb width : Nat) : Word :=
  let f := v.toNat / 2 ^ lsb % 2 ^ width
  if sx && decide (2 ^ (width - 1) ≤ f) then BitVec.ofInt 32 ((f : Int) - (2 ^ width : Nat)) else BitVec.ofNat 32 f

/-- The word that BFI forms (R155). -/
def bfi (d v : Word) (lsb width : Nat) : Word :=
  let m : Word := BitVec.ofNat 32 ((2 ^ width - 1) * 2 ^ lsb)
  (d &&& ~~~m) ||| ((v <<< lsb) &&& m)

/-- The conditions of FCMP (R191) on two values, with the NV flag. -/
def fcmp (c : Nat) (x y : FpVal) : Bool × Word :=
  let un := x.isNan || y.isNan
  let sig := x.isSig || y.isSig
  match c with
  | 0 => (x.eq y, flagIf sig fNV)
  | 1 => (!x.eq y, flagIf sig fNV)
  | 2 => (x.lt false y, flagIf un fNV)
  | 3 => (!un && !y.lt false x, flagIf un fNV)
  | 4 => (y.lt false x, flagIf un fNV)
  | 5 => (!un && !x.lt false y, flagIf un fNV)
  | 6 => (un, flagIf sig fNV)
  | _ => (!un, flagIf sig fNV)

/-- A branch displacement: twice the sign-extended halfword offset (R123). -/
def disp {n : Nat} (o : BitVec n) : DWord := (o.signExtend 64) <<< 1

/-- The effective address of LD and ST (R220): the pair plus the sign-extended offset in access units. -/
def effAddr (t : Thread) (p : BitVec 5) (i : BitVec 9) (z : BitVec 3) : DWord := t.getA p + (i.signExtend 64 <<< z.toNat)

/-- The registers that an access of a size fills or reads from register d on (R124, R126, R220). -/
def dataRegs (z : BitVec 3) (d : BitVec 6) : List (BitVec 6) :=
  match z.toNat with
  | 3 => [d, d + 1]
  | 4 => [d, d + 1, d + 2, d + 3]
  | _ => [d]

/-- The data of a store, as one little-endian number (R220). -/
def storeData (t : Thread) (z : BitVec 3) (d : BitVec 6) : Nat :=
  match z.toNat with
  | 0 => (t.getX d).toNat % 2 ^ 8
  | 1 => (t.getX d).toNat % 2 ^ 16
  | 2 => (t.getX d).toNat
  | 3 => (t.getX d).toNat + 2 ^ 32 * (t.getX (d + 1)).toNat
  | _ =>
    (t.getX d).toNat + 2 ^ 32 * (t.getX (d + 1)).toNat + 2 ^ 64 * (t.getX (d + 2)).toNat + 2 ^ 96 * (t.getX (d + 3)).toNat

/-- A register field that names a multiple of two (R126), from its high five bits. -/
def evenReg (d : BitVec 5) : BitVec 6 := d ++ 0#1
/-- The register after an even one. -/
def oddReg (d : BitVec 5) : BitVec 6 := d ++ 1#1

/-- The doubleword in an even register and the next (R136, R195). -/
def Thread.getPair (t : Thread) (d : BitVec 6) : DWord := t.getX (d + 1) ++ t.getX d
/-- Writes a doubleword to an even register and the next. -/
def Thread.setPair (t : Thread) (d : BitVec 6) (v : DWord) : Thread :=
  (t.setX d (v.setWidth 32)).setX (d + 1) ((v >>> 32).setWidth 32)

end Sys2Proof.Machine
end

