-- ==== Sys2Proof/Machine/Held.lean ====
section
/-!
DEFINITION. Accesses that do not go through, or that are performed later (spec/07 R214, spec/18 R415 to R420, R466): fatal
faults of an access, resolvable records, the operand log, and threads that wait at issue and try again.
-/

namespace Sys2Proof.Machine

open Sys2Proof

/-! ### The operand log (R418) -/

/-- Entries of a plot's operand log in use (R418). -/
def Plot.logged (p : Plot) : Nat := (p.oplog.filter (fun h => !h.late && h.kind != .wait)).length

/-- Whether the operand log is full (R418). -/
def State.logFull (s : State) (p : Nat) : Bool := decide (64 ≤ (s.plot p).logged)

/-- The page that an address belongs to, among the pages that translation faults name. -/
def pageKey (dev : BitVec 11) (a : DWord) : Option Nat :=
  match classify dev a with
  | .glob va => some (va / 65536)
  | .ro va => some (va / 65536)
  | .rglob d va => some ((2 ^ 59 + d * 2 ^ 48 + va) / 65536)
  | .rcmn d off => some ((2 ^ 61 + 2 ^ 59 + d * 2 ^ 48 + off) / 65536)
  | _ => none

/-- Where a peer agreement and a port lead to the device of a remote address, the request that its target refuses or cannot translate has
gone out (R434, R437). -/
def State.peerRefused (s : State) (al : Nat) (a : DWord) (w : Bool) : State :=
  match classify s.devnum a with
  | .rglob dev va => match peerOf s al dev with | some p => s.askPeer al dev p va w | none => s
  | .rcmn dev off => match peerOf s al dev with | some p => s.askPeer al dev p (2 ^ 61 + off) w | none => s
  | _ => s

/-- The choice that a target refuses or cannot translate (R434) is taken once its XLATE of kind 7 is reported: its request has gone out. -/
def State.tookAnswer (s : State) (r : FaultRec) : State :=
  if r.info == 7 && s.oracle.head? == some 1 then
    { s with oracle := s.oracle.drop 1 }.peerRefused r.al.toNat r.faddr (r.acck != Acck.load && r.acck != Acck.copyRead && r.acck != Acck.slate)
  else s

/-- Reports an XLATE: a new record, or the outstanding record of the same plot and page (R418). -/
def State.resolvable (s : State) (r : FaultRec) (al plot vpn cid : Nat) : State :=
  let s := s.tookAnswer r
  if s.resolv.any (fun e => e.al == al && e.plot == plot && e.vpn == vpn) then s
  else { s.record r with resolv := s.resolv ++ [{ seq := s.faultSeq, al := al, plot := plot, vpn := vpn, cid := cid }] }

/-- An access of an engine for a thread's earlier work that meets a translation fault: a record, and an entry of the operand log (R53,
R259, R273); it waits where the log or the records have no room. (Log 7, DEDUCED.) -/
def State.engineHold (s : State) (r : FaultRec) (c : Cast) (cid kva : Nat) (h : Held) : State :=
  if decide (64 ≤ ((s.plot c.plot).oplog.filter (fun h => !h.late && h.kind != .wait)).length) || s.recFull then s
  else
    let s := s.resolvable r c.al c.plot (kva / 65536) cid
    { s.onPlot c.plot (fun q => { q with oplog := q.oplog ++ [{ h with id := s.nextHeld }] }) with nextHeld := s.nextHeld + 1 }

/-- Reports an XLATE of the context's thread. -/
def State.xlateOf (s : State) (k : Ctx) (kind va : Nat) (faddr : DWord) (acck : Acck) : State :=
  s.resolvable (threadRec s k.c k.r.t (some k.t) .xlate 2 kind faddr acck) k.c.al k.c.plot (va / 65536) k.r.c

/-- Puts an access at the end of a plot's list, with the next number. -/
def State.hold (s : State) (p : Nat) (h : Held) : State :=
  { s.onPlot p (fun q => { q with oplog := q.oplog ++ [{ h with id := s.nextHeld }] }) with nextHeld := s.nextHeld + 1 }

/-- An access of the context's thread as the list keeps it (R418): its number is given when it is put there. -/
def Ctx.entry (k : Ctx) (s : State) (a : DWord) (size : Nat) (sc : BitVec 3) (kind : HeldKind) (acck : Acck) (op : Option Nat)
    (late : Bool) : Held :=
  { id := 0, cid := k.r.c, slot := k.r.t, key := k.t.key, dep := k.t.dep, pc := k.t.pc, va := a, size := size, scope := sc
    ceil := acbCeil (s.acb k.c.al), kind := kind, acck := acck, op := op, late := late }

/-- An entry in which the context's thread waits at its instruction, which runs again from its start. -/
def againEntry (s : State) (k : Ctx) (va size : Nat) (kind : HeldKind) (acck : Acck) : Held :=
  k.entry s (BitVec.ofNat 64 va) size 0 kind acck none false

/-- What the walk of a stopped access has done to the leaf that it loaded (R401). -/
def State.walkedAt (s : State) (c : Cast) (a : DWord) (e : Eng := .plot) : State :=
  match classify s.devnum a with
  | .glob va => s.walked c.plot c.al va e
  | .ro va => s.walked c.plot c.al va e
  | _ => s

/-- An access of the context's thread that does not go through, where the thread cannot go on without it: a fatal
fault, or a wait with the instruction to run again (R53, R414, R415, R418). (Log 9, DEDUCED.) -/
def accStop (s : State) (k : Ctx) (st : Stop) (faddr : DWord) (acck : Acck) (size : Nat := 0) : Out :=
  match st with
  | .fatal c cls info w => .next (raiseWith (s.walkedAt k.c faddr) k c cls info faddr (walkAcck w acck))
  | .migrating va => block (s.hold k.c.plot (againEntry s k va size .wait acck)) k .xlate
  | .xlate kind va =>
    if s.logFull k.c.plot || s.recFull then block s k .issue
    else block ((s.xlateOf k kind va faddr acck).hold k.c.plot (againEntry s k va size .again acck)) k .xlate

/-- A fetch that does not go through: only its own thread waits (R120, R418). -/
def fetchStop (s : State) (k : Ctx) (st : Stop) (a : DWord) : Out :=
  match st with
  | .fatal c cls info w => .next (raiseWith (s.walkedAt k.c a) k c cls info a (walkAcck w .fetch))
  | .migrating va => block (s.hold k.c.plot (againEntry s k va 0 .wait .fetch)) k .xlate
  | .xlate kind va =>
    if s.recFull then block s k .issue
    else block ((s.xlateOf k kind va a .fetch).hold k.c.plot (againEntry s k va 0 .wait .fetch)) k .xlate

/-- A live thread of a placed cast, whatever its state, for the events that concern it. -/
def State.ctxAt (s : State) (r : TRef) : Option Ctx :=
  (look s.casts r.c).bind fun c => (look c.threads r.t).map fun t => { r := r, c := c, t := t }

/-! ### The order of a thread's accesses (R214, R283) -/

/-- Whether an access stands before a later one of the same thread that reaches `n` bytes at an address: they meet on one path
(R214), or the first waits in the log for the page of the second (R418). -/
def Held.before (dev : BitVec 11) (h : Held) (a : DWord) (n : Nat) : Bool :=
  let x := (classify dev h.va).byteKey
  let y := (classify dev a).byteKey
  (decide (x < y + n) && decide (y < x + h.size)) ||
    (!h.late && (pageKey dev h.va).isSome && pageKey dev h.va == pageKey dev a)

/-- The accesses of the context's thread that stand before one to `n` bytes at an address. -/
def Ctx.behind (k : Ctx) (s : State) (a : DWord) (n : Nat) : List Held :=
  (k.held s).filter (fun h => h.before s.devnum a n)

/-- Whether an access carries an acquire, behind which every later event of its thread waits (R218, R283). -/
def HeldKind.acquires : HeldKind → Bool
  | .lds _ | .waita _ _ _ | .acqp _ _ | .acqpGo _ _ => true
  | .atom d _ => d != 0
  | _ => false

/-- Whether an access reads (R283, case 4). -/
def HeldKind.reads : HeldKind → Bool
  | .store _ | .sts _ | .commit | .seed | .copy _ | .cmd _ => false
  | _ => true

/-- Whether the context's thread has an acquire that is not performed. -/
def Ctx.acquiring (k : Ctx) (s : State) : Bool := (k.held s).any (fun h => h.kind.acquires)

/-! ### The order of a thread's cell accesses (R275, R276, R278) -/

/-- Whether a thread is the one that a key and a depth have named, or has come of it by BECOME (R17, R278). -/
def Thread.descends (t : Thread) (key : BitVec 128) (dep : BitVec 4) : Bool :=
  decide (dep.toNat ≤ t.dep.toNat) && (List.range dep.toNat).all (fun l => keyLevel t.key l == keyLevel key l)

/-- The issue number and the cell of an MXR or an MXRN that has still to read. -/
def Source.cell? : Source → Option (Nat × Nat)
  | .mxr n c _ => some (n, c)
  | .mxrn n c => some (n, c)
  | _ => none

/-- The cell reads that a thread has issued and that have still to read. -/
def Thread.cellReads (t : Thread) : List (Nat × Nat) := t.flights.filterMap (fun f => f.src.cell?)

/-- The cell writes that stand before the context's thread in program order and have not taken effect: its own, and those of the
threads that it is a copy of (R278). -/
def Ctx.cellWrites (k : Ctx) (s : State) : List PendMxw :=
  (s.plot k.c.plot).mxws.filter (fun w => w.cid == k.r.c && k.t.descends w.key w.dep)

/-- Whether an event of the context's thread is still to come that a release waits for (R217, R283): an access that is not performed,
an MXW that has not taken effect, or an MXR or MXRN that has still to read. -/
def Ctx.busy (k : Ctx) (s : State) : Bool := k.holds s || !k.t.cellReads.isEmpty || !(k.cellWrites s).isEmpty

/-- The issue numbers of the cell accesses of the context's thread that have not taken effect. -/
def Ctx.cellsOf (k : Ctx) (s : State) : List Nat := k.t.cellReads.map Prod.fst ++ (k.cellWrites s).map PendMxw.seq

/-! ### Counted operations (R212) -/

/-- Marks a counted operation as done (R212). -/
def State.opDone (s : State) (cid crew id : Nat) : State :=
  s.onCast cid (fun c => c.onCrew crew (fun w => { w with ops := w.ops.map (fun o => if o.id = id then { o with done := true } else o) }))

/-- Retires the oldest operations of a class while they are done (R212). -/
def drainOps (k : OpClass) (ops : List OutOp) : List OutOp :=
  match ops with
  | [] => []
  | o :: r => if o.cls = k then (if o.done then drainOps k r else o :: r) else o :: drainOps k r

/-- The record of a fault that an agent raises for a thread's earlier work (R259, R273, R417). -/
def agentRec (s : State) (c : Cast) (slot : Nat) (key : BitVec 128) (dep : BitVec 4) (pc : DWord) (code : FCode)
    (cls info : Nat) (faddr : DWord) (acck : Acck) : FaultRec :=
  { threadRec s c slot none code cls info faddr acck with
    agent := true, dep := dep.setWidth 8, key := key, iaddr := pc, slot := BitVec.ofNat 16 slot }

end Sys2Proof.Machine
end

