-- ==== Sys2Proof/Machine/Memory.lean ====
section
/-!
DEFINITION. Memory instructions without a rendezvous (spec/07 R211 to R230, R234 to R236): LD, ST, LDS, STS, ACQP,
RED, and the parts of the atomics that the rendezvous of the deterministic modes shares.
-/

namespace Sys2Proof.Machine

open Sys2Proof

/-! ### Scope (R62, R236) -/

/-- The scope at which an access is performed under a ceiling: system for a remote one, the ceiling for a clamped one. -/
def effScope (ceil : Nat) (sp : Space) (sc : Nat) : Nat := if sp.remote then 5 else min sc ceil

/-- Whether an access is clamped under a ceiling (R236). -/
def clamped (ceil : Nat) (sp : Space) (sc : Nat) : Bool := !sp.remote && decide (ceil < sc)

/-- The ceiling of the context's allotment (R422, R425). -/
def Ctx.ceil (k : Ctx) (s : State) : Nat := acbCeil (s.acb k.c.al)

/-- Counts a clamp in the crew's CLAMPN, which stops at 0xFFFF (R236). -/
def State.countClamp (s : State) (cid crew : Nat) (b : Bool) : State :=
  if b then s.onCast cid (fun c => c.onCrew crew (fun w =>
    { w with clampn := if w.clampn = BitVec.allOnes 16 then w.clampn else w.clampn + 1 }))
  else s

/-- Where an access of an effective scope is made on GLOBAL, local (R215, R225, R233). -/
def viewOf (sc : Nat) : View := if sc < 2 then .plot else .home

/-! ### Values -/

/-- The values that a load's destinations receive (R220). -/
def loadVals (size : Nat) (sx : Bool) (dst : List Dst) (v : Nat) : List (Dst × Word) :=
  let w (i : Nat) : Word :=
    if size < 4 then
      let u := v % 2 ^ (8 * size)
      if sx && decide (2 ^ (8 * size - 1) ≤ u) then BitVec.ofInt 32 ((u : Int) - (2 ^ (8 * size) : Nat)) else BitVec.ofNat 32 u
    else BitVec.ofNat 32 (v / 2 ^ (32 * i))
  dst.zip ((List.range dst.length).map w)

/-! ### READONLY and the thread's own stores (R65) -/

/-- The hidden byte that a thread refers to at a physical address. -/
def State.ownAt (s : State) (t : Thread) (pa : Nat) : Option OwnByte := s.owns.find? (fun o => o.pa == pa && t.own.any (fun r => r.n == o.n))

/-- The newest byte at a physical address that a plot sees: a store that its cache holds, else the home's. -/
def State.newestByte (s : State) (p pa : Nat) : Byte :=
  match (s.plot p).cache.find? (fun l => l.n == pa / 128 && l.dirty.getLsbD (pa % 128)) with
  | some l => BitVec.ofNat 8 (byteN l.data (pa % 128) 1)
  | none => BitVec.ofNat 8 (s.homeRead pa 1)

/-- The hidden bytes of a store of `n` bytes that a thread is about to make, numbered from the state's next number on. Each keeps the
newest byte that is not the thread's own, also where that is another thread's store in the plot's cache (R65, R280). -/
def State.newOwns (s : State) (cid p : Nat) (v : View) (t : Thread) (pa n : Nat) : List OwnByte :=
  let cached := if v == .plot && (s.plot p).hasCache then some p else none
  (List.range n).map (fun i =>
    { n := s.nextOwn + i, cid := cid, pa := pa + i, cached := cached
      old := match s.ownAt t (pa + i) with | some o => o.old | none => s.newestByte p (pa + i) })

/-- Performs a store of a thread by `f`, and notes its bytes of home memory, which the thread's READONLY loads do not observe
(R65). It answers the thread as it refers to them. -/
def State.ownStore (s : State) (cid p : Nat) (v : View) (t : Thread) (l : Loc) (n : Nat) (f : State → State) : State × Thread :=
  match l with
  | .home pa =>
    let os := s.newOwns cid p v t pa n
    let prev := (s.owns.filter (fun o => decide (pa ≤ o.pa) && decide (o.pa < pa + n))).map OwnByte.n
    let s := f { s with nextOwn := s.nextOwn + n }
    ({ s with owns := s.owns ++ os },
      { t with own := t.own.filter (fun r => !prev.contains r.n) ++ os.map (fun o => { n := o.n, rel := false }) })
  | _ => (f s, t)

/-- The bytes from a READONLY fill, with the thread's own unfenced stores hidden. -/
def State.hideOwn (s : State) (t : Thread) (pa v : Nat) : Nat → Nat
  | 0 => v
  | n + 1 =>
    let v := s.hideOwn t pa v n
    match s.ownAt t (pa + n) with
    | some o => v - v / 2 ^ (8 * n) % 256 * 2 ^ (8 * n) + o.old.toNat * 2 ^ (8 * n)
    | none => v

/-! ### LD and ST (R219 to R222) -/

/-- Reads the bytes of a plain load (R215, R65). -/
def loadAt (s : State) (p : Nat) (t : Thread) (sp : Space) (l : Loc) (z : Bool) (n : Nat) : State × Nat :=
  match sp, l with
  | .ro _, .home pa => let (s, v) := s.readOnly p pa z n; (s, s.hideOwn t pa v n)
  | _, _ => s.readAt p .plot l z n

/-- The destination registers of an access, which stay pending until its values return (R418). -/
def HeldKind.dst : HeldKind → List Dst
  | .load dst _ => dst
  | .lds dst => dst
  | .atom d _ => if d = 0 then [] else [.x d]
  | .acqp _ d => [.x d]
  | .acqpGo _ d => [.x d]
  | _ => []

/-- The class that an access counts in (R212). -/
def HeldKind.cls : HeldKind → OpClass
  | .load _ _ | .lds _ | .acqp _ _ | .acqpGo _ _ => .ld
  | .atom d _ => if d = 0 then .st else .ld
  | _ => .st

/-- An access of the context's thread is put off as an entry with its operands (R53, R214, R418): it is counted, its destination is
pending, and the thread goes on. -/
def holdEntry (s : State) (k : Ctx) (h : Held) : State :=
  let (id, s) := s.count k h.kind.cls false
  let s := s.hold k.c.plot { h with op := some id }
  let t := if h.kind.dst.isEmpty then k.t
    else k.t.pending { dst := h.kind.dst.map (fun d => (d, 0)), op := some id, src := .held }
  retire s k t (k.after 4) false

/-- Lets the context's thread go on past an access that is not performed yet (R53, R214, R418), whose operands were read at issue.
`late`: it takes no entry of the operand log. (Log 2, DESIGN CHOICE.) -/
def holdAccess (s : State) (k : Ctx) (size : Nat) (a : DWord) (sc : BitVec 3) (kind : HeldKind) (acck : Acck) (late : Bool) : Out :=
  if !late && s.logFull k.c.plot then block s k .issue
  else .next (holdEntry s k (k.entry s a size sc kind acck none late))

/-- Whether an access is a release: it waits until its thread's earlier accesses are performed (R217). -/
def HeldKind.releases : HeldKind → Bool
  | .sts _ => true
  | .atom _ _ => true
  | _ => false

/-- Whether an access of the context's thread waits at issue: for its counter (R137), behind an acquire or as a release (R217,
R218), or in ORDERED mode behind any access of its cast (R345). -/
def accWait (s : State) (k : Ctx) (kind : HeldKind) : Option Wait :=
  if k.full kind.cls then some .issue
  else if k.acquiring s || (kind.releases && k.busy s) || (descDet k.c.desc == 1 && k.holds s) then some .order
  else none

/-- Whether an access that goes through is performed later (R214): the turn puts it off, outside ORDERED mode, and it does not both
release and acquire. -/
def mayLag (s : State) (k : Ctx) (kind : HeldKind) : Bool := s.lag && descDet k.c.desc != 1 && !kind.acquires

/-- An access of the context's thread: it waits at issue; stands behind one that meets it; is performed by `go`, or later; takes an
entry of the operand log; or stops (R53, R63, R214, R418). (Log 2, DESIGN CHOICE.) (Log 9, DEDUCED.) -/
def issueAcc (s : State) (k : Ctx) (sp : Space) (a : DWord) (size : Nat) (want : Want) (v : View) (sc : BitVec 3) (kind : HeldKind)
    (acck : Acck) (go : State → Loc → Bool → Out) : Out :=
  match accWait s k kind with
  | some w => block s k w
  | none =>
    if !(k.behind s a size).isEmpty then holdAccess s k size a sc kind acck ((k.behind s a size).all Held.late)
    else match resolve s k.c k.r.c sp want v with
      | .ok (s', l, z) => if mayLag s k kind then holdAccess s k size a sc kind acck true else go s' l z
      | .error (.xlate kd va) =>
        if s.logFull k.c.plot || s.recFull then block s k .issue
        else holdAccess (s.xlateOf k kd va a acck) k size a sc kind acck false
      | .error e => accStop s k e a acck size

/-- The destinations of a load. -/
def loadDst (z : BitVec 3) (d : BitVec 6) : List Dst := (dataRegs z d).map Dst.x

/-- LD (R220): the destination registers are pending; the operation counts in the LD class. The device may perform the accesses
of one thread in any order that R214 and R283 allow: each at its issue, or later by the agenda's choice (log 2, DESIGN CHOICE). -/
def execLd (q : Bool) (d : BitVec 6) (p : BitVec 5) (sx : Bool) (z : BitVec 3) (im : BitVec 9) (s : State) : Out :=
  prologue (!(Instr.ld q d p sx z im).wf) false q (pairDst p ++ loadDst z d) s fun k =>
    let a := effAddr k.t p im z
    let size := 2 ^ z.toNat
    match checkAcc s k.c .ld a size 0 with
    | .error c => .next (raiseWith s k c 0 0 a .load)
    | .ok sp =>
      issueAcc s k sp a size .read .plot 0 (.load (loadDst z d) sx) .load fun s l zr =>
        let (s, v) := loadAt s k.c.plot k.t sp l zr size
        let (id, s) := s.count k .ld false
        .next (retire s k (k.t.pending { dst := loadVals size sx (loadDst z d) v, op := some id }) (k.after 4) false)

/-- Whether a write of this form is folded into a CHECKED cast's digest (R351). -/
def Space.folds : Space → Bool
  | .glob _ | .cmn _ | .rglob _ _ | .rcmn _ _ => true
  | _ => false

/-! CRC-64 (R351) -/

/-- One byte of CRC-64/ECMA-182, from the most significant bit on. -/
def crcByte (c : DWord) (b : Byte) : DWord :=
  (List.range 8).foldl
    (fun c _ => if c.getLsbD 63 then (c <<< 1) ^^^ 0x42F0E1EBA9EA3693 else c <<< 1) (c ^^^ (b.setWidth 64 <<< 56))

/-- CRC-64 over bytes (R351). -/
def crc64 (bs : List Byte) : DWord := bs.foldl crcByte 0

/-- The message of one folded write (R351). -/
def foldMsg (a : DWord) (size v : Nat) : List Byte := natBytes 8 a.toNat ++ [BitVec.ofNat 8 size] ++ natBytes size v

/-- Folds a write into the digest of a CHECKED cast (R351). -/
def State.fold (s : State) (cid : Nat) (sp : Space) (a : DWord) (size v : Nat) : State :=
  s.onCast cid (fun c =>
    if descFolds c.desc ∧ sp.folds then { c with digest := c.digest + crc64 (foldMsg a size v) } else c)

/-- ST (R220): counted in the ST class. -/
def execSt (q : Bool) (d : BitVec 6) (p : BitVec 5) (z : BitVec 3) (im : BitVec 9) (s : State) : Out :=
  prologue (!(Instr.st q d p z im).wf) false q (pairDst p ++ (dataRegs z d).map Dst.x) s fun k =>
    let a := effAddr k.t p im z
    let size := 2 ^ z.toNat
    let v := storeData k.t z d
    match checkAcc s k.c .st a size 0 with
    | .error c => .next (raiseWith s k c 0 0 a .store)
    | .ok sp =>
      issueAcc s k sp a size .write .plot 0 (.store v) .store fun s l _ =>
        let (s, t) := s.ownStore k.r.c k.c.plot .plot k.t l size (fun s => s.storeAt k.c.plot .plot l size v)
        let (_, s) := (s.fold k.r.c sp a size v).count k .st true
        .next (retire s k t (k.after 4) false)

/-! ### LDS and STS (R223 to R226) -/

/-- A scoped load (R225): read at its place, then the acquire. -/
def scopedLoad (ill q : Bool) (p : BitVec 5) (sc : BitVec 3) (dst : List Dst) (size : Nat) (s : State) : Out :=
  prologue ill false q (pairDst p ++ dst) s fun k =>
    let a := k.t.getA p
    match checkAcc s k.c .lds a size sc.toNat with
    | .error c => .next (raiseWith s k c 0 0 a .load)
    | .ok sp =>
      let e := effScope (k.ceil s) sp sc.toNat
      let cl := clamped (k.ceil s) sp sc.toNat
      issueAcc s k sp a size .read (viewOf e) sc (.lds dst) .load fun s l z =>
        let (s, v) := s.readAt k.c.plot (viewOf e) l z size
        let s := (s.acquire k.c.plot e).countClamp k.r.c k.crewN cl
        let (id, s) := s.count k .ld false
        .next (retire s k (k.t.pending { dst := loadVals size false dst v, op := some id }) (k.after 4) false)

/-- LDS (R225): a word. -/
def execLds (q : Bool) (d : BitVec 6) (p : BitVec 5) (sx : BitVec 3) (s : State) : Out :=
  scopedLoad (!(Instr.lds q d p sx).wf) q p sx [.x d] 4 s

/-- LDS.D (R225): a doubleword. -/
def execLdsD (q : Bool) (d : BitVec 5) (p : BitVec 5) (sx : BitVec 3) (s : State) : Out :=
  scopedLoad (!(Instr.ldsD q d p sx).wf) q p sx [.x (evenReg d), .x (oddReg d)] 8 s

/-- The store of an STS with its release (R217, R224, R225): at plot scope the release is promotable. An STS at allotment scope or wider
wakes its word's waiters (R238). -/
def State.stsAt (s : State) (p e sc : Nat) (sp : Space) (l : Loc) (size v : Nat) : State :=
  let s := if e = 1 then ((s.storeAt p .plot l size v).promoBegin p).promoEnd p
    else (s.release p e).storeAt p (viewOf e) l size v
  if 3 ≤ sc ∨ sp.remote then s.wakeRange l size else s

/-- A scoped store (R225): the release, then the store. -/
def scopedStore (ill q : Bool) (p : BitVec 5) (sc : BitVec 3) (data : List (BitVec 6)) (val : Thread → Nat) (size : Nat)
    (s : State) : Out :=
  prologue ill false q (pairDst p ++ data.map Dst.x) s fun k =>
    let a := k.t.getA p
    match checkAcc s k.c .sts a size sc.toNat with
    | .error c => .next (raiseWith s k c 0 0 a .store)
    | .ok sp =>
      let e := effScope (k.ceil s) sp sc.toNat
      let cl := clamped (k.ceil s) sp sc.toNat
      let v := val k.t
      issueAcc s k sp a size .write (viewOf e) sc (.sts v) .store fun s l _ =>
        let (s, t) := s.ownStore k.r.c k.c.plot (viewOf e) k.t l size (fun s => s.stsAt k.c.plot e sc.toNat sp l size v)
        let s := (s.fold k.r.c sp a size v).countClamp k.r.c k.crewN cl
        let (_, s) := s.count k .st true
        .next (retire s k t (k.after 4) false)

/-- STS (R225): a word. -/
def execSts (q : Bool) (d : BitVec 6) (p : BitVec 5) (sx : BitVec 3) (s : State) : Out :=
  scopedStore (!(Instr.sts q d p sx).wf) q p sx [d] (fun t => (t.getX d).toNat) 4 s

/-- STS.D (R225): a doubleword. -/
def execStsD (q : Bool) (d : BitVec 5) (p : BitVec 5) (sx : BitVec 3) (s : State) : Out :=
  scopedStore (!(Instr.stsD q d p sx).wf) q p sx [evenReg d, oddReg d] (fun t => (t.getPair (evenReg d)).toNat) 8 s

/-! ### The atomic update (R231, R233, R234) -/

/-- The new value of an atomic by its op4 code (R231). -/
def atomNew (op : Nat) (old x y : Word) : Word :=
  match op with
  | 0 => old + x
  | 1 => old - x
  | 2 => old &&& x
  | 3 => old ||| x
  | 4 => old ^^^ x
  | 5 => if old.toInt ≤ x.toInt then old else x
  | 6 => if x.toInt ≤ old.toInt then old else x
  | 7 => if old.toNat ≤ x.toNat then old else x
  | 8 => if x.toNat ≤ old.toNat then old else x
  | 9 => x
  | 10 => y
  | 11 => BitVec.ofNat 32 (fp32.addOp nearest old.toNat x.toNat).1
  | _ =>
    BitVec.ofNat 32 ((bf16.addOp nearest (bitsN old 0 16) (bitsN x 0 16)).1 +
      65536 * (bf16.addOp nearest (bitsN old 16 16) (bitsN x 16 16)).1)

/-- The new value of an update; none: nothing is written (a failed CAS). -/
def Update.new (u : Update) (old : Word) : Option Word :=
  match u with
  | .op o x y => if o = 10 ∧ old ≠ x then none else some (atomNew o old x y)
  | .thresh x _ => some (old + x)

/-- Whether an update that wrote a value wakes the waiters of its word (R234, R238). -/
def Update.wakes (u : Update) (old new : Word) : Bool :=
  match u with
  | .op _ _ _ => true
  | .thresh _ l => decide (old.toNat < l.toNat) && decide (l.toNat ≤ new.toNat)

/-- Performs an update at its place, indivisibly (R231, R233); it answers the old value. -/
def State.update (s : State) (p : Nat) (v : View) (l : Loc) (z : Bool) (u : Update) : State × Word :=
  let (s, o) := s.readAt p v l z 4
  let old : Word := BitVec.ofNat 32 o
  match u.new old with
  | none => (s, old)
  | some n =>
    let s := s.writeAt p v l 4 n.toNat
    (if u.wakes old n then s.wake l else s, old)

/-- An atomic with its order (R217, R224, R232): the release, the update, and the acquire where a value returns. -/
def State.atomic (s : State) (p e : Nat) (l : Loc) (z acq : Bool) (u : Update) : State × Word :=
  let (s, old) :=
    if e = 1 then
      let (s, old) := s.update p .plot l z u
      ((s.promoBegin p).promoEnd p, old)
    else (s.release p e).update p (viewOf e) l z u
  (if acq then s.acquire p e else s, old)

/-! ### RED (R235) -/

/-- Whether a floating-point update is deferred in the deterministic modes (R348). -/
def fpUpdate (o : Nat) : Bool := o == 11 || o == 12

/-- Records a deferred update of the context's thread (R348, R350). -/
def State.defer (s : State) (k : Ctx) (a : DWord) (sc : BitVec 3) (o : Nat) (v : Word) : State :=
  s.onCast k.r.c (fun c =>
    { c with deferred := c.deferred ++
      [{ key := k.t.key, dep := k.t.dep, ord := k.t.retired.toNat, idx := 0, addr := a, scope := sc, bf := o == 12, val := v }] })

/-- RED (R235): no order; the update at its place; every waiter on the word is woken. -/
def execRed (q : Bool) (p : BitVec 5) (b : BitVec 6) (sx : BitVec 3) (o : BitVec 4) (s : State) : Out :=
  prologue (!(Instr.red q p b sx o).wf) false q (pairDst p ++ [.x b]) s fun k =>
    let a := k.t.getA p
    let v := k.t.getX b
    match checkAcc s k.c .atom a 4 sx.toNat with
    | .error c => .next (raiseWith s k c 0 0 a .atomic)
    | .ok sp =>
      let e := effScope (k.ceil s) sp sx.toNat
      let cl := clamped (k.ceil s) sp sx.toNat
      if descDet k.c.desc ≠ 0 ∧ fpUpdate o.toNat then
        match accWait s k (.red o v) with
        | some w => block s k w
        | none =>
          let (_, s) := ((s.defer k a sx o.toNat v).countClamp k.r.c k.crewN cl).count k .st true
          .next (retire s k k.t (k.after 4) false)
      else issueAcc s k sp a 4 .write (viewOf e) sx (.red o v) .atomic fun s l z =>
        let (s, t) := s.ownStore k.r.c k.c.plot (viewOf e) k.t l 4 (fun s => (s.update k.c.plot (viewOf e) l z (.op o.toNat v 0)).1)
        let (_, s) := (s.countClamp k.r.c k.crewN cl).count k .st true
        .next (retire s k t (k.after 4) false)

/-! ### Steps on a word (R349) -/

/-- The word that an ordered atomic's steps are numbered on, where another cast can reach it (R349). -/
def wordKey (s : State) (a : DWord) : Option DWord :=
  match classify s.devnum a with
  | .glob va => some (BitVec.ofNat 64 va)
  | .cmn off => some (BitVec.ofNat 64 (2 ^ 61 + off))
  | .rglob _ _ | .rcmn _ _ => some a
  | _ => none

/-- The number of steps that a cast has performed on a word. -/
def Cast.stepsOn (c : Cast) (w : DWord) : Nat := ((c.steps.find? (fun e => e.1 == w)).map Prod.snd).getD 0

/-- Counts a step on a word. -/
def Cast.addStep (c : Cast) (w : DWord) : Cast :=
  { c with steps := (w, c.stepsOn w + 1) :: c.steps.filter (fun e => e.1 != w) }

/-- Removes repeats. -/
def dedup (l : List DWord) : List DWord := l.foldl (fun r x => if r.contains x then r else r ++ [x]) []

/-! ### ACQP (R227 to R230) -/

/-- Whether a plot holds a resident context of an allotment (R230, R467). -/
def Plot.holdsCtx (p : Plot) (al : Nat) : Bool := p.ctx.any (fun e => e.1 == al)

/-- Sends promotion request `n` to target plots: a plot with no resident context of the allotment completes at once
(R230). -/
def State.request (s : State) (al n : Nat) (targets : List Nat) : State :=
  targets.foldl
    (fun s p => s.onPlot p (fun q => if q.holdsCtx al then { q with preqs := q.preqs ++ [{ n := n, al := al, cut := q.rseq }] } else q)) s

/-- Whether a promotion request still waits at some plot. -/
def State.requested (s : State) (n : Nat) : Bool := s.plots.any (fun (_, p) => p.preqs.any (fun r => r.n == n))

/-- The load and the acquire that end an ACQP (R228): the value. -/
def State.acqpLoad (s : State) (p : Nat) (l : Loc) (z : Bool) : State × Nat :=
  let (s, v) := s.readAt p .home l z 4
  (s.acquire p 3, v)

/-- The common part of ACQP (R228), after the check of its address: the requests to the targets, then the load at once where they are
served at once; else the access waits for the completions, counted and with its destination pending. (Log 16, DEDUCED.) -/
def acqpTo (s : State) (k : Ctx) (sp : Space) (a : DWord) (d : BitVec 6) (targets : Option (List Nat)) : Out :=
  match accWait s k (.acqp [] d) with
  | some w => block s k w
  | none =>
    if (targets.isNone || descDet k.c.desc == 1) && !(k.behind s a 4).isEmpty then block s k .order
    else match targets, resolve s k.c k.r.c sp .read with
      | none, .error e => accStop s k e a .load 4
      | none, .ok (s, _, _) => raise s k .plotid
      | some ts, _ =>
        issueAcc s k sp a 4 .read .home 3 (.acqp ts d) .load fun s l z =>
          let n := s.nextReq
          let s := { s with nextReq := s.nextReq + 1 }.request k.c.al n ts
          if s.requested n then holdAccess s k 4 a 3 (.acqpGo n d) .load true
          else
            let (s, v) := s.acqpLoad k.c.plot l z
            let (id, s) := s.count k .ld false
            .next (retire s k (k.t.pending { dst := loadVals 4 false [.x d] v, op := some id }) (k.after 4) false)

/-- The plots of an allotment in allotment-relative order (R423). -/
def State.plotsOf (s : State) (al : Nat) : List Nat := ((look s.allots al).map Allot.plots).getD []

/-- ACQP (R227): one target plot, allotment-relative. -/
def execAcqp (q : Bool) (d : BitVec 6) (p : BitVec 5) (b : BitVec 6) (s : State) : Out :=
  prologue false false q (pairDst p ++ [.x b, .x d]) s fun k =>
    let a := k.t.getA p
    match checkAcc s k.c .acqp a 4 0 with
    | .error c => .next (raiseWith s k c 0 0 a .load)
    | .ok sp => acqpTo s k sp a d ((s.plotsOf k.c.al)[(k.t.getX b).toNat]?.map (fun t => [t]))

/-- ACQP.ALL (R227): every plot of the allotment. -/
def execAcqpAll (q : Bool) (d : BitVec 6) (p : BitVec 5) (s : State) : Out :=
  prologue false false q (pairDst p ++ [.x d]) s fun k =>
    let a := k.t.getA p
    match checkAcc s k.c .acqp a 4 0 with
    | .error c => .next (raiseWith s k c 0 0 a .load)
    | .ok sp => acqpTo s k sp a d (some (s.plotsOf k.c.al))

end Sys2Proof.Machine
end

