-- ==== Sys2Proof/Machine/Region.lean ====
section
/-!
DEFINITION. What the scene dispatcher reads and writes (spec/17 R370 to R378, R467): scene descriptors and their
refusal, region nodes, queue control blocks, contexts, and records that name a scene.
-/

namespace Sys2Proof.Machine

open Sys2Proof

/-! ### Scene descriptors (R374) -/

/-- Entry address. -/
def descEntry (d : BitVec 1024) : Nat := byteN d 0 8
/-- Parameter block address. -/
def descParam (d : BitVec 1024) : Nat := byteN d 8 8
/-- Start count (R16). -/
def descStart (d : BitVec 1024) : Nat := byteN d 24 2
/-- Seedbed size in records. -/
def descSeedn (d : BitVec 1024) : Nat := byteN d 28 2
/-- The IDEMP flag (R354). -/
def descIdemp (d : BitVec 1024) : Bool := bitsN d (8 * 31 + 1) 1 == 1
/-- The SERIAL flag (R380). -/
def descSerial (d : BitVec 1024) : Bool := bitsN d (8 * 31 + 2) 1 == 1
/-- Signal word address. -/
def descCwaddr (d : BitVec 1024) : Nat := byteN d 64 8
/-- Digest area (R352). -/
def descDigest (d : BitVec 1024) : Nat := byteN d 104 8
/-- Region node address. -/
def descRegion (d : BitVec 1024) : Nat := byteN d 96 8
/-- Reel word i (R78). -/
def descReel (d : BitVec 1024) (i : Nat) : Nat := byteN d (112 + 4 * i) 4
/-- Whether reel i is enabled. -/
def descReelOn (d : BitVec 1024) (i : Nat) : Bool := descReel d i % 2 == 1

/-- A descriptor with a field of `n` bytes at an offset replaced. -/
def descSet (d : BitVec 1024) (o n v : Nat) : BitVec 1024 :=
  BitVec.ofNat 1024 (d.toNat - byteN d o n * 2 ^ (8 * o) + v % 2 ^ (8 * n) * 2 ^ (8 * o))

/-- An address value on GLOBAL, local with its must-be-zero bits clear (R58). -/
def isGlobal (a : Nat) : Bool := a / 2 ^ 48 == 0
/-- An address value on COMMONS, local with its must-be-zero bits clear (R58). -/
def isCommons (a : Nat) : Bool := a / 2 ^ 28 == 2 ^ 33

/-- The reel of a reel word at placement (R78, R79). -/
def reelOf (w : Nat) : Option Reel :=
  if w % 2 = 0 then none
  else
    let n := w / 2 ^ 19 % 64 + 1
    some { space := w / 2 % 2 == 1, base := w / 4 % 2048 * 128, esz := (w / 2 ^ 13 % 64 + 1) * 128, nent := n, free := n
           full := 0, pix := 0, cix := 0, resq := [], takq := [], held := [] }

/-- The rule of R78 for a reel word. -/
def reelWordOk (d : BitVec 1024) (w : Nat) : Bool :=
  w / 2 ^ 25 == 0 &&
  (match reelOf w with
    | none => true
    | some r => decide (r.base + r.nent * r.esz ≤ 32768 * (if r.space then descOcnt d else descScnt d)))

/-- The address rules of reason 8 (R374, R375). -/
def addressesOk (d : BitVec 1024) : Bool :=
  let word (a : Nat) : Bool := a == 0 || (isGlobal a && a % 4 == 0)
  let cw := descCwaddr d
  isGlobal (descEntry d) && descEntry d % 2 == 0 && isGlobal (descParam d) &&
  isGlobal (byteN d 40 8) && byteN d 40 8 % 128 == 0 && (descSeedn d != 0 || byteN d 40 8 == 0) &&
  isGlobal (byteN d 48 8) && byteN d 48 8 % 8 == 0 && byteN d 36 4 % 8 == 0 &&
  (descCasts d == 1 || decide (8 + 8 * byteN d 56 4 ≤ byteN d 36 4)) &&
  word (byteN d 72 8) && word (byteN d 80 8) && isGlobal (descRegion d) &&
  (cw == 0 || ((isGlobal cw || isCommons cw) && cw % 4 == 0))

/-- The reasons 1 to 8 of R375, in their order; 0 where none applies. -/
def descReason (d : BitVec 1024) : Nat :=
  if byteN d 16 2 = 0 ∨ byteN d 18 2 = 0 ∨ byteN d 20 2 = 0 ∨ 2 ^ 31 < descCasts d then 1
  else if descSlots d = 0 ∨ 512 < descSlots d ∨ descStart d = 0 ∨ descSlots d < descStart d ∨ 8 * descSlots d < descSeedn d then 2
  else if 8 < descScnt d + descOcnt d ∨ 8 < descAcnt d ∨ bitsN d (8 * 26 + 12) 4 ≠ 0 then 3
  else if !(List.range 4).all (fun i => reelWordOk d (descReel d i)) then 4
  else if descDet d = 3 ∨ (descDet d = 2 ∧ !descIdemp d) then 5
  else if (if descDet d = 2 then descDigest d == 0 || !isGlobal (descDigest d) || descDigest d % 8 != 0 ||
      decide (2 ^ 48 < descDigest d + 32 + 8 * descCasts d) else descDigest d != 0) then 6
  else if descBudget d < 8 ∨ 64 < descBudget d ∨ descBudget d % 8 ≠ 0 then 7
  else if !addressesOk d then 8
  else 0

/-- The reserved fields of a descriptor that no earlier reason covers (R374, reason 11). -/
def descReserved (d : BitVec 1024) : Bool := bitsN d 242 6 != 0 || bitsN d (8 * 31 + 3) 5 != 0 || bitsN d (8 * 35 + 7) 1 != 0

/-- How many casts one empty plot holds at most (R382). -/
def plotHolds (d : BitVec 1024) : Nat :=
  let b := descScnt d + descOcnt d
  let n := min 15 (512 / descSlots d)
  let n := if b = 0 then n else min n (8 / b)
  let n := if descAcnt d = 0 then n else min n (8 / descAcnt d)
  if (List.range 4).any (descReelOn d) then min n 1 else n

/-! ### Regions (R376, R377) -/

/-- Whether a node's reserved bits are zero and its FDOM is 0 or 1 (R375, R376). -/
def nodeOk (n : BitVec 512) : Bool :=
  byteN n 8 4 / 2 ^ 7 == 0 && bitsN n 100 4 == 0 && bitsN n 106 6 == 0 && bitsN n 112 2 < 2 && bitsN n 114 2 == 0 &&
  bitsN n 117 11 == 0 && byteN n 36 4 == 0

/-- What the checks of a descriptor come to: they wait for a page under migration (R414), the descriptor is refused, or a value. -/
inductive Check (α : Type) where
  | wait
  | refused (s : State)
  | good (a : α)

/-- The chain of nodes from an address up to its root, at most `fuel` levels (R375, R377). -/
def regionChain (s : State) (al : Nat) : Nat → Nat → Check (State × List (Nat × BitVec 512))
  | _, 0 => .refused s
  | a, fuel + 1 =>
    if a % 64 ≠ 0 ∨ !isGlobal a then .refused s
    else match s.agentGet al a 64 with
      | .error (.migrating _) => .wait
      | .error _ => .refused (s.sees al a)
      | .ok (s, v) =>
        let n : BitVec 512 := BitVec.ofNat 512 v
        if !nodeOk n then .refused s
        else if byteN n 0 8 = 0 then .good (s, [(a, n)])
        else match regionChain s al (byteN n 0 8) fuel with
          | .good (s, l) => .good (s, (a, n) :: l)
          | e => e

/-- The node that gives a field its effective value (R377): the first whose OVR bit is set, or the root. -/
def effNode (b : Nat) : List (Nat × BitVec 512) → BitVec 512
  | [] => 0
  | [(_, n)] => n
  | (_, n) :: r => if bitsN n (64 + b) 1 = 1 then n else effNode b r

/-- The nodes of a chain whose budget fields are their own (R377). -/
def budgeted : List (Nat × BitVec 512) → List (Nat × BitVec 512)
  | [] => []
  | (a, n) :: r => if r.isEmpty || bitsN n 65 1 == 1 then (a, n) :: budgeted r else budgeted r

/-- Whether a node sets a limit: its RATE is nonzero (R377). -/
def hasRate (n : BitVec 512) : Bool := byteN n 16 4 != 0

/-- The nodes of a chain that have a bucket of their own (R377). -/
def buckets (l : List (Nat × BitVec 512)) : List (Nat × BitVec 512) := (budgeted l).filter (fun e => hasRate e.2)

/-- What a scene takes from its region at acceptance (R377). -/
structure Effective where
  prio : Nat := 0
  fdom : Nat := 0
  trapr : Bool := false
  wdlim : Nat := 0
  drain : Nat := 0
  slice : Nat := 0
  path : List DWord := []
  deriving DecidableEq, Repr

/-- The effective values of a chain (R377); an empty chain is that of a scene whose REGION is 0. -/
def effective (l : List (Nat × BitVec 512)) : Effective :=
  { prio := bitsN (effNode 0 l) 96 4, fdom := bitsN (effNode 2 l) 112 2, trapr := bitsN (effNode 3 l) 116 1 == 1
    wdlim := byteN (effNode 4 l) 24 4, drain := byteN (effNode 5 l) 28 4, slice := byteN (effNode 6 l) 32 4
    path := (budgeted l).map (fun e => BitVec.ofNat 64 e.1) }

/-- The chain of a descriptor's REGION. -/
def descChain (s : State) (al : Nat) (d : BitVec 1024) : Check (State × List (Nat × BitVec 512)) :=
  if descRegion d = 0 then .good (s, []) else regionChain s al (descRegion d) 8

/-- Whether a bucket's PERIOD is in range (R375, reason 9). -/
def periodOk (n : BitVec 512) : Bool := decide (1024 ≤ byteN n 20 4) && decide (byteN n 20 4 ≤ 2 ^ 31)

/-- The checks of R375 in reason order: the reason, 0 where none applies, and the effective values; none: they wait for a page under
migration (R414). (Log 25, DEDUCED.) -/
def refusal (s : State) (al : Nat) (d : BitVec 1024) : Option (State × Nat × Effective) :=
  if descReason d ≠ 0 then some (s, descReason d, {})
  else match descChain s al d with
    | .wait => none
    | .refused s => some (s, 9, {})
    | .good (s, l) =>
      some <|
        if !(buckets l).all (fun e => periodOk e.2) then (s, 9, {})
        else if descCohort d && decide (plotHolds d * (s.plotsOf al).length < descCasts d) then (s, 10, {})
        else if descReserved d then (s, 11, {})
        else (s, 0, effective l)

/-- Whether a node of a scene's path sets a limit now: the dispatcher reads the budget fields at every grant (R377). One that it cannot
read counts as a limit. -/
def State.limits (s : State) (al : Nat) (node : DWord) : Bool :=
  match s.agentGet al (bitsN node 0 48 + 16) 4 with
  | .ok (_, v) => v != 0
  | .error _ => true

/-- The buckets on the path of a cast, with the RATE that its nodes hold now (R377). -/
def State.bucketsOf (s : State) (c : Cast) : List DWord :=
  (((look s.scenes c.scene).map Scene.path).getD []).filter (fun n => s.limits c.al n)

/-! ### Queue control blocks (R370) -/

/-- A field of a queue control block, as memory holds it. -/
def State.qcb (s : State) (al q o n : Nat) : Nat := s.dpRead (acbQtab (s.acb al) + 64 * q + o) n al

/-- Writes a field of a queue control block. -/
def State.setQcb (s : State) (al q o n v : Nat) : State := s.dpWrite (acbQtab (s.acb al) + 64 * q + o) n v al

/-- Writes HEAD or CQTAIL of a queue control block, as an allotment-scope release that wakes waiters (R238, R371, R383). -/
def State.setIndex (s : State) (al q o : Nat) (v : Word) : State :=
  (s.setQcb al q o 4 v.toNat).wakeRange (.home (acbQtab (s.acb al) + 64 * q + o)) 4

/-- Sets CTXST (R370). -/
def State.setCtxst (s : State) (al q v : Nat) : State :=
  (s.onQueue al q (fun x => { x with ctxst := v })).setQcb al q 44 4 v

/-- A difference of ring indices, modulo 2^32 (R370). -/
def idxDiff (a b : Nat) : Nat := (a + 2 ^ 32 - b % 2 ^ 32) % 2 ^ 32

/-! ### Contexts (R387, R467) -/

/-- The casts of a context that hold a place on a plot. -/
def State.placed (s : State) (al q : Nat) : List (Nat × Cast) :=
  s.casts.filter (fun (_, c) => c.al == al && c.qn == q && c.st != .listWait)

/-- The accepted scenes of a queue that have not completed (R371). -/
def State.accepted (s : State) (al q : Nat) : List (Nat × Scene) :=
  s.scenes.filter (fun (_, x) => x.al == al && x.qn == q && x.fire.isNone)

/-- Whether a graph runs firings or will run them (R467). -/
def Graph.runs (g : Graph) : Bool :=
  match g.st with
  | .running | .stopping | .rebinding => true
  | _ => false

/-- Takes a context off the plots it is resident on: each drains its promotion log and writes back its dirty lines
(R389 step 3, R467). -/
def State.offPlots (s : State) (al q : Nat) : State :=
  (s.plots.filter (fun (_, p) => p.ctx.contains (al, q))).foldl
    (fun s (n, _) => (s.flushPlot n).onPlot n (fun p => { p with log := [], ctx := p.ctx.filter (fun e => e != (al, q)) })) s

/-- A context goes idle (R467) where it has no cast placed or saved, no accepted scene that has not completed, and no graph that
runs; a soft save leaves nothing of it to restore (R388). -/
def State.idle (s : State) (al q : Nat) : State :=
  let x := s.queue al q
  if (x.ctxst = 1 ∨ x.ctxst = 2 ∨ x.ctxst = 3) ∧ x.draining.isNone ∧ (s.placed al q).isEmpty ∧ (s.accepted al q).isEmpty ∧
      !(((look s.allots al).map Allot.graphs).getD []).any (fun g => g.ctxQ == q && g.runs) ∧
      !(((look s.allots al).map Allot.saved).getD []).any (fun v => v.qn == q && !v.casts.isEmpty) then
    (((s.offPlots al q).onAllot al (fun a => { a with saved := a.saved.filter (fun v => v.qn != q) })).setCtxst al q 0)
  else s

/-- Whether the context of a queue takes new casts: resident or idle, and neither draining nor being saved (R380, R388, R389). -/
def State.ctxOpen (s : State) (al q : Nat) : Bool :=
  decide ((s.queue al q).ctxst ≤ 1) && (s.queue al q).draining.isNone && !(s.queue al q).saving

/-! ### Records that name a scene (R383, R352, R417) -/

/-- The record of a fault of a scene, which names no cast, thread or plot. -/
def sceneRec (al qn : Nat) (subn : Word) (code : FCode) (cls info : Nat) (faddr : DWord) (acck : Acck) : FaultRec :=
  { code := code, cls := BitVec.ofNat 2 cls, agent := false, acck := acck, dep := 0, al := BitVec.ofNat 16 al
    qn := BitVec.ofNat 8 qn, seq := 0, subn := subn, castix := BitVec.allOnes 32, slot := 0xFFFF, plot := 0xFFFF
    iaddr := 0, faddr := faddr, key := 0, info := BitVec.ofNat 32 info, time := 0, both := cls != 2 }

/-- A write of the dispatcher for a scene at a GLOBAL or COMMONS address, at allotment scope; `wake` says that it is a release that wakes waiters (R238). A fault writes
nothing and is recorded with class 3 (R383); a page under migration makes the step wait (R414), as does a record that cannot be held (R420). (Log 26, DEDUCED.) -/
def State.scenePut (s : State) (al qn : Nat) (subn : Word) (a n v : Nat) (wake : Bool) : Option State :=
  if isCommons a then
    let off := a % 2 ^ 28
    some (if off < acbCmnb (s.acb al) * 2 ^ 20 then s.deviceWrite (.bank (commonsAddr s al off)) n v else s)
  else
    let rec_ (code : FCode) (info : Nat) (ak : Acck) : Option State :=
      if s.recFull then none else some ((s.seesTo al a n).record (sceneRec al qn subn code 3 info (BitVec.ofNat 64 a) ak))
    match s.agentPut al a n v wake with
    | .ok s => some s
    | .error (.migrating _) => none
    | .error (.fatal code _ info walk) => rec_ code info (walkAcck walk .store)
    | .error (.xlate kind _) => rec_ .xlate kind .store

end Sys2Proof.Machine
end

