-- ==== Sys2Proof/Machine/Graph.lean ====
section
/-!
DEFINITION. Rate-declared graphs (spec/13 R324 to R339): the balance engine, the graph instructions, the firings with
their records, end of stream, rebinding and failure.
-/

namespace Sys2Proof.Machine

open Sys2Proof

/-! ### The balance engine's reading (R324 to R327, R329 step 1) -/

/-- A graph descriptor's header as the engine reads it (R324). -/
structure GHead where
  nstg : Nat
  nch : Nat
  stab : Nat
  ctab : Nat
  ftab : Nat
  fcap : Nat
  ok : Bool
  deriving DecidableEq, Repr

/-- Reads the header and checks its fields (R329 step 1). -/
def headOf (v : BitVec 512) : GHead :=
  let h : GHead :=
    { nstg := byteN v 8 4, nch := byteN v 12 4, stab := byteN v 16 8, ctab := byteN v 24 8, ftab := byteN v 32 8
      fcap := byteN v 40 4, ok := true }
  { h with
    ok := byteN v 0 4 == 0x52444731 && byteN v 4 4 == 1 && decide (1 ≤ h.nstg) && decide (h.nstg ≤ 64) &&
      decide (h.nch ≤ 128) && isGlobal h.stab && h.stab % 32 == 0 && isGlobal h.ctab && h.ctab % 16 == 0 &&
      isGlobal h.ftab && h.ftab % 16 == 0 && byteN v 52 4 == 0 }

/-- A channel entry with its check (R326, R329 step 1). -/
def chanOf (nstg : Nat) (v : BitVec 384) : Chan × Bool :=
  let c : Chan :=
    { src := byteN v 0 2, dst := byteN v 2 2, p := byteN v 4 4, c := byteN v 8 4, init := byteN v 12 4, rsz := byteN v 28 4
      buf := BitVec.ofNat 64 (byteN v 16 8), cap := byteN v 24 4, req := 0, claimed := 0, made := byteN v 12 4, used := false }
  (c, decide (c.src < nstg) && decide (c.dst < nstg) && decide (1 ≤ c.p) && decide (c.p ≤ 65535) && decide (1 ≤ c.c) &&
    decide (c.c ≤ 65535) && decide (c.init < 2 ^ 31) && c.rsz % 4 == 0 && decide (4 ≤ c.rsz) && decide (c.rsz ≤ 65536) &&
    byteN v 36 12 == 0)

/-- Reads a stage entry and its scene descriptor, with their checks (R325, R329 step 1). -/
def stageOf (s : State) (al : Nat) (v : BitVec 256) : State × Stage × Bool :=
  let scn := byteN v 0 8
  let st (d : BitVec 1024) : Stage := { desc := d, aff := byteN v 8 8, pin := bitsN v (8 * 20) 1 == 1, q := 0, pinned := none }
  if byteN v 20 4 / 2 ≠ 0 ∨ byteN v 24 8 ≠ 0 ∨ !isGlobal scn then (s, st 0, false)
  else match s.agentGet al scn 128 with
    | .error _ => (s.seesTo al scn 128, st 0, false)
    | .ok (s, n) =>
      let d : BitVec 1024 := BitVec.ofNat 1024 n
      match refusal s al d with
      | none => (s, st d, false)
      | some (s, r, _) => (s, st d, r == 0 && descCasts d == 1 && isGlobal (descParam d) && descParam d % 256 == 0)

/-- Reads `n` entries of a table, `sz` bytes each; none: one of them cannot be read. -/
def readEntries (s : State) (al a sz : Nat) : Nat → State × Option (List Nat)
  | 0 => (s, some [])
  | n + 1 =>
    match s.agentGet al a sz with
    | .error _ => (s.seesTo al a sz, none)
    | .ok (s, v) => let (s, l) := readEntries s al (a + sz) sz n; (s, l.map (fun l => v :: l))

/-- Where a failed binding writes its detail (R329). -/
inductive Detail where
  | none
  | chan (n : Nat)
  | stage (n : Nat)
  deriving DecidableEq, Repr

/-- The channels that read from a stage, and those that write to it, in increasing number (R327). -/
def inPorts (cs : List Chan) (st : Nat) : List Nat := (List.range cs.length).filter (fun i => (cs[i]?).any (fun c => c.dst == st))
/-- The output ports of a stage (R327). -/
def outPorts (cs : List Chan) (st : Nat) : List Nat := (List.range cs.length).filter (fun i => (cs[i]?).any (fun c => c.src == st))

/-- The position of the first entry that fails. -/
def firstBad (l : List Bool) : Option Nat := (List.range l.length).find? (fun i => l[i]? == some false)

/-- Reads stage entries in order. -/
def stagesOf (al : Nat) (s : State) : List Nat → State × List (Stage × Bool)
  | [] => (s, [])
  | v :: r =>
    let (s, st, ok) := stageOf s al (BitVec.ofNat 256 v)
    let (s, l) := stagesOf al s r
    (s, (st, ok) :: l)

/-- What the engine has read of a graph. -/
structure GRead where
  head : GHead
  stages : List Stage
  chans : List Chan
  deriving DecidableEq, Repr

/-- Step 1 of R329: what was read, and the detail of a structure failure, channels before stages. (Log 27, DEDUCED.) -/
def readGraph (s : State) (al a : Nat) : State × Except (GHead × Detail) GRead :=
  match s.agentGet al a 64 with
  | .error _ => (s.seesTo al a 64, .error (headOf 0, .none))
  | .ok (s, v) =>
    let h := headOf (BitVec.ofNat 512 v)
    if !h.ok then (s, .error (h, .none))
    else match readEntries s al h.stab 32 h.nstg with
      | (s, none) => (s, .error (h, .none))
      | (s, some sv) =>
        match readEntries s al h.ctab 48 h.nch with
        | (s, none) => (s, .error (h, .none))
        | (s, some cv) =>
          let (s, ss) := stagesOf al s sv
          let cs := cv.map (fun v => chanOf h.nstg (BitVec.ofNat 384 v))
          let chans := cs.map Prod.fst
          let ports := (List.range h.nstg).map (fun i => decide ((inPorts chans i).length ≤ 4) && decide ((outPorts chans i).length ≤ 4))
          let okS := (ss.zip ports).map (fun (x, p) => x.2 && p)
          match firstBad (cs.map Prod.snd), firstBad okS with
          | some n, _ => (s, .error (h, .chan n))
          | none, some n => (s, .error (h, .stage n))
          | none, none => (s, .ok { head := h, stages := ss.map Prod.fst, chans := chans })

/-- The checks of a rebinding, which come last in step 1 (R338). -/
def keptStructure (g : Graph) (r : GRead) : Except Detail Unit :=
  if r.stages.length ≠ g.stages.length ∨ r.chans.length ≠ g.chans.length then .error .none
  else match firstBad ((r.chans.zip g.chans).map (fun (x, y) => x.src == y.src && x.dst == y.dst && x.init == y.init && x.rsz == y.rsz)) with
    | some n => .error (.chan n)
    | none => .ok ()

/-! ### Rates, limits and the period (R329 steps 2 to 5) -/

/-- A rate in lowest terms. -/
def ratio (n d : Nat) : Nat × Nat := (n / Nat.gcd n d, d / Nat.gcd n d)

/-- One channel of a solver pass. -/
def solveChan (r : List (Option (Nat × Nat))) (c : Chan) : List (Option (Nat × Nat)) :=
  let r := match r.getD c.src none, r.getD c.dst none with
    | some (n, d), none => r.set c.dst (some (ratio (n * c.p) (d * c.c)))
    | _, _ => r
  match r.getD c.src none, r.getD c.dst none with
  | none, some (n, d) => r.set c.src (some (ratio (n * c.c) (d * c.p)))
  | _, _ => r

/-- Solver passes: each but the last assigns a rate, so as many as there are stages reach the end. -/
def solve (cs : List Chan) (r : List (Option (Nat × Nat))) : Nat → List (Option (Nat × Nat))
  | 0 => r
  | n + 1 => solve cs (cs.foldl solveChan r) n

/-- The repetition counts of R329 step 2, or the detail of a failure. -/
def repetition (nstg : Nat) (cs : List Chan) : Except Detail (List Nat) :=
  let r := solve cs (some (1, 1) :: List.replicate (nstg - 1) none) nstg
  match firstBad (r.map Option.isSome) with
  | some n => .error (.stage n)
  | none =>
    let r := r.map (fun x => x.getD (0, 1))
    let l := r.foldl (fun l x => Nat.lcm l x.2) 1
    let q := r.map (fun x => x.1 * (l / x.2))
    let g := q.foldl Nat.gcd 0
    let q := q.map (fun x => x / g)
    match firstBad (cs.map (fun c => c.p * q.getD c.src 0 == c.c * q.getD c.dst 0)) with
    | some n => .error (.chan n)
    | none => .ok q

/-- The limits of R329 step 3. -/
def limits (q : List Nat) : Except Detail Unit :=
  match firstBad (q.map (fun x => decide (x ≤ 65535))) with
  | some n => .error (.stage n)
  | none => if 65536 < q.sum then .error .none else .ok ()

/-- The simulation's state (R329 step 4). -/
structure Period where
  tok : List Nat
  req : List Nat
  left : List Nat
  table : List (Nat × Nat)
  deriving DecidableEq, Repr

/-- One firing of a stage in the simulation. -/
def Period.fire (cs : List Chan) (p : Period) (st : Nat) : Period :=
  let tok := (inPorts cs st).foldl (fun t i => t.set i (t.getD i 0 - ((cs[i]?).map Chan.c).getD 0)) p.tok
  let tok := (outPorts cs st).foldl (fun t i => t.set i (t.getD i 0 + ((cs[i]?).map Chan.p).getD 0)) tok
  { tok := tok
    req := (p.req.zip tok).map (fun (r, t) => max r t)
    left := p.left.set st (p.left.getD st 0 - 1)
    table := match p.table.getLast? with
      | some (x, n) => if x = st then p.table.dropLast ++ [(st, n + 1)] else p.table ++ [(st, 1)]
      | none => [(st, 1)] }

/-- The stage that the simulation fires next. -/
def Period.next (cs : List Chan) (p : Period) : Option Nat :=
  (List.range p.left.length).find? (fun st =>
    decide (0 < p.left.getD st 0) && (inPorts cs st).all (fun i => decide (((cs[i]?).map Chan.c).getD 0 ≤ p.tok.getD i 0)))

/-- Simulates a period of `n` firings; the error is the state at a stall. -/
def Period.run (cs : List Chan) (p : Period) : Nat → Except Period Period
  | 0 => .ok p
  | n + 1 =>
    match p.next cs with
    | none => .error p
    | some st => (p.fire cs st).run cs n

/-- How a binding ends (R329). -/
inductive Bound where
  | bad (h : GHead) (d : Detail)
  /-- a stall: every Q, and the tokens that each channel held -/
  | dead (h : GHead) (q tok : List Nat)
  | done (r : GRead) (q : List Nat) (p : Period)

/-- The balance engine's steps 1 to 5 (R329); `keep` gives the graph whose structure a rebinding keeps (R338). -/
def balance (s : State) (al a : Nat) (keep : Option Graph) : State × Bound :=
  match readGraph s al a with
  | (s, .error (h, d)) => (s, .bad h d)
  | (s, .ok r) =>
    (s, match (match keep with | some g => keptStructure g r | none => .ok ()) with
      | .error d => .bad r.head d
      | .ok () =>
        match repetition r.head.nstg r.chans with
        | .error d => .bad r.head d
        | .ok q =>
          match limits q with
          | .error d => .bad r.head d
          | .ok () =>
            match ({ tok := r.chans.map Chan.init, req := r.chans.map Chan.init, left := q, table := [] } : Period).run r.chans q.sum with
            | .error p => .dead r.head q p.tok
            | .ok p => if r.head.fcap < p.table.length then .bad r.head .none else .done r q p)

/-! ### What the engine writes (R328, R329) -/

/-- A write of the engine or the dispatcher to the graph's memory at allotment scope; where it does not go through, nothing is
written. -/
def State.gput (s : State) (al a n v : Nat) : State := (s.agentPut al a n v false).toOption.getD (s.sees al a)

/-- A write of STATUS, PERDONE or RUNW, as an allotment-scope release that wakes waiters (R331, R238). (Log 29, DEDUCED.) -/
def State.gsignal (s : State) (al a v : Nat) : State := (s.agentPut al a 4 v true).toOption.getD (s.sees al a)

/-- Writes a list of words at a stride. -/
def State.gputs (s : State) (al a stride : Nat) : List Nat → State
  | [] => s
  | v :: r => (s.gput al a 4 v).gputs al (a + stride) stride r

/-- Changes a graph of an allotment. -/
def State.onGraph (s : State) (al g : Nat) (f : Graph → Graph) : State :=
  s.onAllot al (fun a => { a with graphs := a.graphs.modify g f })

/-- A graph of an allotment. -/
def State.graph? (s : State) (al g : Nat) : Option Graph := (look s.allots al).bind (fun a => a.graphs[g]?)

/-- Writes STATUS. -/
def State.gstatus (s : State) (al a v : Nat) : State := s.gsignal al (a + 44) v

/-- Writes RUNW, which the dispatcher also keeps. -/
def State.setRunw (s : State) (al g : Nat) (v : Nat) : State :=
  match s.graph? al g with
  | none => s
  | some x => (s.onGraph al g (fun x => { x with runw := BitVec.ofNat 32 v })).gsignal al (x.addr + 60) v

/-- Writes PERDONE. -/
def State.setPerdone (s : State) (al g : Nat) (v : Word) : State :=
  match s.graph? al g with
  | none => s
  | some x => (s.onGraph al g (fun x => { x with perdone := v })).gsignal al (x.addr + 56) v.toNat

/-- Writes a successful binding (R329): every Q, every REQ, the firing table, PERF of the header. -/
def State.putBinding (s : State) (al a : Nat) (h : GHead) (q : List Nat) (p : Period) : State :=
  let s := s.gputs al (h.stab + 16) 32 q
  let s := s.gputs al (h.ctab + 32) 48 p.req
  let s := s.gputs al h.ftab 4 ([0x46544231, p.table.length, q.sum, 0] ++ p.table.map (fun (st, n) => st + 256 * n))
  s.gput al (a + 48) 4 q.sum

/-- Writes the detail and the STATUS of a failed binding (R329). -/
def State.putFailure (s : State) (al a : Nat) (b : Bound) : State :=
  match b with
  | .bad h d =>
    let s := match d with
      | .none => s
      | .chan n => s.gput al (h.ctab + 48 * n + 32) 4 0xFFFFFFFF
      | .stage n => s.gput al (h.stab + 32 * n + 16) 4 0xFFFFFFFF
    s.gstatus al a 0x80000013
  | .dead h q tok => ((s.gputs al (h.stab + 16) 32 q).gputs al (h.ctab + 32) 48 tok).gstatus al a 0x80000014
  | .done _ _ _ => s

/-- The graph that a binding leaves: with `keep`, the record counters, BUF and CAP of a rebinding are kept (R332, R338), and
the plots of PIN stages are not. (Log 90, DESIGN CHOICE.) -/
def boundGraph (g : Graph) (keep : Bool) (r : GRead) (q : List Nat) (p : Period) : Graph :=
  let cs := (r.chans.zip p.req).map (fun (c, n) => { c with req := n })
  { g with
    ctab := r.head.ctab
    stages := (r.stages.zip q).map (fun (x, n) => { x with q := n })
    chans := if keep then (cs.zip g.chans).map (fun (c, o) =>
        { c with claimed := o.claimed, made := o.made, used := o.used, buf := o.buf, cap := o.cap }) else cs
    table := p.table
    firings := if keep then g.firings else []
    perEnds := []
    eosPos := 0
    failed := none
    promoted := if keep then g.promoted else []
    stopAt := none }

/-- Whether a page of the allotment is under migration: the balance engine and the dispatcher's graph work wait for it (R414). -/
def State.migrating (s : State) (al : Nat) : Bool := s.win.mbusy && s.win.migal.toNat == al

/-- BINDING (R329, R332). -/
def execBinding (al g : Nat) (s : State) : Out :=
  .next (match s.graph? al g with
    | none => s
    | some x =>
      if x.st ≠ .binding ∨ s.migrating al then s
      else
        let s := s.gstatus al x.addr 0
        match balance s al x.addr none with
        | (s, .done r q p) =>
          let s := s.putBinding al x.addr r.head q p
          let s := s.onGraph al g (fun x => { boundGraph x false r q p with st := .bound, k := 0, j := 0, target := none })
          ((s.setPerdone al g 0).setRunw al g 0).gstatus al x.addr 1
        | (s, b) => (s.putFailure al x.addr b).onGraph al g (fun x => { x with st := .unbound }))

/-! ### A run's start (R334) -/

/-- A read of `n` bytes at a GLOBAL or COMMONS address for the dispatcher: zeros where they cannot be read.
(Log 92, DESIGN CHOICE.) -/
def State.ringGet (s : State) (al a n : Nat) : State × Nat :=
  if isCommons a then (s, Memory.read s.cmn (commonsAddr s al (a % 2 ^ 28)) n)
  else match s.agentGet al a n with
    | .ok (s, v) => (s, v)
    | .error _ => (s.sees al a, 0)

/-- A write of a word at a GLOBAL or COMMONS address for the dispatcher: no wake event (R238). One that does not go
through is left out. (Log 92, DESIGN CHOICE.) -/
def State.ringPut (s : State) (al a v : Nat) : State :=
  if isCommons a then { s with cmn := Memory.write s.cmn (commonsAddr s al (a % 2 ^ 28)) 4 v }
  else match agentAccess s al a .write with
    | .ok (s, pa, _) => s.homeWrite pa 4 v
    | .error _ => s.sees al a

/-- Writes back and drops a ring's lines from every plot's cache, so that the ring's home is current (R334). -/
def State.expelAll (s : State) (pa : Nat) : State := s.plots.foldl (fun s (p, _) => s.expel p (pa / 128)) s

/-- Drops the copies of a GLOBAL word from every plot's cache. -/
def State.expelVirt (s : State) (al a : Nat) : State :=
  match agentAccess s al a .read with
  | .ok (s, pa, _) => s.expelAll pa
  | .error _ => s.sees al a

/-- Reads `n` words of a ring's record from an address on. -/
def ringWords (s : State) (al a : Nat) : Nat → State × List Nat
  | 0 => (s, [])
  | n + 1 =>
    let s := if isCommons a then s else s.expelVirt al a
    let (s, v) := s.ringGet al a 4
    let (s, l) := ringWords s al (a + 4) n
    (s, v :: l)

/-- Writes words from an address on. -/
def ringStore (s : State) (al a : Nat) : List Nat → State
  | [] => s
  | v :: r =>
    let s := if isCommons a then s else s.expelVirt al a
    ringStore (s.ringPut al a v) al (a + 4) r

/-- Reads the records from `n` on, `m` of them, of a ring. -/
def ringRecords (s : State) (al : Nat) (c : Chan) (n : Nat) : Nat → State × List (Nat × List Nat)
  | 0 => (s, [])
  | m + 1 =>
    let (s, w) := ringWords s al (c.buf.toNat + c.rsz * (n % c.cap)) (c.rsz / 4)
    let (s, l) := ringRecords s al c (n + 1) m
    (s, (n, w) :: l)

/-- Moves a channel's held records to a new ring, at their own record numbers (R334). -/
def moveRing (s : State) (al : Nat) (c : Chan) (buf cap : Nat) : State :=
  if !c.used || (c.buf.toNat == buf && c.cap == cap) then s
  else
    let (s, l) := ringRecords s al c c.claimed (c.made - c.claimed)
    l.foldl (fun s (n, w) => ringStore s al (buf + c.rsz * (n % cap)) w) s

/-- BUF and CAP of the channels, as GRUN reads them; none where one cannot be read, which fails the run as a bad ring does.
(Log 92, DESIGN CHOICE.) -/
def readRings (s : State) (al ctab : Nat) : Nat → State × Option (List (Nat × Nat))
  | 0 => (s, some [])
  | n + 1 =>
    match readRings s al ctab n with
    | (s, none) => (s, none)
    | (s, some l) =>
      match s.agentGet al (ctab + 48 * n + 16) 12 with
      | .ok (s, v) => (s, some (l ++ [(v % 2 ^ 64, v / 2 ^ 64)]))
      | .error _ => (s.seesTo al (ctab + 48 * n + 16) 12, none)

/-- The checks of R334 on a channel's BUF and CAP. -/
def ringOk (c : Chan) (r : Nat × Nat) : Bool :=
  decide (c.req ≤ r.2) && decide (c.made - c.claimed ≤ r.2) && r.1 % 4 == 0 && (isGlobal r.1 || isCommons r.1)

/-- Starts a run of `n` periods from PERDONE, 0 for no end; without success RUNW receives `bad` and the graph is BOUND
(R334, R338). (Log 92, DESIGN CHOICE.) -/
def State.runGraph (s : State) (al g n bad : Nat) : State :=
  match s.graph? al g with
  | none => s
  | some x =>
    let fail (s : State) : State := (s.onGraph al g (fun x => { x with st := .bound })).setRunw al g bad
    match readRings s al x.ctab x.chans.length with
    | (s, none) => fail s
    | (s, some rs) =>
      if !((x.chans.zip rs).all (fun (c, r) => ringOk c r)) then fail s
      else
        let s := (x.chans.zip rs).foldl (fun s (c, r) => moveRing s al c r.1 r.2) s
        let k := x.perdone.toNat
        let stop := if n = 0 then none else some (k + n)
        let s := s.onGraph al g (fun x =>
          { x with
            st := .running, k := k, j := 0, stopAt := stop, target := stop
            chans := (x.chans.zip rs).map (fun (c, r) => { c with buf := BitVec.ofNat 64 r.1, cap := r.2, used := true }) })
        s.setRunw al g 1

/-! ### Requests (R330 to R332) -/

/-- The position of the graph at an address in its allotment's list. -/
def State.graphAt (s : State) (al a : Nat) : Option Nat :=
  (look s.allots al).bind fun x => x.graphs.findIdx? (fun g => g.addr == a)

/-- Stops new firings after the highest period that has a started firing (R337, R338). -/
def Graph.stopNow (g : Graph) : Graph :=
  let n := if g.j = 0 then g.k else g.k + 1
  { g with stopAt := some ((g.stopAt.map (fun m => min m n)).getD n) }

/-- BIND or BIND.WB on a graph that is not RUNNING (R332): to BINDING, or refused. PERDONE of a
graph that no binding has succeeded for is a free value. (Log 31, DEDUCED.) (Log 90, DESIGN CHOICE.) -/
def State.bindReq (s : State) (al a : Nat) : Option State :=
  match look s.allots al with
  | none => none
  | some x =>
    let live := (x.graphs.filter (fun g => g.st != .unbound)).length
    match x.graphs.findIdx? (fun g => g.addr == a) with
    | none =>
      if 32 ≤ live then none
      else
        let (v, s) := s.fresh
        some ((s.onAllot al (fun x => { x with graphs := x.graphs ++ [{ addr := a, st := .binding, perdone := BitVec.ofNat 32 v }] })).gstatus al a 0)
    | some g =>
      let go := some ((s.onGraph al g (fun x => { x with st := .binding })).gstatus al a 0)
      match (x.graphs[g]?).map Graph.st with
      | some .unbound => if 32 ≤ live then none else go
      | some .bound | some .failed => go
      | _ => none

/-- The common part of the graph instructions (R331): the check of the descriptor's address, and its access. One whose page an entry of its
thread waits for takes an entry of the operand log behind it (R418). A request waits while a page of its allotment is under migration
(R414). -/
def graphAcc (rel : Bool) (s : State) (k : Ctx) (a : DWord) (go : State → Nat → Out) : Out :=
  match checkAcc s k.c .ctrl a 64 0 with
  | .error c => .next (raiseWith s k c 0 0 a .load)
  | .ok sp =>
    if (rel && k.busy s) || k.acquiring s || (k.behind s a 64).any Held.late then block s k .order
    else if !(k.behind s a 64).isEmpty then
      if s.logFull k.c.plot then block s k .issue
      else block (s.hold k.c.plot (againEntry s k (bitsN a 0 48) 64 .again .load)) k .xlate
    else if s.migrating k.c.al then block s k .issue
    else match resolve s k.c k.r.c sp .read with
      | .error e => accStop s k e a .load 64
      | .ok (s, _, _) => go (if rel then s.release k.c.plot 3 else s) (bitsN a 0 48)

/-- Answers a request of the context's thread: accepted, the instruction completes; refused, GBUSY (R331). -/
def graphAnswer (s : State) (k : Ctx) (r : Option State) : Out :=
  match r with
  | some s => .next (retire s k k.t (k.after 4) false)
  | none => raise s k .gbusy

/-- BIND (R330 to R332). -/
def execBind (q : Bool) (a : BitVec 5) (s : State) : Out :=
  prologue false false q (pairDst a) s fun k =>
    graphAcc true s k (k.t.getA a) fun s va => graphAnswer s k (s.bindReq k.c.al va)

/-- BIND.WB (R330 to R332, R338): on a RUNNING graph, to REBINDING. -/
def execBindWb (q : Bool) (a : BitVec 5) (s : State) : Out :=
  prologue false false q (pairDst a) s fun k =>
    graphAcc true s k (k.t.getA a) fun s va =>
      match (s.graphAt k.c.al va).bind (fun g => (s.graph? k.c.al g).map (fun x => (g, x))) with
      | some (g, x) =>
        if x.st = .running then
          graphAnswer s k (some (s.onGraph k.c.al g (fun x => { x.stopNow with st := .rebinding })))
        else graphAnswer s k (s.bindReq k.c.al va)
      | none => graphAnswer s k (s.bindReq k.c.al va)

/-- GRUN (R330 to R334): the run belongs to the context and the scene of the thread that executes it (R333). -/
def execGrun (q : Bool) (a : BitVec 5) (b : BitVec 6) (s : State) : Out :=
  prologue false false q (pairDst a ++ [.x b]) s fun k =>
    graphAcc true s k (k.t.getA a) fun s va =>
      match (s.graphAt k.c.al va).bind (fun g => (s.graph? k.c.al g).map (fun x => (g, x))) with
      | some (g, x) =>
        if x.st = .bound then
          let subn := ((look s.scenes k.c.scene).map Scene.subn).getD 0
          let s := s.runGraph k.c.al g (k.t.getX b).toNat 0x80000013
          graphAnswer s k (some (s.onGraph k.c.al g (fun x =>
            if x.st = .running then { x with ctxQ := k.c.qn, ctxSubn := subn } else x)))
        else graphAnswer s k none
      | none => graphAnswer s k none

/-- GSTOP (R330 to R332, R337). -/
def execGstop (q : Bool) (a : BitVec 5) (s : State) : Out :=
  prologue false false q (pairDst a) s fun k =>
    graphAcc false s k (k.t.getA a) fun s va =>
      match (s.graphAt k.c.al va).bind (fun g => (s.graph? k.c.al g).map (fun x => (g, x))) with
      | none => graphAnswer s k (some s)
      | some (g, x) =>
        let stop := some (s.onGraph k.c.al g (fun x => { x.stopNow with st := .stopping, eosPos := 0 }))
        graphAnswer s k (match x.st with
          | .unbound | .stopping => some s
          | .binding | .rebinding | .failed => none
          | .running => stop
          | .bound => if x.runw = 1 ∨ x.runw = 2 then stop else some s)

/-- The state codes that GSTAT returns (R332). -/
def GState.code : GState → Nat
  | .unbound => 0 | .binding => 1 | .bound => 2 | .running => 3 | .stopping => 4 | .rebinding => 5 | .failed => 6

/-- GSTAT (R330 to R332): the state code and PERDONE. PERDONE of a graph that was never bound is a free value (log 3, DESIGN CHOICE).
(Log 90, DESIGN CHOICE.) -/
def execGstat (q : Bool) (d : BitVec 5) (a : BitVec 5) (s : State) : Out :=
  prologue false false q (pairDst a ++ [.x (evenReg d), .x (oddReg d)]) s fun k =>
    graphAcc false s k (k.t.getA a) fun s va =>
      match (s.graphAt k.c.al va).bind (s.graph? k.c.al) with
      | some x => .next (retire s k ((k.t.setX (evenReg d) (BitVec.ofNat 32 x.st.code)).setX (oddReg d) x.perdone) (k.after 4) false)
      | none =>
        let (v, s) := s.fresh
        .next (retire s k ((k.t.setX (evenReg d) 0).setX (oddReg d) (BitVec.ofNat 32 v)) (k.after 4) false)

/-! ### Firings (R333 to R337) -/

/-- The stage of a firing ordinal, and its index among its stage's firings of the period (R333, R335). -/
def ordinal (table : List (Nat × Nat)) (j : Nat) (seen : List (Nat × Nat)) : Option (Nat × Nat) :=
  match table with
  | [] => none
  | (st, n) :: r =>
    let m := (look seen st).getD 0
    if j < n then some (st, m + j) else ordinal r (j - n) (put seen st (m + n))

/-- The stages in the order in which they first appear in the firing table (R337). -/
def Graph.eosOrder (g : Graph) : List Nat :=
  g.table.foldl (fun l x => if l.contains x.1 then l else l ++ [x.1]) []

/-- Firings per period (R328). -/
def Graph.perf (g : Graph) : Nat := (g.table.map Prod.snd).sum

/-- Whether a range of a channel's records meets a firing's range; an empty one, as an EOS firing's output, meets none (R337). -/
def PortRange.meets (x : PortRange) (ch first cnt : Nat) : Bool :=
  x.ch == ch && decide (0 < cnt) && decide (0 < x.cnt) && decide (x.first < first + cnt) && decide (first < x.first + x.cnt)

/-- Whether every producer of a range of records has ended (R333). -/
def Graph.recordsReady (g : Graph) (ch first cnt : Nat) : Bool :=
  ((g.chans[ch]?).any (fun c => decide (first + cnt ≤ c.made))) &&
    !g.firings.any (fun f => !f.ended && f.outs.any (fun o => o.meets ch first cnt))

/-- Whether the ring slots of a range of new records are free (R333). -/
def Graph.slotsFree (g : Graph) (ch first cnt : Nat) : Bool :=
  match g.chans[ch]? with
  | none => false
  | some c =>
    (List.range cnt).all (fun i =>
      let n := first + i
      decide (n < c.cap) ||
        (decide (n - c.cap < c.claimed) && !g.firings.any (fun f => !f.ended && f.ins.any (fun o => o.meets ch (n - c.cap) 1))))

/-- The ports of a stage's next firing: inputs and outputs (R335). -/
def Graph.ports (g : Graph) (st : Nat) (eos : Bool) : List PortRange × List PortRange :=
  ((inPorts g.chans st).filterMap (fun i => (g.chans[i]?).map (fun c => { ch := i, first := c.claimed, cnt := if eos then c.init else c.c })),
   (outPorts g.chans st).filterMap (fun i => (g.chans[i]?).map (fun c => { ch := i, first := c.made, cnt := if eos then 0 else c.p })))

/-- The port fields of a firing record (R335), padded to four ports. -/
def Graph.portFields (g : Graph) (l : List PortRange) : List (Nat × Nat) :=
  ((List.range 4).map (fun i =>
    match l[i]? with
    | some r =>
      let c := g.chans[r.ch]?
      [((c.map (fun c => c.buf.toNat)).getD 0, 8), (r.first, 8), ((c.map Chan.cap).getD 0, 4), (r.cnt, 4)]
    | none => [(0, 8), (0, 8), (0, 4), (0, 4)])).flatten

/-- Writes words at a GLOBAL address as the dispatcher's release, keeping no plot's older copy. -/
def State.gwords (s : State) (al a v : Nat) : Nat → State
  | 0 => s
  | n + 1 => ((s.expelVirt al a).gput al a 4 (v % 2 ^ 32)).gwords al (a + 4) (v / 2 ^ 32) n

/-- Starts a firing (R333, R335): its record is written, its records are claimed, and it waits for placement. Where the
region chain of its scene cannot be read, or is bad, its region values are zero. (Log 28, DEDUCED.) (Log 91, DESIGN CHOICE.) -/
def State.startFiring (s : State) (al g : Nat) (x : Graph) (k j st i : Nat) (eos : Bool) : State :=
  match x.stages[st]?, look s.allots al with
  | some sg, some a =>
    let (ins, outs) := x.ports st eos
    let rec_ := descParam sg.desc + 256 * (k % 2 * sg.q + i)
    let v := packN ([(k, 4), (j, 4), (st, 1), (if eos then 1 else 0, 1), (ins.length, 1), (outs.length, 1), (0, 4), (x.addr, 8), (0, 8)] ++
      x.portFields ins ++ x.portFields outs)
    let s := s.gwords al rec_ v 56
    let chain := descChain s al sg.desc
    let (s, e) := match chain with
      | .good (s, l) => (s, effective l)
      | .refused s => (s, {})
      | .wait => (s, {})
    let f : FireRef := { g := g, k := k, j := j, stage := st, eos := eos }
    let sc : Scene :=
      { al := al, qn := x.ctxQ, subn := x.ctxSubn, acc := a.nAcc, desc := descSet sg.desc 8 8 rec_, reason := 0, nextC := 0, nEnd := 0
        fails := [], stopped := false, prio := e.prio, fdom := e.fdom, trapr := e.trapr, wdlim := e.wdlim, drain := e.drain
        slice := e.slice, path := e.path, digests := [], rerun := false, phase := .running, setOrd := 0, fire := some f }
    let s : State := { s with scenes := put s.scenes s.nextScene sc, nextScene := s.nextScene + 1 }
    let s := s.onAllot al (fun a => { a with nAcc := a.nAcc + 1 })
    s.onGraph al g (fun x =>
      { x with
        firings := x.firings ++ [{ k := k, j := j, stage := st, eos := eos, plot := none, ended := false, ins := ins, outs := outs }]
        chans := if eos then x.chans else
          let cs := ins.foldl (fun cs r => cs.modify r.ch (fun c => { c with claimed := c.claimed + r.cnt })) x.chans
          outs.foldl (fun cs r => cs.modify r.ch (fun c => { c with made := c.made + r.cnt })) cs })
  | _, _ => s

/-- Whether a graph may start its next firing (R333): state, stop, context, order, records and slots, as R333 lists them. (Log 69,
DEDUCED.) -/
def State.mayFire (s : State) (al : Nat) (x : Graph) : Bool :=
  x.runs && x.failed.isNone && x.stopAt.all (fun n => decide (x.k < n)) && s.ctxOpen al x.ctxQ &&
    !x.firings.any (fun f => !f.ended && decide (f.k + 2 ≤ x.k)) &&
    (match ordinal x.table x.j [] with
      | none => false
      | some (st, _) =>
        (x.ports st false).1.all (fun r => x.recordsReady r.ch r.first r.cnt) &&
          (x.ports st false).2.all (fun r => x.slotsFree r.ch r.first r.cnt))

/-- FIRING_START (R333, R335). -/
def execFiringStart (al g : Nat) (s : State) : Out :=
  .next (match s.graph? al g with
    | none => s
    | some x =>
      if s.mayFire al x && !s.migrating al then
        match ordinal x.table x.j [] with
        | none => s
        | some (st, i) =>
          let s := s.startFiring al g x x.k x.j st i false
          s.onGraph al g (fun x => if x.j + 1 = x.perf then { x with k := x.k + 1, j := 0 } else { x with j := x.j + 1 })
      else s)

/-- Whether every started firing has ended and no further one starts. -/
def Graph.drained (g : Graph) : Bool :=
  g.firings.all Firing.ended && g.stopAt.any (fun n => decide (n ≤ g.k))

/-- EOS_FIRING (R337): one per stage, each after the previous one has ended. -/
def execEosFiring (al g : Nat) (s : State) : Out :=
  .next (match s.graph? al g with
    | none => s
    | some x =>
      if x.st = .stopping ∧ x.failed.isNone ∧ x.drained ∧ s.ctxOpen al x.ctxQ ∧ !s.migrating al then
        match x.eosOrder[x.eosPos]? with
        | none => s
        | some st =>
          (s.startFiring al g x x.k x.eosPos st 0 true).onGraph al g (fun x => { x with eosPos := x.eosPos + 1 })
      else s)

/-- Whether slots that a firing's records lay in have still to be written by a later firing (R333). -/
def Graph.frees (g : Graph) (f : Firing) : Bool :=
  f.ins.any (fun i => (g.chans[i.ch]?).any (fun c => decide (c.made < i.first + i.cnt + c.cap)))

/-- Drops ended firings whose records and freed slots no later placement asks about. -/
def Graph.prune (g : Graph) : Graph :=
  if g.firings.any (fun f => f.plot.isNone && !f.ended) then g
  else
    let fs := g.firings.filter (fun f =>
      !f.ended || g.frees f || f.outs.any (fun o => (g.chans[o.ch]?).any (fun c => decide (c.claimed < o.first + o.cnt))))
    { g with firings := fs, promoted := g.promoted.filter (fun e => fs.any (fun f => f.k == e.1 && f.j == e.2.1)) }

/-- PERDONE counts each period whose firings have all ended (R334). -/
def State.countPeriods (s : State) (al g : Nat) : State :=
  match s.graph? al g with
  | none => s
  | some x =>
    let n := (x.perEnds.filter (fun e => e.2 == x.perf)).length
    if n = 0 then s
    else (s.onGraph al g (fun x => { x with perEnds := x.perEnds.filter (fun e => e.2 != x.perf) })).setPerdone al g (x.perdone + BitVec.ofNat 32 n)

/-- What follows the end of a firing (R334, R337): PERDONE, the pause after the last period, the end of the stream. It waits while a page of
the allotment is under migration (R414), and comes then. -/
def State.afterFiring (s : State) (al g : Nat) : State :=
  if s.migrating al then s else
  let s := (s.countPeriods al g).onGraph al g Graph.prune
  match s.graph? al g with
  | none => s
  | some x =>
    if x.failed.isSome || !x.drained then s
    else match x.st with
      | .running => ((s.onGraph al g (fun x => { x with st := .bound })).setRunw al g 2).idle al x.ctxQ
      | .stopping =>
        if x.eosPos = x.eosOrder.length then
          ((s.onGraph al g (fun x => { x with st := .bound })).setRunw al g 3).idle al x.ctxQ
        else s
      | _ => s

/-- GRAPH_FAILURE_STOP (R339). -/
def execGraphFailureStop (al g : Nat) (s : State) : Out :=
  .next (match s.graph? al g with
    | none => s
    | some x =>
      match x.failed with
      | none => s
      | some c =>
        if x.runs && x.firings.all Firing.ended && !s.migrating al then
          let s := s.countPeriods al g
          (((s.onGraph al g (fun x => { x with st := .failed })).setRunw al g (0x80000000 + c.toNat))).idle al x.ctxQ
        else s)

/-- REBINDING (R338): once every started firing has ended, the engine rebinds; the run goes on with the remaining periods, or
pauses; with no period left it pauses without R334's checks. (Log 93, DESIGN CHOICE.) -/
def execRebinding (al g : Nat) (s : State) : Out :=
  .next (match s.graph? al g with
    | none => s
    | some x =>
      if x.st = .rebinding ∧ x.failed.isNone ∧ x.drained ∧ !s.migrating al then
        let s := s.gstatus al x.addr 0
        match balance s al x.addr (some x) with
        | (s, .done r q p) =>
          let s := s.putBinding al x.addr r.head q p
          let s := (s.onGraph al g (fun x => boundGraph x true r q p)).gstatus al x.addr 1
          match x.target with
          | none => (s.runGraph al g 0 2).idle al x.ctxQ
          | some n =>
            if n ≤ x.k then ((s.onGraph al g (fun x => { x with st := .bound })).setRunw al g 2).idle al x.ctxQ
            else (s.runGraph al g (n - x.k) 2).idle al x.ctxQ
        | (s, b) => ((s.putFailure al x.addr b).onGraph al g (fun x => { x with st := .failed })).idle al x.ctxQ
      else s)

/-! ### Placement of firings (R325, R336) -/

/-- The plots that AFF and PIN allow for a firing, among those of the allotment (R325). -/
def Graph.allows (g : Graph) (st rel : Nat) : Bool :=
  match g.stages[st]? with
  | none => false
  | some x =>
    match (if x.pin then x.pinned else none) with
    | some p => p == rel
    | none => x.aff == 0 || (decide (rel < 64) && x.aff / 2 ^ rel % 2 == 1)

/-- One promotion before a firing's first thread starts: the producer's plot serves up to its present RSEQ (R229, R336). -/
def State.promoteFor (s : State) (al p : Nat) : State :=
  if (s.plot p).holdsCtx al then (s.promoteTo p (s.plot p).rseq).onPlot p (fun q => { q with proms := q.proms + 1 }) else s

/-- The firings that have freed the slots of the records that a firing writes, where they ran on another plot than `p` (R333, R336). -/
def Graph.freedBy (g : Graph) (y : Firing) (p : Nat) : List Firing :=
  g.firings.filter (fun z => z.ended && z.plot.any (fun q => q != p) && z.ins.any (fun i => y.outs.any (fun o =>
    (g.chans[o.ch]?).any (fun c => { i with first := i.first + c.cap }.meets o.ch o.first o.cnt))))

/-- The firing is placed on a plot (R336): producers on other plots are promoted, once per producer firing and consumer
plot, and the cast starts with an acquire at allotment scope. What a firing that freed its slots has seen on another plot comes before its
writes too: that plot's earlier stores are written back first. -/
def State.firePlaced (s : State) (al p rel : Nat) (f : FireRef) : State :=
  match s.graph? al f.g with
  | none => s
  | some x =>
    match x.firings.find? (fun y => y.k == f.k && y.j == f.j && y.eos == f.eos) with
    | none => s
    | some y =>
      let prods := x.firings.filter (fun z => z.plot.any (fun q => q != p) && z.outs.any (fun o => y.ins.any (fun i => o.meets i.ch i.first i.cnt)))
      let need := prods.filter (fun z => !x.promoted.contains (z.k, z.j, p))
      let s := need.foldl (fun s z => s.promoteFor al (z.plot.getD 0)) s
      let freed := x.freedBy y p
      let s := freed.foldl (fun s z => let q := z.plot.getD 0; s.promoteTo q (s.plot q).rseq) s
      let s := if prods.isEmpty && freed.isEmpty then s else s.acquire p 3
      s.onGraph al f.g (fun x =>
        { x with
          promoted := x.promoted ++ need.map (fun z => (z.k, z.j, p))
          firings := x.firings.map (fun z => if z.k = f.k ∧ z.j = f.j ∧ z.eos = f.eos then { z with plot := some p } else z)
          stages := x.stages.modify f.stage (fun t => if t.pin && t.pinned.isNone then { t with pinned := some rel } else t) })

end Sys2Proof.Machine
end

