-- ==== Sys2Proof/Machine/Lane.lean ====
section
/-!
DEFINITION. Lane arithmetic (spec/06 R186 to R193, R195 to R197, R202): FP32, packed FP16 and BF16, comparisons,
conversions, extended-register chains, integer dot products, and the counter-based random numbers.
-/

namespace Sys2Proof.Machine

open Sys2Proof

/-! ### FALU, FFMA, FFMS, FNMA (R187, R188) -/

/-- FADD (R187). -/
def execFadd (q : Bool) (d a b : BitVec 6) (s : State) : Out :=
  fpOp 4 q [a, b] d (fun m t => w32 (fp32.addOp (modeF32 m) (t.getX a).toNat (t.getX b).toNat)) s

/-- FSUB (R187). -/
def execFsub (q : Bool) (d a b : BitVec 6) (s : State) : Out :=
  fpOp 4 q [a, b] d (fun m t => w32 (fp32.subOp (modeF32 m) (t.getX a).toNat (t.getX b).toNat)) s

/-- FMUL (R187). -/
def execFmul (q : Bool) (d a b : BitVec 6) (s : State) : Out :=
  fpOp 4 q [a, b] d (fun m t => w32 (fp32.mulOp (modeF32 m) (t.getX a).toNat (t.getX b).toNat)) s

/-- FMIN (R89, R187). -/
def execFmin (q : Bool) (d a b : BitVec 6) (s : State) : Out :=
  fpOp 4 q [a, b] d (fun m t => w32 (fp32.minMax (modeSubn m) false (t.getX a).toNat (t.getX b).toNat)) s

/-- FMAX (R89, R187). -/
def execFmax (q : Bool) (d a b : BitVec 6) (s : State) : Out :=
  fpOp 4 q [a, b] d (fun m t => w32 (fp32.minMax (modeSubn m) true (t.getX a).toNat (t.getX b).toNat)) s

/-- FABS (R187): bits only. -/
def execFabs (q : Bool) (d a : BitVec 6) (s : State) : Out :=
  aluOp 4 q [a] d (fun t => t.getX a &&& 0x7FFFFFFF) s

/-- FNEG (R187): bits only. -/
def execFneg (q : Bool) (d a : BitVec 6) (s : State) : Out :=
  aluOp 4 q [a] d (fun t => t.getX a ^^^ 0x80000000) s

/-- FSGNJ (R187): bits only. -/
def execFsgnj (q : Bool) (d a b : BitVec 6) (s : State) : Out :=
  aluOp 4 q [a, b] d (fun t => (t.getX a &&& 0x7FFFFFFF) ||| (t.getX b &&& 0x80000000)) s

/-- FFMA (R188): a × b + c, rounded once. -/
def execFfma (q : Bool) (d a b c : BitVec 6) (s : State) : Out :=
  fpOp 4 q [a, b, c] d
    (fun m t => w32 (fp32.fmaOp (modeF32 m) false false (t.getX a).toNat (t.getX b).toNat (t.getX c).toNat)) s

/-- FFMS (R188): a × b − c, rounded once. -/
def execFfms (q : Bool) (d a b c : BitVec 6) (s : State) : Out :=
  fpOp 4 q [a, b, c] d
    (fun m t => w32 (fp32.fmaOp (modeF32 m) false true (t.getX a).toNat (t.getX b).toNat (t.getX c).toNat)) s

/-- FNMA (R188): c − a × b, rounded once. -/
def execFnma (q : Bool) (d a b c : BitVec 6) (s : State) : Out :=
  fpOp 4 q [a, b, c] d
    (fun m t => w32 (fp32.fmaOp (modeF32 m) true false (t.getX a).toNat (t.getX b).toNat (t.getX c).toNat)) s

/-! ### Packed pairs (R87, R189, R190) -/

/-- Element e of a packed pair (R87). -/
def half (v : Word) (e : Nat) : Nat := bitsN v (16 * e) 16

/-- Two element results packed, with the OR of their flags (R87). -/
def pack2 (l h : Nat × Word) : Word × Word := (BitVec.ofNat 32 (l.1 + 65536 * h.1), l.2 ||| h.2)

/-- A packed operation on two operands. -/
def packed2 (q : Bool) (d a b : BitVec 6) (f : Word → Nat → Nat → Nat × Word) (s : State) : Out :=
  fpOp 4 q [a, b] d
    (fun m t => pack2 (f m (half (t.getX a) 0) (half (t.getX b) 0)) (f m (half (t.getX a) 1) (half (t.getX b) 1))) s

/-- HADD2 (R189). -/
def execHadd2 (q : Bool) (d a b : BitVec 6) (s : State) : Out := packed2 q d a b (fun m => fp16.addOp (modeF16 m)) s
/-- HSUB2 (R189). -/
def execHsub2 (q : Bool) (d a b : BitVec 6) (s : State) : Out := packed2 q d a b (fun m => fp16.subOp (modeF16 m)) s
/-- HMUL2 (R189). -/
def execHmul2 (q : Bool) (d a b : BitVec 6) (s : State) : Out := packed2 q d a b (fun m => fp16.mulOp (modeF16 m)) s
/-- HMIN2 (R189). -/
def execHmin2 (q : Bool) (d a b : BitVec 6) (s : State) : Out :=
  packed2 q d a b (fun m => fp16.minMax (modeSubn m) false) s
/-- HMAX2 (R189). -/
def execHmax2 (q : Bool) (d a b : BitVec 6) (s : State) : Out :=
  packed2 q d a b (fun m => fp16.minMax (modeSubn m) true) s
/-- BADD2 (R189). -/
def execBadd2 (q : Bool) (d a b : BitVec 6) (s : State) : Out := packed2 q d a b (fun m => bf16.addOp (modeB16 m)) s
/-- BSUB2 (R189). -/
def execBsub2 (q : Bool) (d a b : BitVec 6) (s : State) : Out := packed2 q d a b (fun m => bf16.subOp (modeB16 m)) s
/-- BMUL2 (R189). -/
def execBmul2 (q : Bool) (d a b : BitVec 6) (s : State) : Out := packed2 q d a b (fun m => bf16.mulOp (modeB16 m)) s
/-- BMIN2 (R189). -/
def execBmin2 (q : Bool) (d a b : BitVec 6) (s : State) : Out :=
  packed2 q d a b (fun m => bf16.minMax (modeSubn m) false) s
/-- BMAX2 (R189). -/
def execBmax2 (q : Bool) (d a b : BitVec 6) (s : State) : Out :=
  packed2 q d a b (fun m => bf16.minMax (modeSubn m) true) s

/-- A packed fused multiply-add. -/
def packed3 (q : Bool) (d a b c : BitVec 6) (f : Word → Nat → Nat → Nat → Nat × Word) (s : State) : Out :=
  fpOp 4 q [a, b, c] d
    (fun m t =>
      pack2 (f m (half (t.getX a) 0) (half (t.getX b) 0) (half (t.getX c) 0))
        (f m (half (t.getX a) 1) (half (t.getX b) 1) (half (t.getX c) 1))) s

/-- HFMA2 (R190). -/
def execHfma2 (q : Bool) (d a b c : BitVec 6) (s : State) : Out :=
  packed3 q d a b c (fun m => fp16.fmaOp (modeF16 m) false false) s
/-- BFMA2 (R190). -/
def execBfma2 (q : Bool) (d a b c : BitVec 6) (s : State) : Out :=
  packed3 q d a b c (fun m => bf16.fmaOp (modeB16 m) false false) s

/-! ### FCMP and FCVT (R191 to R193) -/

/-- FCMP (R191): every code is a condition. -/
def execFcmp (q : Bool) (kd : BitVec 3) (a b : BitVec 6) (c : BitVec 3) (s : State) : Out :=
  modeOp false 4 q [.x a, .x b] [.k kd]
    (fun m t =>
      let r := fcmp c.toNat (fp32.read (modeSubn m) (t.getX a).toNat) (fp32.read (modeSubn m) (t.getX b).toNat)
      (t.setK kd r.1, r.2)) s

/-- The floating-point format behind a code of R112. -/
def fmtOf (code : Nat) : Option Fmt :=
  match code with
  | 1 => some fp32
  | 2 => some fp16
  | 3 => some bf16
  | _ => none

/-- The signedness and width of an integer format behind a code of R112. -/
def intFmt (code : Nat) : Bool × Nat :=
  match code with
  | 8 => (true, 8)
  | 9 => (false, 8)
  | 10 => (true, 16)
  | 11 => (false, 16)
  | 12 => (true, 32)
  | _ => (false, 32)

/-- How MODE rounds to a floating-point format (R104). -/
def modeFor (m : Word) (code : Nat) : Rnd :=
  match code with
  | 1 => modeF32 m
  | 2 => modeF16 m
  | _ => modeB16 m

/-- The integer that an FCVT source holds (R192). -/
def intSource (code : Nat) (v : Nat) : Int :=
  let (sg, w) := intFmt code
  let u := v % 2 ^ w
  if sg && decide (2 ^ (w - 1) ≤ u) then (u : Int) - (2 ^ w : Nat) else (u : Int)

/-- FCVT's conversion (R192, R193); `v` is the source as selected by H. -/
def fcvt (m : Word) (dst src : Nat) (v : Nat) : Word × Word :=
  match fmtOf src, fmtOf dst with
  | some fs, some fd =>
    let x := fs.read (modeSubn m) (v % 2 ^ (1 + fs.eb + fs.fb))
    w32 (fd.finish (modeFor m dst) (if x.isSig then .invalid else .val x))
  | some fs, none =>
    let (sg, w) := intFmt dst
    let r := toInt (modeIntRnd m) sg w (fs.read false (v % 2 ^ (1 + fs.eb + fs.fb)))
    (intWord r.1, r.2)
  | none, some fd => w32 (fd.finish (modeFor m dst) (.val (intVal (intSource src v))))
  | none, none =>
    let (sg, w) := intFmt dst
    let i := intSource src v
    let r := if intLo sg w ≤ i ∧ i ≤ intHi sg w then (i, 0) else narrow (modeIntSat m) sg w i
    (intWord r.1, r.2)

/-- FCVT (R192). -/
def execFcvt (q : Bool) (d a : BitVec 6) (t sx : BitVec 4) (h : Bool) (s : State) : Out :=
  modeOp (!(Instr.fcvt q d a t sx h).wf) 4 q [.x a] [.x d]
    (fun m th =>
      let r := fcvt m t.toNat sx.toNat (if h then half (th.getX a) 1 else (th.getX a).toNat)
      (th.setX d r.1, r.2)) s

/-! ### Extended registers (R109, R110, R195, R196) -/

/-- An FP32 operand of a chain operation, as STEP and SUBN have it read (R109). -/
def chainX (m : Word) (v : Word) : FpVal := fp32.read (modeStep m && modeSubn m) v.toNat

/-- An extended-register operand of a chain operation: with STEP and SUBN, a magnitude below 2^−126 is a zero of the
same sign (R109). -/
def chainE (m : Word) (v : DWord) : FpVal :=
  match fp64.read false v.toNat with
  | .fin n k e =>
    if modeStep m && modeSubn m && k != 0 && decide ((Nat.log2 k : Int) + e < -126) then .fin n 0 e else .fin n k e
  | x => x

/-- The rounding of a chain result (R109): to binary64 by nearest-even, or to FP32 by MODE and widened exactly. -/
def chain (m : Word) (x : Exact) : DWord × Word :=
  if modeStep m then
    let r := fp32.finish (modeF32 m) x
    (BitVec.ofNat 64 (fp64.finish nearest (.val (match fp32.read false r.1 with | .nan _ => .nan false | v => v))).1, r.2)
  else
    let r := fp64.finish nearest x
    (BitVec.ofNat 64 r.1, r.2)

/-- The rounding code that decides the sign of an exact zero sum of a chain operation (R186). -/
def chainRnd (m : Word) : Nat := if modeStep m then (modeF32 m).rnd else 0

/-- A chain operation to an extended register. -/
def chainOp (q : Bool) (rd : List (BitVec 6)) (d : BitVec 2) (f : Word → Thread → Exact) (s : State) : Out :=
  modeOp false 4 q (rd.map Dst.x) [] (fun m t => (t.setE d (chain m (f m t)).1, (chain m (f m t)).2)) s

/-- FADD.E (R195). -/
def execFaddE (q : Bool) (d a : BitVec 2) (b : BitVec 6) (s : State) : Out :=
  chainOp q [b] d (fun m t => (chainE m (t.getE a)).add (chainRnd m) (chainX m (t.getX b))) s

/-- FMUL.E (R195). -/
def execFmulE (q : Bool) (d : BitVec 2) (a b : BitVec 6) (s : State) : Out :=
  chainOp q [a, b] d (fun m t => (chainX m (t.getX a)).mul (chainX m (t.getX b))) s

/-- FFMA.E (R195). -/
def execFfmaE (q : Bool) (d : BitVec 2) (a b : BitVec 6) (s : State) : Out :=
  chainOp q [a, b] d
    (fun m t => FpVal.fma (chainRnd m) (chainX m (t.getX a)) (chainX m (t.getX b)) (chainE m (t.getE d))) s

/-- EADD (R195). -/
def execEadd (q : Bool) (d a b : BitVec 2) (s : State) : Out :=
  chainOp q [] d (fun m t => (chainE m (t.getE a)).add (chainRnd m) (chainE m (t.getE b))) s

/-- EFROM (R195). -/
def execEfrom (q : Bool) (d : BitVec 2) (a : BitVec 6) (s : State) : Out :=
  chainOp q [a] d (fun m t => let x := chainX m (t.getX a); if x.isSig then .invalid else .val x) s

/-- ERND's rounding (R110). (Log 19, DEDUCED.) -/
def ernd (m : Word) (code : Nat) (v : DWord) : Word × Word :=
  let x := fp64.read (modeSubn m) v.toNat
  let f := (fmtOf code).getD fp32
  w32 (f.finish (modeFor m code) (if x.isSig then .invalid else .val x))

/-- ERND (R195). -/
def execErnd (q : Bool) (d : BitVec 6) (a : BitVec 2) (t : BitVec 6) (s : State) : Out :=
  modeOp (!(Instr.ernd q d a t).wf) 4 q [] [.x d]
    (fun m th => (th.setX d (ernd m t.toNat (th.getE a)).1, (ernd m t.toNat (th.getE a)).2)) s

/-- EGET (R195): 64 bits to a pair, no flag. -/
def execEget (q : Bool) (d : BitVec 5) (a : BitVec 2) (s : State) : Out :=
  threadOp 4 q [] [.x (evenReg d), .x (oddReg d)] (fun t => t.setPair (evenReg d) (t.getE a)) s

/-- ESET (R195): 64 bits from a pair, no flag. -/
def execEset (q : Bool) (d : BitVec 2) (a : BitVec 5) (s : State) : Out :=
  threadOp 4 q [.x (evenReg a), .x (oddReg a)] [] (fun t => t.setE d (t.getPair (evenReg a))) s

/-! ### Integer dot products (R92, R93, R197) -/

/-- Element i of width w of a word, signed or unsigned (R92). -/
def elem (sg : Bool) (w : Nat) (v : Word) (i : Nat) : Int :=
  let u := bitsN v (w * i) w
  if sg && decide (2 ^ (w - 1) ≤ u) then (u : Int) - (2 ^ w : Nat) else (u : Int)

/-- A dot product: exact, then narrowed once to the destination range (R113, R197). -/
def dot (m : Word) (sa sb dstSigned : Bool) (w n : Nat) (d a b : Word) : Word × Word :=
  let t := elem dstSigned 32 d 0 + ((List.range n).map (fun i => elem sa w a i * elem sb w b i)).sum
  let r := narrow (modeIntSat m) dstSigned 32 t
  (intWord r.1, r.2)

/-- A DOT instruction: x[d] is a source too. -/
def dotOp (q : Bool) (d a b : BitVec 6) (sa sb ds : Bool) (w n : Nat) (s : State) : Out :=
  fpOp 4 q [d, a, b] d (fun m t => dot m sa sb ds w n (t.getX d) (t.getX a) (t.getX b)) s

/-- DOT4 (R197). -/
def execDot4 (q : Bool) (d a b : BitVec 6) (s : State) : Out := dotOp q d a b true true true 8 4 s
/-- DOT4U (R197). -/
def execDot4u (q : Bool) (d a b : BitVec 6) (s : State) : Out := dotOp q d a b false false false 8 4 s
/-- DOT4SU (R197). -/
def execDot4su (q : Bool) (d a b : BitVec 6) (s : State) : Out := dotOp q d a b true false true 8 4 s
/-- DOT2H (R197). -/
def execDot2h (q : Bool) (d a b : BitVec 6) (s : State) : Out := dotOp q d a b true true true 16 2 s

/-! ### RNDM (R202) -/

/-- The four words of Philox's counter. -/
structure Ph where
  c0 : Nat
  c1 : Nat
  c2 : Nat
  c3 : Nat
  deriving DecidableEq, Repr

/-- Rounds of Philox4x32 from a key on (R202). -/
def philox (c : Ph) (k0 k1 : Nat) : Nat → Ph
  | 0 => c
  | n + 1 =>
    let p := 0xD2511F53 * c.c0
    let q := 0xCD9E8D57 * c.c2
    philox
      { c0 := Nat.xor (Nat.xor (q / 2 ^ 32) c.c1) k0, c1 := q % 2 ^ 32
        c2 := Nat.xor (Nat.xor (p / 2 ^ 32) c.c3) k1, c3 := p % 2 ^ 32 }
      ((k0 + 0x9E3779B9) % 2 ^ 32) ((k1 + 0xBB67AE85) % 2 ^ 32) n

/-- The four output words for an index pair, a stream and the crew's key (R202). -/
def rndm (w : Crew) (lo hi st : Word) : List Word :=
  let r := philox ⟨lo.toNat, hi.toNat, st.toNat, 0⟩ w.key0.toNat w.key1.toNat 10
  [BitVec.ofNat 32 r.c0, BitVec.ofNat 32 r.c1, BitVec.ofNat 32 r.c2, BitVec.ofNat 32 r.c3]

/-- RNDM (R202): one word, pending. -/
def execRndm (q : Bool) (d : BitVec 6) (a : BitVec 5) (b : BitVec 6) (w : BitVec 2) (s : State) : Out :=
  pendOp q [.x (evenReg a), .x (oddReg a), .x b] [.x d]
    (fun k =>
      { dst := [(.x d, (rndm k.crew (k.t.getX (evenReg a)) (k.t.getX (oddReg a)) (k.t.getX b)).getD w.toNat 0)] }) s

/-- The registers of a group of four (R126). -/
def quadRegs (d : BitVec 4) : List (BitVec 6) := [d ++ 0#2, d ++ 1#2, d ++ 2#2, d ++ 3#2]

/-- RNDM4 (R202): four words, pending. -/
def execRndm4 (q : Bool) (d : BitVec 4) (a : BitVec 5) (b : BitVec 6) (s : State) : Out :=
  pendOp q [.x (evenReg a), .x (oddReg a), .x b] ((quadRegs d).map Dst.x)
    (fun k =>
      { dst := ((quadRegs d).map Dst.x).zip (rndm k.crew (k.t.getX (evenReg a)) (k.t.getX (oddReg a)) (k.t.getX b)) }) s

end Sys2Proof.Machine
end

