-- ==== Sys2Proof/Machine/Block.lean ====
section
/-!
DEFINITION. The dual-exponent block formats (spec/03 R95 to R103): decoding, scale choice, encoding, outliers.
-/

namespace Sys2Proof.Machine

open Sys2Proof

/-- The element width of a DB format: field codes of BPACK and BUNPK (R198). -/
def dbWidth (f : Nat) : Nat :=
  match f with
  | 0 => 8
  | 1 => 6
  | _ => 4

/-- The element width behind a format code of R112, 0 where it is no DB format. -/
def dbOf (code : Nat) : Nat :=
  match code with
  | 4 => 8
  | 5 => 6
  | 6 => 4
  | _ => 0

/-- The size of a block in bytes (R95). -/
def dbBytes (n : Nat) : Nat := 4 + 4 * n

/-- The largest magnitude (R95). -/
def dbMax (n : Nat) : Nat := 2 ^ (n - 2) - 1

/-- The value of element i of a block that is given as a number (R96, R97). -/
def dbElem (n blk i : Nat) : FpVal :=
  let el := blk / 2 ^ (32 + n * i) % 2 ^ n
  let m := el % 2 ^ (n - 2)
  let sign := el / 2 ^ (n - 2) % 2 == 1
  let sc := if el / 2 ^ (n - 1) % 2 = 0 then blk % 512 else blk / 512 % 512
  if sc = 511 then .nan false
  else if m = 0 then .fin false 0 0
  else .fin sign m ((sc : Int) - 256)

/-- The rounded magnitude of a finite value at a scale, and whether it is inexact. -/
def dbQ (rnd : Nat) (x : FpVal) (sc : Nat) : Option (Nat × Bool) :=
  match x with
  | .fin neg m e => if sc = 511 then none else some (quantise rnd neg m e ((sc : Int) - 256))
  | _ => none

/-- Whether a value fits a scale (R97). -/
def dbFits (n rnd : Nat) (x : FpVal) (sc : Nat) : Bool :=
  match dbQ rnd x sc with
  | some (q, _) => decide (q ≤ dbMax n)
  | none => false

/-- Whether a value is finite. -/
def FpVal.isFin : FpVal → Bool
  | .fin _ _ _ => true
  | _ => false

/-- The smallest code from c on that every value fits; 510 if none (R98). -/
def dbScale (n rnd : Nat) (vs : List FpVal) (c : Nat) : Nat → Nat
  | 0 => 510
  | k + 1 => if vs.all (fun v => dbFits n rnd v c) then c else dbScale n rnd vs (c + 1) k

/-- AUTO scales: SH and SL (R98). -/
def dbAuto (n rnd : Nat) (vs : List FpVal) : Nat × Nat :=
  let sh := dbScale n rnd (vs.filter FpVal.isFin) (n - 2) (513 - n)
  (sh, sh - (n - 2))

/-- An element as encoded: its bits, its flags, and the value of an outlier. -/
structure DbEnc where
  bits : Nat
  flags : Word
  out : Option Word := none
  deriving DecidableEq, Repr

/-- The bits of an element. -/
def dbBits (n : Nat) (sel neg : Bool) (m : Nat) : Nat :=
  (if sel then 2 ^ (n - 1) else 0) + (if neg && m != 0 then 2 ^ (n - 2) else 0) + m

/-- The sign of a value that is no NaN. -/
def FpVal.sign : FpVal → Bool
  | .fin n _ _ => n
  | .inf n => n
  | .nan _ => false

/-- The flags of an element that fits (R100). -/
def dbFlags (x : FpVal) (q : Nat) (nx : Bool) : Word :=
  match x with
  | .fin _ m _ => flagIf nx fNX ||| flagIf (m != 0 && q == 0) fUF
  | _ => 0

/-- Encodes one element at two scales (R100, R101); `w` is the FP32 word that an outlier list receives. -/
def dbEncode (n rnd : Nat) (sat : Bool) (sh sl : Nat) (x : FpVal) (w : Word) : DbEnc :=
  let ovf : DbEnc :=
    if sat then
      match x with
      | .nan _ => { bits := 0, flags := fNV }
      | _ =>
        { bits := if sh ≠ 511 then dbBits n false x.sign (dbMax n) else if sl ≠ 511 then dbBits n true x.sign (dbMax n) else 0
          flags := fOF ||| fNX ||| fSAT }
    else
      { bits := 2 ^ (n - 2), flags := fOUT ||| flagIf x.isSig fNV
        out := some (if x.isNan then BitVec.ofNat 32 fp32.nan else w) }
  match dbQ rnd x sl with
  | some (q, nx) =>
    if q ≤ dbMax n then { bits := dbBits n true x.sign q, flags := dbFlags x q nx }
    else match dbQ rnd x sh with
      | some (q, nx) => if q ≤ dbMax n then { bits := dbBits n false x.sign q, flags := dbFlags x q nx } else ovf
      | none => ovf
  | none =>
    match dbQ rnd x sh with
    | some (q, nx) => if q ≤ dbMax n then { bits := dbBits n false x.sign q, flags := dbFlags x q nx } else ovf
    | none => ovf

/-- The number formed by fields of n bits. -/
def packBits (n : Nat) : List Nat → Nat
  | [] => 0
  | b :: r => b % 2 ^ n + 2 ^ n * packBits n r

/-- A block as a number (R95). -/
def dbBlock (n sh sl : Nat) (es : List DbEnc) : Nat := sh % 512 + sl % 512 * 512 + 2 ^ 32 * packBits n (es.map DbEnc.bits)

/-- The OR of flags. -/
def orFlags (l : List Word) : Word := l.foldl (· ||| ·) 0

/-- The block that AUTO mode with a saturation bit of 1 forms: the copy engine's and MOVE's blocks (R254, R269). -/
def dbAutoBlock (n rnd : Nat) (vs : List FpVal) : Nat × Word :=
  let (sh, sl) := dbAuto n rnd vs
  let es := vs.map (fun v => dbEncode n rnd true sh sl v 0)
  (dbBlock n sh sl es, orFlags (es.map DbEnc.flags))

end Sys2Proof.Machine
end

