-- ==== Sys2Proof/Machine/Reels.lean ====
section
/-!
DEFINITION. Reels (spec/02 R78 to R81, spec/08 R260 to R262): the four events of R80, RTAKE and RGIVE, and the events
that serve a waiting take or reserve.
-/

namespace Sys2Proof.Machine

open Sys2Proof

/-- Marks an entry done in a queue of entries. -/
def markDone (l : List (Nat × Bool)) (e : Nat) : List (Nat × Bool) := l.map (fun x => if x.1 = e then (e, true) else x)

/-- Drops the done entries at the front of a queue, and counts them. -/
def dropDone (l : List (Nat × Bool)) : List (Nat × Bool) × Nat :=
  match l with
  | (_, true) :: r => let (q, n) := dropDone r; (q, n + 1)
  | l => (l, 0)

/-- Reserve (R80): the entry at PIX, where FREE > 0. -/
def Reel.reserve (r : Reel) : Option (Nat × Reel) :=
  if r.free = 0 then none
  else some (r.pix, { r with free := r.free - 1, pix := (r.pix + 1) % r.nent, resq := r.resq ++ [(r.pix, false)] })

/-- Publish (R80): effective in reservation order. -/
def Reel.publish (r : Reel) (e : Nat) : Reel :=
  let (q, n) := dropDone (markDone r.resq e)
  { r with resq := q, full := r.full + n }

/-- Take (R80): the entry at CIX, where FULL > 0. -/
def Reel.take (r : Reel) : Option (Nat × Reel) :=
  if r.full = 0 then none
  else some (r.cix, { r with full := r.full - 1, cix := (r.cix + 1) % r.nent, takq := r.takq ++ [(r.cix, false)] })

/-- Release (R80): effective in take order. -/
def Reel.release (r : Reel) (e : Nat) : Reel :=
  let (q, n) := dropDone (markDone r.takq e)
  { r with takq := q, free := r.free + n }

/-- The path-tagged address of an entry's start (R79, R261). -/
def Reel.addr (r : Reel) (e : Nat) : DWord :=
  BitVec.ofNat 64 ((if r.space then 4 else 3) * 2 ^ 60 + r.base + e * r.esz)

/-- A cast's reel. -/
def Cast.reel (c : Cast) (r : Nat) : Option Reel := (c.reels.toList[r]?).join

/-- Sets a cast's reel. -/
def Cast.setReel (c : Cast) (r : Nat) (v : Reel) : Cast := { c with reels := c.reels.setIfInBounds r (some v) }

/-- A take or reserve for a thread: the entry, and the reel that records it as held (R261). -/
def Reel.grab (res : Bool) (r : Reel) : Option (Nat × Reel) :=
  ((if res then r.reserve else r.take)).map (fun (e, r) => (e, { r with held := r.held ++ [(e, !res)] }))

/-- Whether a thread waits to take or reserve an entry of a reel. -/
def Thread.onReel (t : Thread) (res : Bool) (r : Nat) : Bool :=
  match t.st with
  | .blocked (.rtake b n _) => b == res && n == r
  | _ => false

/-- RGIVE.PUB and RGIVE.REL (R261): precise SLATE for a reel that is not enabled or an entry not so held; the publish
is a plot-scope release of the thread (R262). -/
def rgiveOp (rel q : Bool) (r : BitVec 2) (b : BitVec 5) (s : State) : Out :=
  prologue false false q (pairDst b) s fun k =>
    match k.c.reel r.toNat with
    | none => raise s k .slate
    | some w =>
      match w.held.find? (fun h => h.2 == rel && w.addr h.1 == k.t.getA b) with
      | none => raise s k .slate
      | some (e, _) =>
        if !rel && k.busy s then block s k .order
        else
          let w := { w with held := w.held.filter (fun h => h != (e, rel)) }
          let s := s.onCast k.r.c (fun c => c.setReel r.toNat (if rel then w.release e else w.publish e))
          .next (retire s k k.t (k.after 4) false)

/-- RGIVE.PUB (R260). -/
def execRgivePub (q : Bool) (r : BitVec 2) (b : BitVec 5) (s : State) : Out := rgiveOp false q r b s

/-- RGIVE.REL (R260). -/
def execRgiveRel (q : Bool) (r : BitVec 2) (b : BitVec 5) (s : State) : Out := rgiveOp true q r b s

end Sys2Proof.Machine
end

