-- ==== Sys2Proof/Machine/Copy.lean ====
section
/-!
DEFINITION. The copy engine (spec/08 R247 to R259): slates and the slate cache, CPY, CPYS, SLINV, the payload of a copy,
and its retirement.
-/

namespace Sys2Proof.Machine

open Sys2Proof

/-! ### Slates (R248 to R251) -/

/-- A slate's fields (R248). -/
structure Slate where
  base : DWord
  e0 : Nat
  e1 : Nat
  e2 : Nat
  e3 : Nat
  s1 : Int
  s2 : Int
  s3 : Int
  fmt : Nat
  flags : Nat
  pad : Nat
  cwoff : Nat
  rsv : Nat
  deriving DecidableEq, Repr

/-- A signed 64-bit field. -/
def sfield (v : BitVec 512) (o : Nat) : Int := (BitVec.ofNat 64 (byteN v o 8)).toInt

/-- Reads a slate record (R248). -/
def slateOf (v : BitVec 512) : Slate :=
  { base := BitVec.ofNat 64 (byteN v 0 8), e0 := byteN v 8 4, e1 := byteN v 12 4, e2 := byteN v 16 4, e3 := byteN v 20 4
    s1 := sfield v 24, s2 := sfield v 32, s3 := sfield v 40, fmt := byteN v 48 1, flags := byteN v 49 1, pad := byteN v 50 2
    cwoff := byteN v 52 4, rsv := byteN v 56 8 }

/-- The ACC flag. -/
def Slate.acc (d : Slate) : Bool := d.flags % 2 == 1
/-- The REEL flag. -/
def Slate.isReel (d : Slate) : Bool := d.flags / 2 % 2 == 1
/-- The reel that a slate names. -/
def Slate.reelN (d : Slate) : Nat := bitsN d.base 0 2

/-- The size of an element of a format that is no DB format (R249). -/
def elemSize (fmt : Nat) : Nat :=
  match fmt with
  | 2 | 3 | 10 | 11 => 2
  | 8 | 9 => 1
  | _ => 4

/-- The unit that lies at an element's address: an element, or a block (R249). -/
def unitSize (fmt : Nat) : Nat := if dbOf fmt = 0 then elemSize fmt else dbBytes (dbOf fmt)

/-- The alignment of BASE and of the strides (R250). -/
def unitAlign (fmt : Nat) : Nat := if dbOf fmt = 0 then elemSize fmt else 4

/-- The offset along dimension 0 (R249). -/
def off0 (fmt i0 : Nat) : Nat := if dbOf fmt = 0 then i0 * elemSize fmt else i0 / 32 * dbBytes (dbOf fmt)

/-- The address of the element at an index (R249). -/
def Slate.addr (d : Slate) (base : DWord) (i0 i1 i2 i3 : Nat) : DWord :=
  base + BitVec.ofNat 64 (off0 d.fmt i0) + BitVec.ofInt 64 ((i1 : Int) * d.s1 + (i2 : Int) * d.s2 + (i3 : Int) * d.s3)

/-- Whether an index lies in the slate's extents. -/
def Slate.has (d : Slate) (i0 i1 i2 i3 : Nat) : Bool :=
  decide (i0 < d.e0) && decide (i1 < d.e1) && decide (i2 < d.e2) && decide (i3 < d.e3)

/-- Whether a slate has no elements. -/
def Slate.empty (d : Slate) : Bool := d.e0 == 0 || d.e1 == 0 || d.e2 == 0 || d.e3 == 0

/-- The lowest and the highest byte offset of a slate's elements, from its base; the second is one past the end. -/
def Slate.range (d : Slate) : Int × Int :=
  let f (e : Nat) (s : Int) : Int := ((e - 1 : Nat) : Int) * s
  let lo := min 0 (f d.e1 d.s1) + min 0 (f d.e2 d.s2) + min 0 (f d.e3 d.s3)
  let hi := max 0 (f d.e1 d.s1) + max 0 (f d.e2 d.s2) + max 0 (f d.e3 d.s3)
  (lo, hi + off0 d.fmt (d.e0 - 1) + unitSize d.fmt)

/-- Whether every element lies within `size` bytes from an offset `o` of a region on. -/
def Slate.within (d : Slate) (o size : Nat) : Bool :=
  d.empty || (decide (0 ≤ (o : Int) + d.range.1) && decide ((o : Int) + d.range.2 ≤ size))

/-- Whether a format code is listed in R112. -/
def fmtListed (f : Nat) : Bool := decide (1 ≤ f) && decide (f ≤ 13)

/-- The path rule of R250 for a slate whose REEL flag is clear, with the regions of R69. (Log 22, DEDUCED.) -/
def slatePath (s : State) (c : Cast) (d : Slate) : Bool :=
  !remoteForm d.base && match classify s.devnum d.base with
  | .glob _ | .ro _ | .cmn _ => true
  | .scr off => d.within off (32768 * descScnt c.desc)
  | .opd off => d.within off (32768 * descOcnt c.desc)
  | _ => false

/-- Whether ACC is allowed on a destination (R250). -/
def accOk (s : State) (d : Slate) : Bool :=
  (d.fmt == 1 || d.fmt == 12) && (match classify s.devnum d.base with | .glob _ | .cmn _ => true | _ => false)

/-- The rules of R250 for a source slate (`dst = false`) or a destination slate. -/
def slateValid (s : State) (c : Cast) (dst : Bool) (d : Slate) : Bool :=
  fmtListed d.fmt && decide (d.flags < 4) && d.rsv == 0 &&
  (if d.isReel then bitsN d.base 2 62 == 0 else d.base.toNat % unitAlign d.fmt == 0) &&
  d.s1 % unitAlign d.fmt == 0 && d.s2 % unitAlign d.fmt == 0 && d.s3 % unitAlign d.fmt == 0 &&
  (dbOf d.fmt == 0 || (d.e0 % 32 == 0 && !d.acc)) &&
  (!d.acc || (dst && !d.isReel && accOk s d)) &&
  (if d.isReel then
    dst && (match c.reel d.reelN with
      | some r => d.within 0 r.esz
      | none => false)
  else slatePath s c d)

/-! ### The slate cache (R252) -/

/-- The translation check of a slate's address, which stands before the read also where the slate cache holds the record (R63, R253). -/
def slateCheck (s : State) (p al va : Nat) : Except Stop State :=
  match translate s p .plot al va with
  | .fail k => .error (.xlate k va)
  | .migrating => .error (.migrating va)
  | .memerr => .error (.fatal .memerr 1 0 true)
  | .leaf _ _ _ => .ok (s.walked p al va)

/-- Reads a slate through the plot's slate cache. A hit becomes the most recently used entry; a miss replaces the
least recently used of 16. -/
def readSlate (s : State) (k : Ctx) (a : DWord) (va : Nat) : Except Stop (State × BitVec 512) :=
  let p := k.c.plot
  match (s.plot p).slates.find? (fun e => e.1 == a) with
  | some e =>
    (slateCheck s p k.c.al va).map (fun s => (s.onPlot p (fun q => { q with slates := e :: q.slates.filter (fun x => x.1 != a) }), e.2))
  | none =>
    match access s p k.c.al va .read .plot with
    | .error e => .error e
    | .ok (s, pa, z) =>
      let (s, v) := s.readAt p .plot (.home pa) z 64
      let r : BitVec 512 := BitVec.ofNat 512 v
      .ok (s.onPlot p (fun q => { q with slates := ((a, r) :: q.slates).take 16 }), r)

/-- The address value of a checked GLOBAL, local address. -/
def Space.va : Space → Nat
  | .glob v => v
  | .ro v => v
  | _ => 0

/-- Whether a copy has to wait for accesses that its thread has issued: a slate that is read from memory for all of them (R252); the
payload for an acquire, and for writes of SCRATCH, OPERAND and COMMONS and late ones, which it reads after (R218, R255, R287). -/
def slateWait (s : State) (k : Ctx) (a : DWord) : Bool :=
  (k.holds s && !(s.plot k.c.plot).slates.any (fun e => e.1 == a)) || k.acquiring s ||
    (k.held s).any (fun h => h.late || (match classify s.devnum h.va with | .glob _ => false | _ => true))

/-- CPY and CPYS (R253): the checks, then the copy's place in the plot's engine. -/
def copyOp (q : Bool) (d a : BitVec 5) (b : Option (BitVec 6)) (s : State) : Out :=
  prologue false false q (pairDst d ++ pairDst a ++ (b.map Dst.x).toList) s fun k =>
    let sa := k.t.getA a
    let da := k.t.getA d
    match checkAcc s k.c .ctrl sa 64 0, checkAcc s k.c .ctrl da 64 0 with
    | .error c, _ => .next (raiseWith s k c 0 0 sa .slate)
    | _, .error c => .next (raiseWith s k c 0 0 da .slate)
    | .ok sp, .ok dp =>
      if slateWait s k sa || slateWait s k da then block s k .order
      else match readSlate s k sa sp.va with
        | .error e => accStop s k e sa .slate 64
        | .ok (s, sr) =>
          match readSlate s k da dp.va with
          | .error e => accStop s k e da .slate 64
          | .ok (s, dr) =>
            let S := slateOf sr
            let D := slateOf dr
            if !slateValid s k.c false S then .next (raiseWith s k .slate 0 0 sa .slate)
            else if !slateValid s k.c true D then .next (raiseWith s k .slate 0 0 da .slate)
            else if !D.isReel && (match classify s.devnum D.base with | .ro _ => true | _ => false) then
              .next (raiseWith s k .prot 0 0 da .slate)
            else if b.isSome && (D.cwoff % 4 != 0 || decide (32768 * descScnt k.c.desc ≤ D.cwoff)) then
              .next (raiseWith s k .slate 0 0 da .slate)
            else if k.full .cp then block s k .issue
            else
              let (id, s) := s.count k .cp false
              let n := s.nextReq
              let s := { s with nextReq := n + 1 }
              let c : Copy :=
                { seq := n, cid := k.r.c, slot := k.r.t, op := id, pc := k.t.pc, mode := k.crew.mode, key := k.t.key, dep := k.t.dep
                  ord := k.t.retired.toNat, src := sr, dst := dr, srcA := sa, dstA := da, cval := b.map k.t.getX
                  entry := none, begun := false, started := false }
              let s := s.onPlot k.c.plot (fun q => { q with copies := q.copies ++ [c] })
              .next (retire s k k.t (k.after 4) false)

/-- CPY (R253). -/
def execCpy (q : Bool) (d a : BitVec 5) (s : State) : Out := copyOp q d a none s

/-- CPYS (R253). -/
def execCpys (q : Bool) (d a : BitVec 5) (b : BitVec 6) (s : State) : Out := copyOp q d a (some b) s

/-- SLINV (R253): removes the slate from the slate cache. -/
def execSlinv (q : Bool) (a : BitVec 5) (s : State) : Out :=
  prologue false false q (pairDst a) s fun k =>
    let sa := k.t.getA a
    match checkAcc s k.c .ctrl sa 64 0 with
    | .error c => .next (raiseWith s k c 0 0 sa .slate)
    | .ok _ =>
      .next (retire (s.onPlot k.c.plot (fun q => { q with slates := q.slates.filter (fun e => e.1 != sa) })) k k.t
        (k.after 4) false)

/-! ### The payload (R253 to R256) -/

/-- Why a payload access stops: how, where, and whether it was a read or a write. -/
abbrev CopyStop := Stop × DWord × Acck

/-- A read by the copy engine: GLOBAL at its home, never in a plot's cache (R255). An element address that leaves its path (strides
that run past it, a COMMONS offset beyond the window, a remote form) raises PATH as a deferred fault of the running copy: R259
names the payload faults of pages only (log 81, DESIGN CHOICE). -/
def engineRead (s : State) (c : Cast) (cid : Nat) (a : DWord) (n : Nat) : Except CopyStop (State × Nat) :=
  let sp := classify s.devnum a
  if !pathOk s c .ld sp || sp.remote then .error (.fatal .path 1 0 false, a, .copyRead)
  else match resolve s c cid sp .read .home .copy with
    | .error e => .error (e, a, .copyRead)
    | .ok (s, .home pa, z) => .ok (s, if z then 0 else s.homeRead pa n)
    | .ok (s, l, z) => .ok (s.readAt c.plot .home l z n)

/-- The place of a payload write: PATH as for a read, PROT for an address that has come onto READONLY (R61, R63), then the translation.
(Log 81, DESIGN CHOICE.) -/
def engineDst (s : State) (c : Cast) (cid : Nat) (a : DWord) : Except CopyStop (State × Loc × Bool) :=
  let sp := classify s.devnum a
  if !pathOk s c .st sp || sp.remote then .error (.fatal .path 1 0 false, a, .copyWrite)
  else match sp with
    | .ro _ => .error (.fatal .prot 1 0 false, a, .copyWrite)
    | _ => (resolve s c cid sp .write .home .copy).mapError (fun e => (e, a, .copyWrite))

/-- A write by the copy engine at the home or the bank (R255, R238). (Log 81, DESIGN CHOICE.) -/
def engineWrite (s : State) (c : Cast) (cid : Nat) (a : DWord) (n v : Nat) : Except CopyStop State :=
  (engineDst s c cid a).map (fun (s, l, _) => s.storeAt c.plot .home l n v)

/-- Reads `m` words from an address on, as one number. -/
def engineWords (s : State) (c : Cast) (cid : Nat) (a : DWord) : Nat → Except CopyStop (State × Nat)
  | 0 => .ok (s, 0)
  | m + 1 =>
    match engineRead s c cid a 4 with
    | .error e => .error e
    | .ok (s, v) =>
      match engineWords s c cid (a + 4) m with
      | .error e => .error e
      | .ok (s, w) => .ok (s, v + 2 ^ 32 * w)

/-- Writes `m` words from an address on. -/
def enginePut (s : State) (c : Cast) (cid : Nat) (a : DWord) (v : Nat) : Nat → Except CopyStop State
  | 0 => .ok s
  | m + 1 =>
    match engineWrite s c cid a 4 (v % 2 ^ 32) with
    | .error e => .error e
    | .ok s => enginePut s c cid (a + 4) (v / 2 ^ 32) m

/-- The value of an element: a floating-point or an integer one. -/
inductive ElemVal where
  | fp (v : FpVal)
  | int (i : Int)
  deriving DecidableEq, Repr

/-- An element's value from its bits, in a format that is no DB format. -/
def decodeElem (fmt raw : Nat) : ElemVal :=
  match fmtOf fmt with
  | some f => .fp (f.read false raw)
  | none => .int (intSource fmt raw)

/-- The value that a DB encoding takes. -/
def ElemVal.fpVal : ElemVal → FpVal
  | .fp v => v
  | .int i => intVal i

/-- Converts a value to the bits of a format that is no DB format (R254): MODE's rounding, subnormals honoured. -/
def convElem (m : Word) (dst : Nat) (v : ElemVal) : Nat :=
  match fmtOf dst with
  | some f => (f.finish { modeFor m dst with subn := false } (.val v.fpVal)).1
  | none =>
    let (sg, w) := intFmt dst
    match v with
    | .fp x => (intWord (toInt (modeIntRnd m) sg w x).1).toNat % 2 ^ w
    | .int i => (intWord (narrow (modeIntSat m) sg w i).1).toNat % 2 ^ w

/-- PAD as the bits of an element (R251). -/
def padBits (dst pad : Nat) : Nat :=
  match dst with
  | 1 => pad * 65536
  | 8 | 9 => pad % 256
  | 12 => if 32768 ≤ pad then pad + 0xFFFF0000 else pad
  | _ => pad

/-- The raw bits of a source element that is in no DB block, or the value of one that is. -/
def srcElem (s : State) (c : Cast) (cid : Nat) (S : Slate) (i0 i1 i2 i3 : Nat) : Except CopyStop (State × Nat × ElemVal) :=
  let a := S.addr S.base i0 i1 i2 i3
  let n := dbOf S.fmt
  if n = 0 then
    (engineRead s c cid a (elemSize S.fmt)).map (fun (s, v) => (s, v, decodeElem S.fmt v))
  else
    (engineWords s c cid a (1 + n)).map (fun (s, v) => (s, 0, .fp (dbElem n v (i0 % 32))))

/-- Adds to a destination element in place, as the atomics do, without a wake event (R256, R238). -/
def accElem (s : State) (c : Cast) (cid : Nat) (a : DWord) (op : Nat) (v : Nat) : Except CopyStop State :=
  (engineDst s c cid a).map (fun (s, l, z) =>
    let (s, o) := s.readAt c.plot .home l z 4
    s.writeAt c.plot .home l 4 (atomNew op (BitVec.ofNat 32 o) (BitVec.ofNat 32 v) 0).toNat)

/-- Position `n` of a destination's shape, dimension 0 innermost; dimension 0 counts `u0` units. -/
def shapeAt (u0 e1 e2 n : Nat) : Nat × Nat × Nat × Nat := (n % u0, n / u0 % e1, n / u0 / e1 % e2, n / u0 / e1 / e2)

/-- One element of a copy whose destination is no DB slate. -/
def copyElem (k : Copy) (S D : Slate) (base : DWord) (s : State) (n : Nat) : Except CopyStop State :=
  match look s.casts k.cid with
  | none => .ok s
  | some c =>
    let (i0, i1, i2, i3) := shapeAt D.e0 D.e1 D.e2 n
    let a := D.addr base i0 i1 i2 i3
    let src : Except CopyStop (State × Nat) :=
      if S.has i0 i1 i2 i3 then
        (srcElem s c k.cid S i0 i1 i2 i3).map (fun (s, raw, v) =>
          (s, if S.fmt = D.fmt ∧ !D.acc then raw else convElem k.mode D.fmt v))
      else .ok (s, padBits D.fmt D.pad)
    match src with
    | .error e => .error e
    | .ok (s, v) =>
      if D.acc then
        if D.fmt = 12 then accElem s c k.cid a 0 v
        else if descDet c.desc = 0 then accElem s c k.cid a 11 v
        else .ok (s.onCast k.cid (fun c =>
          { c with deferred := c.deferred ++
            [{ key := k.key, dep := k.dep, ord := k.ord, idx := n, addr := a, scope := 3, bf := false, acc := true, val := BitVec.ofNat 32 v }] }))
      else
        (engineWrite s c k.cid a (elemSize D.fmt) v).map (fun s => s.fold k.cid (classify s.devnum a) a (elemSize D.fmt) v)

/-- The values of one destination block (R254). -/
def blockVals (k : Copy) (S D : Slate) (c : Cast) (s : State) (b i1 i2 i3 : Nat) : Nat → Except CopyStop (State × List FpVal)
  | 0 => .ok (s, [])
  | m + 1 =>
    let i0 := 32 * b + (31 - m)
    let r : Except CopyStop (State × FpVal) :=
      if S.has i0 i1 i2 i3 then (srcElem s c k.cid S i0 i1 i2 i3).map (fun (s, _, v) => (s, v.fpVal))
      else .ok (s, bf16.read false D.pad)
    match r with
    | .error e => .error e
    | .ok (s, v) =>
      match blockVals k S D c s b i1 i2 i3 m with
      | .error e => .error e
      | .ok (s, vs) => .ok (s, v :: vs)

/-- One block of a copy whose destination is a DB slate: moved whole, or encoded in AUTO mode (R254). -/
def copyBlock (k : Copy) (S D : Slate) (base : DWord) (s : State) (n : Nat) : Except CopyStop State :=
  match look s.casts k.cid with
  | none => .ok s
  | some c =>
    let w := dbOf D.fmt
    let (b, i1, i2, i3) := shapeAt (D.e0 / 32) D.e1 D.e2 n
    let a := D.addr base (32 * b) i1 i2 i3
    let src : Except CopyStop (State × Nat) :=
      if S.fmt = D.fmt ∧ S.has (32 * b + 31) i1 i2 i3 then engineWords s c k.cid (S.addr S.base (32 * b) i1 i2 i3) (1 + w)
      else (blockVals k S D c s b i1 i2 i3 32).map (fun (s, vs) => (s, (dbAutoBlock w (modeDbRnd k.mode w) vs).1))
    match src with
    | .error e => .error e
    | .ok (s, v) =>
      (enginePut s c k.cid a v (1 + w)).map (fun s => s.fold k.cid (classify s.devnum a) a (dbBytes w) v)

/-- Performs units from `n` on, `m` of them; a stop answers the state so far. -/
def copyLoop (f : State → Nat → Except CopyStop State) (s : State) (n : Nat) : Nat → Except (CopyStop × State) State
  | 0 => .ok s
  | m + 1 =>
    match f s n with
    | .error e => .error (e, s)
    | .ok s => copyLoop f s (n + 1) m

/-- A copy's whole payload. -/
def copyPayload (k : Copy) (base : DWord) (s : State) : Except (CopyStop × State) State :=
  let S := slateOf k.src
  let D := slateOf k.dst
  if dbOf D.fmt = 0 then copyLoop (copyElem k S D base) s 0 (D.e0 * D.e1 * D.e2 * D.e3)
  else copyLoop (copyBlock k S D base) s 0 (D.e0 / 32 * D.e1 * D.e2 * D.e3)

/-! ### COPY_START and COPY_RETIRE (R257 to R259) -/

/-- Sets a copy in the plot's list, by its cast and operation number. -/
def Plot.setCopy (p : Plot) (k : Copy) : Plot :=
  { p with copies := p.copies.map (fun x => if x.cid = k.cid ∧ x.op = k.op then k else x) }

/-- The reel entry that a copy's destination reserves, where it names a reel (R253, R258). -/
def copyReserve (s : State) (k : Copy) : Option (State × Copy) :=
  let D := slateOf k.dst
  if !D.isReel || k.entry.isSome then some (s, k)
  else
    (look s.casts k.cid).bind fun c =>
      (c.reel D.reelN).bind fun r =>
        r.reserve.map fun (e, r) => (s.onCast k.cid (fun c => c.setReel D.reelN r), { k with entry := some e })

/-- The address that a copy's destination starts at. -/
def copyBase (s : State) (k : Copy) : DWord :=
  let D := slateOf k.dst
  match k.entry, (look s.casts k.cid).bind (fun c => c.reel D.reelN) with
  | some e, some r => r.addr e
  | _, _ => D.base

/-- Whether a payload access of a copy waits in the operand log (R259). -/
def Plot.copyHeld (p : Plot) (k : Copy) : Bool := p.oplog.any (fun h => h.cid == k.cid && h.kind == .copy k.op)

/-- Runs a copy: reserves its entry and performs its payload at one moment (R255, R258), from its start where a translation fault
held it. (Log 56, DESIGN CHOICE.) -/
def startCopy (s : State) (p : Nat) (k : Copy) : State :=
  match copyReserve s k, look s.casts k.cid with
  | some (s1, k1), some c =>
    let k1 := { k1 with begun := true }
    let (n, s1) := s1.readsBad c
    match (if n = 1 then .error ((.fatal .memerr 1 0 false, 0, .none), s1) else copyPayload k1 (copyBase s1 k1) s1) with
    | .ok s2 => s2.onPlot p (fun q => q.setCopy { k1 with started := true })
    | .error ((.fatal code cls info walk, a, ak), s2) =>
      if s.recFull then s
      else
        let s2 := s2.walkedAt c a .copy
        s2.fatal k.cid (agentRec s2 c k.slot k.key k.dep k.pc code cls info a (walkAcck walk ak))
    | .error ((.migrating _, _, _), _) => s1.onPlot p (fun q => q.setCopy k1)
    | .error ((.xlate kind va, a, ak), _) =>
      (s1.engineHold (agentRec s1 c k.slot k.key k.dep k.pc .xlate 2 kind a ak) c k.cid va
        { id := 0, cid := k.cid, slot := k.slot, key := k.key, dep := k.dep, pc := k.pc, va := a, size := 4, scope := 0
          ceil := acbCeil (s.acb c.al), kind := .copy k.op, acck := ak, op := none, late := false }).onPlot p (fun q => q.setCopy k1)
  | _, _ => s

/-- The bytes that a copy's destination lies within, as the path's numbers (R258). -/
def copySpan (s : State) (k : Copy) : Int × Int :=
  let D := slateOf k.dst
  let b : Int := (classify s.devnum (copyBase s k)).byteKey
  if D.empty then (0, 0) else (b + D.range.1, b + D.range.2)

/-- Whether two copies' destinations may overlap: then the later one writes after the earlier (R258). -/
def copiesMeet (s : State) (a b : Copy) : Bool :=
  let x := copySpan s a
  let y := copySpan s b
  decide (x.1 < y.2) && decide (y.1 < x.2)

/-- Whether a copy at its place in issue order can run now (R258): not held; where it has not begun, in issue order and with fewer than 8
in progress; and no earlier copy in progress writes where it does. -/
def copyReady (s : State) (p : Nat) (k : Copy) : Bool :=
  let cs := (s.plot p).copies
  let before := cs.takeWhile (fun x => !(x.cid == k.cid && x.op == k.op))
  !k.started && !(s.plot p).copyHeld k &&
    (k.begun || (before.all Copy.begun && decide ((cs.filter Copy.begun).length < 8))) &&
    !before.any (fun x => !x.started && copiesMeet s x k)

/-- COPY_START (R258): the first copy in issue order that can run. One that waits to reserve a reel entry holds back every later copy. -/
def execCopyStart (p : Nat) (s : State) : Out :=
  .next (match (s.plot p).copies.find? (fun k => copyReady s p k) with
    | none => s
    | some k => startCopy s p k)

/-- Retires an operation of a class: it is done, and the oldest done operations of the class leave the counter (R212). -/
def State.opRetire (s : State) (cid crew id : Nat) (cls : OpClass) : State :=
  (s.opDone cid crew id).onCast cid (fun c => c.onCrew crew (fun w => { w with ops := drainOps cls w.ops }))

/-- A copy's end (R257): the entry is published, the completion word written, the CP count released. -/
def retireCopy (s : State) (p : Nat) (k : Copy) : State :=
  let D := slateOf k.dst
  let s := match k.entry with
    | some e => s.onCast k.cid (fun c =>
        match c.reel D.reelN with
        | some r => c.setReel D.reelN (r.publish e)
        | none => c)
    | none => s
  let s := match k.cval with
    | some v => s.storeAt p .plot (.scr k.cid D.cwoff) 4 v.toNat
    | none => s
  let s := s.opRetire k.cid (k.slot / 32) k.op .cp
  (s.onPlot p (fun q => { q with copies := q.copies.filter (fun x => !(x.cid == k.cid && x.op == k.op)) })).retry p Wait.room

/-- COPY_RETIRE (R257): a copy whose payload has been performed retires; `n` is its place in the plot's engine. -/
def execCopyRetire (p n : Nat) (s : State) : Out :=
  .next (match (s.plot p).copies[n]? with
    | some k => if k.started then retireCopy s p k else s
    | none => s)

end Sys2Proof.Machine
end

