-- ==== Sys2Proof/Machine/Matrix.lean ====
section
/-!
DEFINITION. The matrix engine (spec/08 R263 to R276, spec/03 R113 to R116): parameter blocks and their checks, the
append of MXC, the sequencer, the sums, MOVE, and the cell instructions MXR, MXRN, MXW.
-/

namespace Sys2Proof.Machine

open Sys2Proof

/-! ### Formats (R263) -/

/-- The class of a matrix format: 0 16-bit, 1 INT8, 2 DB8, 3 DB4 and DB6 (R263). -/
def mxClass (fmt : Nat) : Option Nat :=
  match fmt with
  | 2 | 3 => some 0
  | 8 => some 1
  | 4 => some 2
  | 5 | 6 => some 3
  | _ => none

/-- K of a class (R263). -/
def classK (c : Nat) : Nat :=
  match c with
  | 0 => 32
  | 1 => 64
  | 2 => 64
  | _ => 128

/-- The bytes of a row of `n` elements (R249, R264). -/
def rowBytes (fmt n : Nat) : Nat := if dbOf fmt = 0 then n * elemSize fmt else n / 32 * dbBytes (dbOf fmt)

/-- K of a format, 0 where it is no matrix format. -/
def fmtK (fmt : Nat) : Nat := ((mxClass fmt).map classK).getD 0

/-! ### The parameter block (R265) -/

/-- Bits of word `w` of a block. -/
def blk (b : BitVec 512) (w lo n : Nat) : Nat := bitsN b (32 * w + lo) n

/-- A parameter block's fields that software writes (R265). -/
structure Block where
  kind : Nat
  accum : Nat
  asrc : Nat
  space : Nat
  fuse : Nat
  acct : Nat
  reeln : Nat
  fmt : Nat
  regb : Nat
  cid : Nat
  pred0 : Nat
  pred1 : Nat
  m : Nat
  ltile : Nat
  nout : Nat
  outp : Nat
  cwaddr : Nat
  cwval : Nat
  rsv : Nat
  deriving DecidableEq, Repr

/-- Reads a block (R265). -/
def blockOf (b : BitVec 512) : Block :=
  { kind := blk b 0 0 4, accum := blk b 0 4 1, asrc := blk b 0 5 2, space := blk b 0 7 1, fuse := blk b 0 8 2
    acct := blk b 0 10 3, reeln := blk b 0 13 2, fmt := blk b 0 16 8, regb := blk b 0 24 6
    cid := blk b 1 0 16, pred0 := blk b 1 16 16, pred1 := blk b 2 0 16, m := blk b 2 16 8, ltile := blk b 2 24 4
    nout := blk b 3 0 32, outp := blk b 4 0 64, cwaddr := blk b 6 0 64, cwval := blk b 8 0 32
    rsv := blk b 0 15 1 + blk b 0 30 2 + blk b 2 28 4 + blk b 14 0 64 }

/-- A command's block. -/
def MxCmd.b (k : MxCmd) : Block := blockOf k.raw

/-- Whether the fields that the KIND does not use are zero (R266). -/
def Block.unusedZero (b : Block) : Bool :=
  match b.kind with
  | 0 => b.accum + b.acct + b.regb + b.m + b.nout + b.outp == 0
  | 1 => true
  | 2 => b.accum + b.asrc + b.space + b.fuse + b.reeln + b.fmt + b.regb + b.ltile + b.nout + b.outp == 0
  | 3 => b.accum + b.asrc + b.fuse + b.reeln + b.regb + b.nout + b.outp == 0
  | _ => false

/-! ### The layout in the banks (R264) -/

/-- A layout: BASE, ROT, RPITCH, TPITCH (R264). -/
structure Layout where
  base : Nat
  rot : Nat
  rp : Nat
  tp : Nat
  deriving DecidableEq, Repr

/-- The layout of the registers that MXC reads (R264). -/
def layoutOf (x y : Word) : Layout := { base := bitsN x 0 18, rot := bitsN x 18 3, rp := bitsN y 0 16, tp := bitsN y 16 16 }

/-- The pieces of row i of layout tile t, `n` bytes long: offset and length of each 32-byte piece (R264). -/
def Layout.pieces (l : Layout) (t i n : Nat) : List (Nat × Nat) :=
  (List.range ((n + 31) / 32)).map (fun c => (l.base + t * l.tp + i * l.rp + 32 * (c ^^^ (i * l.rot % 8)), min 32 (n - 32 * c)))

/-- The alignment and reserved-bit rules of R264. -/
def layoutOk (x y : Word) : Bool :=
  let l := layoutOf x y
  bitsN x 21 11 == 0 && (l.rot == 0 || l.rp % 256 == 0) && l.base % 4 == 0 && l.rp % 4 == 0 && l.tp % 4 == 0

/-- Whether `rows` rows of `n` bytes of tile t lie below `size` (R69, R264). -/
def Layout.fits (l : Layout) (t rows n size : Nat) : Bool :=
  (List.range rows).all (fun i => (l.pieces t i n).all (fun p => decide (p.1 + p.2 ≤ size)))

/-- The bytes of a region, false scratch, true operand. -/
def Cast.regionSize (c : Cast) (opd : Bool) : Nat := 32768 * (if opd then descOcnt c.desc else descScnt c.desc)

/-- Rows that a command reads from or writes to the banks, and their length in bytes (R264, R269, R271). -/
def Block.shape (b : Block) : Nat × Nat :=
  match b.kind with
  | 0 => if b.fuse = 1 then (256, rowBytes b.fmt (fmtK b.fmt)) else if b.fuse = 2 then (128, 2 * rowBytes b.fmt (fmtK b.fmt))
    else (128, rowBytes b.fmt (fmtK b.fmt))
  | 1 => (b.m, (if b.fuse = 2 then 2 else 1) * rowBytes b.fmt (fmtK b.fmt))
  | 3 => (b.m, rowBytes b.fmt 128)
  | _ => (0, 0)

/-! ### The checks of an append (R266, R271, R272) -/

/-- Whether the completion word's address is allowed (R272). -/
def cwOk (s : State) (c : Cast) (a : Nat) : Bool :=
  a == 0 || (a % 4 == 0 && !remoteForm (BitVec.ofNat 64 a) && pathOk s c .waita (classify s.devnum (BitVec.ofNat 64 a)))

/-- Whether an outlier list's address is a GLOBAL, local one aligned to 16 bytes (R102). OUTP of a command that is none raises MXCMD, where
NOUT is not 0. (Log 89, DESIGN CHOICE.) -/
def listOk (s : State) (c : Cast) (a : Nat) : Bool :=
  a % 16 == 0 && !remoteForm (BitVec.ofNat 64 a) && pathOk s c .ctrl (classify s.devnum (BitVec.ofNat 64 a))

/-- The rules of R265, R266 and R272 on a block and its layout registers, at the MXC. The reserved-bit and alignment rules of R264 are
those of matrix operands that lie in the banks: a ZERO, and rows captured from registers, have none (log 82, DESIGN CHOICE). -/
def blockValid (s : State) (c : Cast) (b : Block) (x y : Word) : Bool :=
  let k := fmtK b.fmt
  let bank := b.kind == 3 || (decide (b.kind < 2) && b.asrc != 0)
  decide (b.kind < 4) && b.rsv == 0 && b.unusedZero && b.asrc != 3 && b.fuse != 3 && b.cid != 0xFFFF &&
  (b.kind == 0 || (decide (1 ≤ b.m) && decide (b.m ≤ 128) && decide (b.acct < descAcnt c.desc))) &&
  (decide (2 ≤ b.kind) || (mxClass b.fmt).isSome) &&
  (b.kind != 3 || fmtListed b.fmt) &&
  (b.kind != 0 || b.asrc != 0) &&
  (b.kind != 1 ||
    ((b.asrc != 0 || (decide (b.m ≤ 32) && decide (b.regb + b.shape.2 / 4 ≤ 64))) &&
      (b.nout == 0 || (dbOf b.fmt != 0 && listOk s c b.outp)) &&
      c.wload && mxClass (s.plot c.plot).wlast.toNat == mxClass b.fmt)) &&
  (decide (2 ≤ b.kind) || b.asrc != 2 || (c.reel b.reeln).isSome) &&
  (!bank || layoutOk x y) &&
  (!(bank && (b.kind == 3 || b.asrc == 1)) ||
    (layoutOf x y).fits b.ltile b.shape.1 b.shape.2 (c.regionSize (b.space == 1))) &&
  (k != 0 || decide (2 ≤ b.kind)) && cwOk s c b.cwaddr

/-- The partner plot of a fused command, where the edge matches the lead (R271). -/
def fusePartner (p fuse : Nat) : Option Nat :=
  match fuse with
  | 1 => if p % 2 = 0 then some (p + 1) else none
  | 2 => if p % 4 < 2 then some (p + 2) else none
  | _ => none

/-- The physical tile behind a cast's tile name (R74). -/
def Cast.tile (c : Cast) (t : Nat) : Nat := c.tiles.getD t 8

/-- The rules of MXFUSE (R271). A WLOAD has no ACCT, and the rule on the partner's tile is not applied to it.
(Log 88, DESIGN CHOICE.) -/
def fuseOk (s : State) (c : Cast) (b : Block) : Bool :=
  b.fuse == 0 ||
    (match fusePartner c.plot b.fuse with
    | none => false
    | some q =>
      (s.plotsOf c.al).contains q &&
        (b.kind == 0 || s.casts.any (fun (_, x) => x.plot == q && x.al == c.al && x.tiles.contains (c.tile b.acct))))

/-- Whether the weights that the partner of a fused MMA has appended last are of its class (R263, R266). -/
def fuseClass (s : State) (c : Cast) (b : Block) : Bool :=
  b.kind != 1 ||
    (match fusePartner c.plot b.fuse with
    | none => true
    | some q => mxClass (s.plot q).wlast.toNat == mxClass b.fmt)

/-! ### The append (R268) -/

/-- Why a collective's operation does not go through yet, or at all. -/
inductive CollStop where
  | wait
  | fault (k : Ctx) (code : FCode) (cls info : Nat) (a : DWord) (acck : Acck)
  | stop (k : Ctx) (e : Stop) (a : DWord) (acck : Acck)

/-- The row that a lane's registers hold from register r on, `n` words, as a number. -/
def regRow (t : Thread) (r : Nat) (n : Nat) : Nat :=
  packN ((List.range n).map (fun i => ((t.getX (BitVec.ofNat 6 (r + i))).toNat, 4)))

/-- The rows captured from the participants' registers (R268). -/
def captureRows (s : State) (cid crew : Nat) (parts : List Nat) (b : Block) : List Nat :=
  (List.range b.m).map (fun i =>
    if parts.contains (32 * crew + i) then
      ((s.thread? ⟨cid, 32 * crew + i⟩).map (fun t => regRow t b.regb (b.shape.2 / 4))).getD 0
    else 0)

/-- The commands in the window with a predecessor id: the most recent appended with it (R270). -/
def predOf (p : Plot) (cid : Nat) : List Nat :=
  if cid = 0xFFFF then []
  else match look p.cids cid with
    | some n => if p.script.any (fun k => k.id == n) then [n] else []
    | none => []

/-- Marks a WLOAD as appended for every cast on a plot (R266). -/
def State.noteWload (s : State) (p : Nat) (fmt : Nat) : State :=
  let s : State := { s with casts := s.casts.map (fun (n, c) => (n, if c.plot = p then { c with wload := true } else c)) }
  s.onPlot p (fun q => { q with wlast := BitVec.ofNat 8 fmt })

/-- The device's writes at an append: w9 to w11 of the block, and NEXT of the tail block (R265, R268). -/
def appendWrites (s : State) (c : Cast) (va : Nat) (x y : Word) : Except Stop State :=
  match access s c.plot c.al va .write .plot with
  | .error e => .error e
  | .ok (s, pa, _) =>
    let s := s.storeAt c.plot .plot (.home (pa + 36)) 12 (x.toNat + 2 ^ 32 * y.toNat)
    match (s.plot c.plot).script.getLast? with
    | none => .ok s
    | some t =>
      match access s c.plot c.al (bitsN t.block 0 48) .write .plot with
      | .error e => .error e
      | .ok (s, ta, _) => .ok (s.storeAt c.plot .plot (.home (ta + 48)) 8 va)

/-- Appends one command for the participants of an MXC (R268). `vals` are the lowest participant's operands. -/
def mxcAppend (s : State) (k : Ctx) (fx : FixedSet) (B : DWord) (x y : Word) : Except CollStop State :=
  let c := k.c
  let p := c.plot
  match checkAcc s c .ctrl B 64 0 with
  | .error e => .error (.fault k e 0 0 B .slate)
  | .ok sp =>
    if fx.parts.any (fun i => (s.ctxAt ⟨k.r.c, i⟩).any (fun u => u.holds s)) then .error .wait
    else match access s p c.al sp.va .read .plot with
      | .error e => .error (.stop k e B .slate)
      | .ok (s, pa, z) =>
        let (s, v) := s.readAt p .plot (.home pa) z 64
        let raw : BitVec 512 := BitVec.ofNat 512 v
        let b := blockOf raw
        if !blockValid s c b x y || !fuseClass s c b then .error (.fault k .mxcmd 0 b.cid B .slate)
        else if 4096 < b.nout then .error (.fault k .outlmax 0 b.nout B .slate)
        else if !fuseOk s c b then .error (.fault k .mxfuse 0 b.cid B .slate)
        else if 32 ≤ (s.plot p).script.length || k.full .mx then .error .wait
        else if b.kind == 1 && b.asrc == 0 &&
            fx.parts.any (fun i => (s.thread? ⟨k.r.c, i⟩).any Thread.writing) then .error .wait
        else match appendWrites s c sp.va x y with
          | .error e => .error (.stop k e B .slate)
          | .ok s =>
            let rows := if b.kind = 1 ∧ b.asrc = 0 then captureRows s k.r.c k.crewN fx.parts b else []
            let (op, s) := s.count k .mx false
            let n := s.nextReq
            let cmd : MxCmd :=
              { id := n, cid := k.r.c, slot := k.r.t, crew := k.crewN, op := op, pc := k.t.pc, key := k.t.key, dep := k.t.dep
                block := B, raw := raw, opnd := x, pitch := y, mode := fx.mode, rows := rows
                preds := predOf (s.plot p) b.pred0 ++ predOf (s.plot p) b.pred1
                started := false, entry := none, seen := [] }
            let s := { s with nextReq := n + 1 }
            let s := s.onPlot p (fun q => { q with script := q.script ++ [cmd], cids := put q.cids b.cid n })
            let s := if b.kind = 0 then s.noteWload p b.fmt else s
            .ok (match fusePartner p b.fuse with
              | some q => if b.kind = 0 then s.noteWload q b.fmt else s
              | none => s)

/-! ### Sums (R113 to R116) -/

/-- The value of element k of a row that is given as a number, in a matrix format (R97, R114). -/
def rowElem (fmt row k : Nat) : FpVal :=
  let n := dbOf fmt
  if n = 0 then
    match fmtOf fmt with
    | some f => f.read false (row / 2 ^ (16 * k) % 2 ^ 16)
    | none => .fin false 0 0
  else dbElem n (row / 2 ^ (8 * dbBytes n * (k / 32)) % 2 ^ (8 * dbBytes n)) (k % 32)

/-- The INT8 element k of a row. -/
def rowInt (row k : Nat) : Int := intSource 8 (row / 2 ^ (8 * k) % 256)

/-- The exact block sum of 32 products, as a count of 2^-512; none: a NaN-scale element (R115). -/
def blockSum (a w : Nat → FpVal) (b : Nat) : Nat → Option Int
  | 0 => some 0
  | m + 1 =>
    match blockSum a w b m, a (32 * b + m), w (32 * b + m) with
    | some t, .fin n1 m1 e1, .fin n2 m2 e2 => some (t + scaled (n1 != n2) (m1 * m2) (e1 + e2) (-512))
    | _, _, _ => none

/-- A running sum: the values that the cell takes, latest first, and the flags. -/
abbrev Sums := List Word × Word

/-- Appends the next value of a sum. -/
def Sums.next (t : Sums) (r : Nat × Word) : Sums := (BitVec.ofNat 32 r.1 :: t.1, t.2 ||| r.2)

/-- The current value of a sum. -/
def Sums.cur (t : Sums) : Nat := (t.1.headD 0).toNat

/-- The steps of a 16-bit sum over k below n (R114). -/
def sum16 (a w : Nat → FpVal) (t : Sums) : Nat → Sums
  | 0 => t
  | n + 1 =>
    let t := sum16 a w t n
    t.next (fp32.finish nearest (FpVal.fma 0 (a n) (w n) (fp32.read false t.cur)))

/-- One block step of a DB sum (R115). -/
def blockStep (a w : Nat → FpVal) (t : Sums) (b : Nat) : Sums :=
  let r : Nat × Word :=
    match blockSum a w b 32 with
    | some v => fp32.round nearest (decide (v < 0)) v.natAbs (-512)
    | none => (fp32.nan, 0)
  let q := fp32.addOp nearest t.cur r.1
  t.next (q.1, r.2 ||| q.2)

/-- The block steps of a DB sum, then the outliers of the row (R115). -/
def sumDb (a w : Nat → FpVal) (blocks : Nat) (outs : List (Word × Nat)) (t : Sums) : Sums :=
  let t := (List.range blocks).foldl (blockStep a w) t
  outs.foldl (fun t (v, k) => t.next (fp32.finish nearest (FpVal.fma 0 (fp32.read false v.toNat) (w k) (fp32.read false t.cur)))) t

/-- The exact partial sums of an integer sum, each narrowed (R113, R276). -/
def sumInt (sat : Bool) (a w : Nat → Int) (start : Int) : Nat → Int × Sums
  | 0 => (start, [intWord (narrow sat true 32 start).1], 0)
  | n + 1 =>
    let (v, l, _) := sumInt sat a w start n
    let v := v + a n * w n
    let r := narrow sat true 32 v
    (v, intWord r.1 :: l, r.2)

/-! ### Commands as they run (R269, R271) -/

/-- A cell of a plot's accumulator store: physical tile, row and column. -/
def cellKey (tile i j : Nat) : Nat := tile * 16384 + i * 128 + j

/-- Reads a cell: a cell that nothing has written since its claim reads 0 (R74). -/
def Plot.cell (p : Plot) (n : Nat) : Word := (look p.tiles n).getD 0

/-- Writes a cell. -/
def Plot.setCell (p : Plot) (n : Nat) (v : Word) : Plot := { p with tiles := put p.tiles n v }

/-- Writes cells. -/
def Plot.setCells (p : Plot) : List (Nat × Word) → Plot
  | [] => p
  | (n, v) :: r => (p.setCell n v).setCells r

/-- The region, false scratch, and the layout that a command's bank operand uses (R269). -/
def cmdRegion (c : Cast) (k : MxCmd) : Bool × Layout :=
  let l := layoutOf k.opnd k.pitch
  if k.b.kind < 2 ∧ k.b.asrc = 2 then
    match c.reel k.b.reeln, k.entry with
    | some r, some e => (r.space, { l with base := l.base + r.base + e * r.esz })
    | _, _ => (false, l)
  else (k.b.space == 1, l)

/-- One row of a command's bank operand, as a number. -/
def readRow (c : Cast) (k : MxCmd) (i : Nat) : Nat :=
  let (o, l) := cmdRegion c k
  packN ((l.pieces k.b.ltile i k.b.shape.2).map (fun (a, n) => (Memory.read (if o then c.opd else c.scr) a n, n)))

/-- Whether the bank operand of a command that runs lies in its region (R264). -/
def cmdFits (c : Cast) (k : MxCmd) : Bool :=
  let (o, l) := cmdRegion c k
  (decide (1 < k.b.kind) && k.b.kind != 3) || (decide (k.b.kind < 2) && k.b.asrc == 0) ||
    l.fits k.b.ltile k.b.shape.1 k.b.shape.2 (c.regionSize o)

/-- The A row that an MMA uses (R269). -/
def rowOfA (c : Cast) (k : MxCmd) (i : Nat) : Nat := if k.b.asrc = 0 then k.rows.getD i 0 else readRow c k i

/-- The weights that an MMA sums over: the format and the row of output column j, and how many elements (R116). -/
structure Weights where
  lo : Nat × List Nat
  hi : Nat × List Nat := (0, [])
  deriving DecidableEq, Repr

/-- Weight element k of column j, where the first array holds `n` of them (R116, R271). -/
def Weights.elem (w : Weights) (n j k : Nat) : FpVal :=
  if k < n then rowElem w.lo.1 (w.lo.2.getD j 0) k else rowElem w.hi.1 (w.hi.2.getD j 0) (k - n)

/-- The same for INT8 weights. -/
def Weights.int (w : Weights) (n j k : Nat) : Int :=
  if k < n then rowInt (w.lo.2.getD j 0) k else rowInt (w.hi.2.getD j 0) (k - n)

/-- The sum sequence of one cell, latest first, with its flags (R113 to R116). -/
def cellSums (k : MxCmd) (row : Nat) (w : Weights) (j : Nat) (start : Word) (outs : List (Word × Nat)) : Sums :=
  let f := k.b.fmt
  let n := fmtK f
  let tot := if k.b.fuse = 2 then 2 * n else n
  let st : Word := if k.b.accum = 1 then start else 0
  match mxClass f with
  | some 1 => (sumInt (modeIntSat k.mode) (rowInt row) (w.int n j) st.toInt tot).2
  | some 0 => sum16 (rowElem f row) (w.elem n j) ([st], 0) tot
  | _ => sumDb (rowElem f row) (w.elem n j) (tot / 32) outs ([st], 0)

/-- The outliers of one row: value and k (R115, R116). -/
def rowOuts (k : MxCmd) (list : List (Word × Nat)) (i : Nat) : List (Word × Nat) :=
  let tot := if k.b.fuse = 2 then 2 * fmtK k.b.fmt else fmtK k.b.fmt
  (list.filter (fun e => e.2 / tot == i)).map (fun e => (e.1, e.2 % tot))

/-- Reads the entries of an outlier list; its header is not read (R269). -/
def readOuts (s : State) (c : Cast) (va : Nat) : Nat → Except (Stop × DWord) (State × List (Word × Nat))
  | 0 => .ok (s, [])
  | m + 1 =>
    match access s c.plot c.al va .read .plot .mx with
    | .error e => .error (e, BitVec.ofNat 64 va)
    | .ok (s, pa, z) =>
      let (s, v) := s.readAt c.plot .plot (.home pa) z 8
      match readOuts s c (va + 8) m with
      | .error e => .error e
      | .ok (s, r) => .ok (s, (BitVec.ofNat 32 v, v / 2 ^ 32) :: r)

/-- The weights latched in a plot's array. -/
def Plot.weights (p : Plot) : Nat × List Nat := (p.wfmt.toNat, p.wrows)

/-- The plots and weights of an MMA: where its sums go (R271). -/
def mmaTargets (s : State) (c : Cast) (k : MxCmd) : List (Nat × Weights) :=
  let me := (s.plot c.plot).weights
  match k.b.fuse, fusePartner c.plot k.b.fuse with
  | 1, some q => [(c.plot, { lo := me }), (q, { lo := (s.plot q).weights })]
  | 2, some q => [(q, { lo := me, hi := (s.plot q).weights })]
  | _, _ => [(c.plot, { lo := me })]

/-- The cells and flags that an MMA writes on one plot. -/
def mmaCells (s : State) (c : Cast) (k : MxCmd) (list : List (Word × Nat)) (q : Nat) (w : Weights) : List (Nat × Word) × Word :=
  let tile := c.tile k.b.acct
  let rs := (List.range k.b.m).flatMap (fun i =>
    let row := rowOfA c k i
    let outs := rowOuts k list i
    (List.range 128).map (fun j =>
      let n := cellKey tile i j
      let t := cellSums k row w j ((s.plot q).cell n) outs
      (n, t)))
  (rs.map (fun (n, t) => (n, t.1.headD 0)), orFlags (rs.map (fun (_, t) => t.2)))

/-- One row of a MOVE: the number its bytes form, and the flags (R269). -/
def moveRow (k : MxCmd) (cells : List Word) : Nat × Word :=
  let f := k.b.fmt
  let n := dbOf f
  if n ≠ 0 then
    let bs := (List.range 4).map (fun b => dbAutoBlock n 0 (((cells.drop (32 * b)).take 32).map (fun v => fp32.read false v.toNat)))
    (packN (bs.map (fun b => (b.1, dbBytes n))), orFlags (bs.map Prod.snd))
  else
    let es := cells.map (fun v =>
      match fmtOf f with
      | some fm => if f = 1 then (v.toNat, (0 : Word)) else fm.finish nearest (
          let x := fp32.read false v.toNat
          if x.isSig then .invalid else .val x)
      | none =>
        let (sg, w) := intFmt f
        let r := narrow (modeIntSat k.mode) sg w v.toInt
        ((intWord r.1).toNat, r.2))
    (packN (es.map (fun e => (e.1, elemSize f))), orFlags (es.map Prod.snd))

/-- Writes a row of `n` bytes to a command's layout, with the wake events of a scratch region (R238, R264). -/
def writeRow (s : State) (c : Cast) (k : MxCmd) (i v : Nat) : State :=
  let (o, l) := cmdRegion c k
  (l.pieces k.b.ltile i k.b.shape.2).foldl (fun (s, v) (a, n) =>
    (s.storeAt c.plot .plot (if o then .opd k.cid a else .scr k.cid a) n (v % 2 ^ (8 * n)), v / 2 ^ (8 * n))) (s, v) |>.1

/-- The effect of a WLOAD (R269, R271). The relatch of a restore carries its weights as captured rows (R273). -/
def runWload (s : State) (c : Cast) (k : MxCmd) : State :=
  let rows := if k.b.asrc = 0 then k.rows else (List.range k.b.shape.1).map (readRow c k)
  let latch (s : State) (p : Nat) (l : List Nat) : State := s.onPlot p (fun q => { q with wfmt := BitVec.ofNat 8 k.b.fmt, wrows := l })
  let half := 2 ^ (8 * rowBytes k.b.fmt (fmtK k.b.fmt))
  match k.b.fuse, fusePartner c.plot k.b.fuse with
  | 1, some q => latch (latch s c.plot (rows.take 128)) q (rows.drop 128)
  | 2, some q => latch (latch s c.plot (rows.map (· % half))) q (rows.map (· / half))
  | _, _ => latch s c.plot rows

/-- The effect of a command, before its completion word (R269): the flags that it sets when it retires. -/
def runCmd (s : State) (c : Cast) (k : MxCmd) : Except CopyStop (State × Word) :=
  if !cmdFits c k then .error (.fatal .mxcmd 1 k.b.cid false, k.block, .none)
  else match k.b.kind with
  | 0 => .ok (runWload s c k, 0)
  | 1 =>
    if (mmaTargets s c k).any (fun (_, w) =>
        mxClass w.lo.1 != mxClass k.b.fmt || (k.b.fuse == 2 && mxClass w.hi.1 != mxClass k.b.fmt)) then
      .error (.fatal .mxcmd 1 k.b.cid false, k.block, .none)
    else match readOuts s c (k.b.outp % 2 ^ 48 + 16) k.b.nout with
      | .error (e, a) => .error (e, a, .outlier)
      | .ok (s, list) =>
        let res := (mmaTargets s c k).map (fun (q, w) => (q, mmaCells s c k list q w))
        .ok (res.foldl (fun s (q, r) => s.onPlot q (fun p => p.setCells r.1)) s, orFlags (res.map (fun (_, r) => r.2)))
  | 2 =>
    .ok (s.onPlot c.plot (fun p => p.setCells
      ((List.range k.b.m).flatMap (fun i => (List.range 128).map (fun j => (cellKey (c.tile k.b.acct) i j, (0 : Word)))))), 0)
  | _ =>
    let rs := (List.range k.b.m).map (fun i =>
      (i, moveRow k ((List.range 128).map (fun j => (s.plot c.plot).cell (cellKey (c.tile k.b.acct) i j)))))
    .ok (rs.foldl (fun s (i, r) => writeRow s c k i r.1) s, orFlags (rs.map (fun (_, r) => r.2)))

/-! ### The sequencer (R270, R271) -/

/-- The plot and tile that a command writes, as (plot, physical tile). -/
def cmdWrites (c : Cast) (k : MxCmd) : List (Nat × Nat) :=
  let t := c.tile k.b.acct
  match k.b.kind with
  | 1 =>
    match k.b.fuse, fusePartner c.plot k.b.fuse with
    | 1, some q => [(c.plot, t), (q, t)]
    | 2, some q => [(q, t)]
    | _, _ => [(c.plot, t)]
  | 2 => [(c.plot, t)]
  | _ => []

/-- The plot and tile that a command reads or writes (R275). -/
def cmdTouches (c : Cast) (k : MxCmd) : List (Nat × Nat) :=
  if k.b.kind = 3 then [(c.plot, c.tile k.b.acct)] else cmdWrites c k

/-- Commands that count as appended to a plot's script and write a tile there: its own, and the started fused ones of
its partners (R271, R275). -/
def State.writers (s : State) (p tile : Nat) : List Nat :=
  s.plots.flatMap (fun (q, x) =>
    (x.script.filter (fun k =>
      (q == p || k.started) &&
        (match look s.casts k.cid with
        | some c => (cmdWrites c k).contains (p, tile)
        | none => false))).map MxCmd.id)

/-- Whether a command is still in some script. -/
def State.inScript (s : State) (n : Nat) : Bool := s.plots.any (fun (_, p) => p.script.any (fun k => k.id == n))

/-- The order across weight changes (R270): what stands before a command in its script. -/
def weightOrder (script : List MxCmd) (k : MxCmd) : Bool :=
  !script.any (fun j => decide (j.id < k.id) && ((k.b.kind == 1 && j.b.kind == 0) || (k.b.kind == 0 && j.b.kind == 1)))

/-- Whether a plot's array is free for a fused command, or for a command beside one (R271). -/
def State.arrayFree (s : State) (p : Nat) (k : MxCmd) : Bool :=
  let fusedHere := s.plots.any (fun (q, x) => x.script.any (fun j => j.started && fusePartner q j.b.fuse == some p))
  !fusedHere &&
    (match fusePartner p k.b.fuse with
    | none => true
    | some q => !(s.plot q).script.any (fun j => j.started) &&
        !s.plots.any (fun (r, x) => x.script.any (fun j => j.started && fusePartner r j.b.fuse == some q)))

/-- Whether a pending MXW stands before a command that touches its tile (R275). A fused command counts as appended to its partner's
script when it starts, so that every MXW pending on the partner's tile stands before it (R271). -/
def State.mxwBefore (s : State) (c : Cast) (k : MxCmd) : Bool :=
  (cmdTouches c k).any (fun (p, t) =>
    (s.plot p).mxws.any (fun w => w.cell / 16384 == t && (p != c.plot || decide (w.seq < k.id))))

/-- Sets a command in its script. -/
def Plot.setCmd (p : Plot) (k : MxCmd) : Plot := { p with script := p.script.map (fun x => if x.id = k.id then k else x) }

/-- Whether a command has still to take an entry of a reel (R269). -/
def MxCmd.takes (k : MxCmd) (r : Nat) : Bool := decide (k.b.kind < 2) && k.b.asrc == 2 && k.b.reeln == r && k.entry.isNone

/-- The reel entry that a command takes (R269). -/
def cmdTake (s : State) (c : Cast) (k : MxCmd) : Option (State × MxCmd) :=
  if k.takes k.b.reeln then
    (c.reel k.b.reeln).bind fun r =>
      r.take.map fun (e, r) => (s.onCast k.cid (fun c => c.setReel k.b.reeln r), { k with entry := some e })
  else some (s, k)

/-- MATRIX_COMMAND_START (R270): the command at place `n` of the window starts. -/
def execMatrixCommandStart (p n : Nat) (s : State) : Out :=
  .next (match (s.plot p).script[n]? with
    | none => s
    | some k =>
      match look s.casts k.cid with
      | none => s
      | some c =>
        if !k.started && decide (n < 32) && k.preds.all (fun i => !s.inScript i) && weightOrder (s.plot p).script k &&
            s.arrayFree p k && !s.mxwBefore c k then
          match cmdTake s c k with
          | some (s, k) => s.onPlot p (fun q => q.setCmd { k with started := true })
          | none => s
        else s)

/-! ### Cells: MXR, MXRN, MXW (R274 to R276) -/

/-- Whether a thread has a read of the cell that it has issued before number `seq`, and that has still to read: one thread's accesses
of a cell come in program order (R276, R283, R289). -/
def Thread.readsFirst (t : Thread) (seq cell : Nat) : Bool := t.cellReads.any (fun r => decide (r.1 < seq) && r.2 == cell)

/-- Whether a read of the cell stands before a pending MXW in its thread's program order. -/
def State.readBefore (s : State) (w : PendMxw) : Bool :=
  (look s.casts w.cid).any (fun c => c.threads.any (fun (_, t) => t.descends w.key w.dep && t.readsFirst w.seq w.cell))

/-- Pending MXWs that can take effect: every earlier command that writes the tile has retired (R275), and the thread's earlier reads
of the cell have read it. -/
def State.readyMxws (s : State) (p : Nat) : List PendMxw :=
  (s.plot p).mxws.filter (fun w => w.after.all (fun i => !s.inScript i) && !s.readBefore w)

/-- A cell's value as an MXR issued as number `seq` sees it, among MXWs that take effect now. -/
def cellAt (p : Plot) (ws : List PendMxw) (seq cell : Nat) : Word :=
  ws.foldl (fun v w => if w.cell = cell ∧ w.seq < seq then w.val else v) (p.cell cell)

/-- An MXR of a thread whose commands have retired takes its value (R275). -/
def settleFlight (s : State) (p : Plot) (ws : List PendMxw) (t : Thread) (f : Flight) : Flight :=
  match f.src with
  | .mxr seq cell after =>
    if after.all (fun i => !s.inScript i) && !t.readsFirst seq cell then
      { f with src := .value, dst := f.dst.map (fun (d, _) => (d, cellAt p ws seq cell)) }
    else f
  | _ => f

/-- Lets the MXWs and the MXRs of a plot that are ready take effect, in the order of their issue (R275). -/
def State.settleCells (s : State) (p : Nat) : State :=
  let q := s.plot p
  let ws := s.readyMxws p
  let s' : State := { s with casts := s.casts.map (fun (n, c) =>
    (n, if c.plot = p then
        { c with threads := c.threads.map (fun (i, t) => (i, { t with flights := t.flights.map (settleFlight s q ws t) })) }
      else c)) }
  s'.onPlot p (fun q =>
    { q.setCells (ws.map (fun w => (w.cell, w.val))) with mxws := q.mxws.filter (fun w => !ws.contains w) })

/-- The physical cell that an operand names on a cast's tile; none: MXCMD (R274). -/
def cellOf (c : Cast) (t : BitVec 3) (v : Word) : Option Nat :=
  if bitsN v 14 18 = 0 ∧ t.toNat < descAcnt c.desc then some (cellKey (c.tile t.toNat) (bitsN v 0 7) (bitsN v 7 7)) else none

/-- MXR and MXRN: the common part. One behind an acquire that is not performed waits (R218, R283). -/
def cellRead (q : Bool) (d a : BitVec 6) (t : BitVec 3) (src : State → Ctx → Nat → Nat → Source) (s : State) : Out :=
  prologue false false q [.x a, .x d] s fun k =>
    match cellOf k.c t (k.t.getX a) with
    | none => raise s k .mxcmd
    | some cell =>
      if k.acquiring s then block s k .order
      else
        let n := s.nextReq
        let s := { s with nextReq := n + 1 }
        let f : Flight := { dst := [(.x d, (s.plot k.c.plot).cell cell)], src := src s k n cell }
        .next (retire s k (k.t.pending f) (k.after 4) false)

/-- MXR (R275): the cell after every earlier command that writes the tile, and after the thread's own earlier accesses of the cell. -/
def execMxr (q : Bool) (d a : BitVec 6) (t : BitVec 3) (s : State) : Out :=
  cellRead q d a t (fun s k n cell =>
    let l := s.writers k.c.plot (cell / 16384)
    if l.isEmpty && !k.t.readsFirst n cell && !(k.cellWrites s).any (fun w => w.cell == cell) then .value else .mxr n cell l) s

/-- MXRN (R276): the cell at some moment between the issue and the return. -/
def execMxrn (q : Bool) (d a : BitVec 6) (t : BitVec 3) (s : State) : Out :=
  cellRead q d a t (fun _ _ n cell => .mxrn n cell) s

/-- MXW (R275): it takes effect after every earlier command that writes the tile, and after the thread's own earlier reads of the cell
(R289). One behind an acquire that is not performed waits (R218, R283). -/
def execMxw (q : Bool) (d a : BitVec 6) (t : BitVec 3) (s : State) : Out :=
  prologue false false q [.x a, .x d] s fun k =>
    match cellOf k.c t (k.t.getX a) with
    | none => raise s k .mxcmd
    | some cell =>
      if k.acquiring s then block s k .order
      else
        let n := s.nextReq
        let w : PendMxw :=
          { seq := n, cid := k.r.c, key := k.t.key, dep := k.t.dep, cell := cell, val := k.t.getX d
            after := s.writers k.c.plot (cell / 16384) }
        let s := { s with nextReq := n + 1 }
        let s := s.onPlot k.c.plot (fun q => { q with mxws := q.mxws ++ [w] })
        let s := retire s k k.t (k.after 4) false
        .next (s.settleCells k.c.plot)

/-- The started commands of every plot that write a tile of a plot: the plot of each, its cast, and the command. -/
def State.running (s : State) (p tile : Nat) : List (Nat × Cast × MxCmd) :=
  s.plots.flatMap fun (q, x) => x.script.filterMap fun k =>
    (look s.casts k.cid).bind fun c => if k.started ∧ (cmdWrites c k).contains (p, tile) then some (q, c, k) else none

/-- The sum sequence of a command on a cell, earliest first (R276). -/
def State.cellSeq (s : State) (c : Cast) (k : MxCmd) (p cell : Nat) : Option (List Word) :=
  let i := cell % 16384 / 128
  let old := (s.plot p).cell cell
  if k.b.m ≤ i then none
  else if k.b.kind = 2 then some [old, 0]
  else match (mmaTargets s c k).find? (fun t => t.1 == p), readOuts s c (k.b.outp % 2 ^ 48 + 16) k.b.nout with
    | some (_, w), .ok (_, list) => some (old :: (cellSums k (rowOfA c k i) w (cell % 128) old (rowOuts k list i)).1.reverse)
    | _, _ => none

/-- Whether an MXRN has returned a value that a command has made after the starting value of a cell: the command then comes first among
those that write its tile (R270, R276). -/
def MxCmd.shown (k : MxCmd) : Bool := k.seen.any (fun e => e.2 != 0)

/-- Whether a started command may not retire yet: an MXRN has returned a value of another one that writes the same tile (R270, R276). -/
def State.behindShown (s : State) (c : Cast) (k : MxCmd) : Bool :=
  (cmdWrites c k).any (fun (p, t) => (s.running p t).any (fun x => x.2.2.id != k.id && x.2.2.shown))

/-- The commands whose values an MXRN of a cell may return: those that run on the tile, but for one behind another that an MXRN has
shown. -/
def State.showable (s : State) (p cell : Nat) : List (Nat × Cast × MxCmd) :=
  (s.running p (cell / 16384)).filter (fun (_, c, k) => !s.behindShown c k)

/-- The value of an MXRN at its return: while commands run on the cell, a value of the sequence of one of them that no earlier MXRN
has passed, by the oracle's choice (R276). (Log 57, DEDUCED.) -/
def mxrnValue (s : State) (p cell : Nat) : State × Word :=
  match s.showable p cell with
  | [] => (s, (s.plot p).cell cell)
  | x :: l =>
    let (n, s) := if l.isEmpty then (0, s) else s.choose
    let (q, c, k) := (x :: l).getD (n % (l.length + 1)) x
    match s.cellSeq c k p cell with
    | none => (s, (s.plot p).cell cell)
    | some vs =>
      let lo := (look k.seen cell).getD 0
      let (n, s) := s.choose
      let i := lo + n % (vs.length - lo)
      (s.onPlot q (fun x => x.setCmd { k with seen := put k.seen cell i }), vs.getD i 0)

/-! ### MATRIX_COMMAND_RETIRE (R272, R273) -/

/-- Writes the completion word (R272), and wakes its waiters: on GLOBAL and COMMONS as an allotment-scope release, which writes back the
plot's dirty lines first (R217); on SCRATCH as a plot-scope one. -/
def cmdWord (s : State) (c : Cast) (k : MxCmd) : Except CopyStop State :=
  if k.b.cwaddr = 0 then .ok s
  else
    let a : DWord := BitVec.ofNat 64 k.b.cwaddr
    match resolve s c k.cid (classify s.devnum a) .write .home .mx with
    | .error e => .error (e, a, .store)
    | .ok (s, l, _) =>
      let s := if l.isScr then s else s.release c.plot 3
      .ok ((s.writeAt c.plot .home l 4 k.b.cwval).wakeRange l 4)

/-- The end of a command: its count, MXSEQ, its flags and its reel entry (R108, R269, R272). -/
def cmdEnd (s : State) (p : Nat) (k : MxCmd) (fl : Word) : State :=
  let s := match k.entry with
    | some e => s.onCast k.cid (fun c =>
        match c.reel k.b.reeln with
        | some r => c.setReel k.b.reeln (r.release e)
        | none => c)
    | none => s
  let s := s.onCast k.cid (fun c => c.onCrew k.crew (fun w => w.setFlags fl))
  let s := s.opRetire k.cid k.crew k.op .mx
  let s := s.onPlot p (fun q => { q with script := q.script.filter (fun x => x.id != k.id), mxseq := q.mxseq + 1 })
  let s := match fusePartner p k.b.fuse with
    | some q => s.settleCells q
    | none => s
  (s.settleCells p).retry p Wait.room

/-- Whether an access of a command waits in the operand log (R273). -/
def Plot.cmdHeld (p : Plot) (k : MxCmd) : Bool := p.oplog.any (fun h => h.kind == .cmd k.id)

/-- What a command's access that does not go through does (R53, R273): a translation fault waits and replays; every other fault of a
running command fails its cast, with the CID and the block's address in the record, also where R406 gives FOWN's record others.
(Log 83, DEDUCED.) -/
def cmdStop (s : State) (c : Cast) (k : MxCmd) (e : Stop) (a : DWord) (ak : Acck) : State :=
  match e with
  | .fatal code cls _ walk =>
    if s.recFull then s
    else
      let s := s.walkedAt c a .mx
      s.fatal k.cid (agentRec s c k.slot k.key k.dep k.pc code cls k.b.cid k.block (walkAcck walk ak))
  | .migrating _ => s
  | .xlate kind va =>
    s.engineHold (agentRec s c k.slot k.key k.dep k.pc .xlate 2 kind a ak) c k.cid va
      { id := 0, cid := k.cid, slot := k.slot, key := k.key, dep := k.dep, pc := k.pc, va := a, size := 4, scope := 0
        ceil := acbCeil (s.acb c.al), kind := .cmd k.id, acck := ak, op := none, late := false }

/-- MATRIX_COMMAND_RETIRE (R272): a started command's effect, its completion word, and its retirement. -/
def execMatrixCommandRetire (p n : Nat) (s : State) : Out :=
  .next (match (s.plot p).script[n]? with
    | none => s
    | some k =>
      match look s.casts k.cid with
      | none => s
      | some c =>
        if k.started && !(s.plot p).cmdHeld k && !s.behindShown c k then
          let (n, s) := s.readsBad c
          match (if n = 1 then .error (.fatal .memerr 1 0 false, 0, .none) else runCmd s c k) with
          | .error (e, a, ak) => cmdStop s c k e a ak
          | .ok (s1, fl) =>
            match cmdWord s1 c k with
            | .error (e, a, ak) => cmdStop s c k e a ak
            | .ok s2 => cmdEnd s2 p k fl
        else s)

end Sys2Proof.Machine
end

