-- ==== Sys2Proof/Machine/Sync.lean ====
section
/-!
DEFINITION. Waits, barriers and fences (spec/07 R237 to R244): WAITA with its wake events, BAR with its completion,
WAITC; and the promotion requests of ACQP (R229).
-/

namespace Sys2Proof.Machine

open Sys2Proof

/-! ### WAITA (R237 to R240) -/

/-- The conditions of WAITA (R237). -/
def waitaCond (c : Nat) (v cmp : Word) : Bool :=
  match c with
  | 0 => v == cmp
  | 1 => v != cmp
  | 2 => decide (cmp.toNat ≤ v.toNat)
  | _ => decide (v.toNat < cmp.toNat)

/-- The end of a WAITA: the acquire and the result (R237). -/
def waitaDone (s : State) (k : Ctx) (e : Nat) (d : BitVec 6) (v : Word) : State :=
  retire (s.acquire k.c.plot e) k (k.t.setX d v) (k.after 4) false

/-- Whether a registration may be spilled with a spurious return (R239): no SCRATCH word, no ORDERED cast. -/
def mayReturn (k : Ctx) (sp : Space) : Bool :=
  descDet k.c.desc != 1 && (match sp with | .glob _ | .cmn _ => true | _ => false)

/-- Registers a WAITA and blocks its thread; a spill with a spurious return is the oracle's choice (R239, R240).
(Log 17, DESIGN CHOICE.) -/
def waitaRegister (s : State) (k : Ctx) (sp : Space) (w : Waiter) : State :=
  let (n, s) := if mayReturn k sp then s.choose else (0, s)
  s.setThread k.r { k.t with st := .blocked (.waita { w with spurious := n == 1 }) }

/-- The first read of a WAITA and what follows it (R237): a value that meets the condition returns at once, else the thread waits.
`ceil` is the ceiling at the issue (R425). -/
def waitaRead (s : State) (k : Ctx) (sp : Space) (l : Loc) (z : Bool) (w : Waiter) : State :=
  let e := effScope w.ceil sp w.scope.toNat
  let (s, v) := s.readAt k.c.plot (viewOf e) l z 4
  let s := s.countClamp k.r.c k.crewN (clamped w.ceil sp w.scope.toNat)
  let v : Word := BitVec.ofNat 32 v
  if waitaCond w.cond.toNat v w.cmp then waitaDone s k e w.d v else waitaRegister s k sp { w with loc := l }

/-- WAITA (R237). It is a switch point, whether it waits or not (R344). One that meets a translation fault, or whose page an entry of
its thread waits for, takes an entry of the operand log, with its thread BLOCKED at it (R418). (Log 16, DEDUCED.) -/
def execWaita (q : Bool) (d : BitVec 6) (p : BitVec 5) (b : BitVec 6) (sx : BitVec 3) (c : BitVec 4) (s : State) : Out :=
  prologue (!(Instr.waita q d p b sx c).wf) false q (pairDst p ++ [.x b, .x d]) s fun k =>
    let a := k.t.getA p
    let cmp := k.t.getX b
    let kind : HeldKind := .waita c cmp d
    match checkAcc s k.c .waita a 4 sx.toNat with
    | .error c => .next (raiseWith s k c 0 0 a .load)
    | .ok sp =>
      let w : Waiter := { addr := a, loc := .home 0, scope := sx, ceil := k.ceil s, cond := c, cmp := cmp, d := d }
      let log (s : State) : Out :=
        .next (((s.hold k.c.plot (k.entry s a 4 sx kind .load none false)).setThread k.r { k.t with st := .blocked .xlate }).switch k)
      if k.acquiring s || (descDet k.c.desc == 1 && k.holds s) || ((k.behind s a 4).any Held.late) then block s k .order
      else if !(k.behind s a 4).isEmpty then (if s.logFull k.c.plot then block s k .issue else log s)
      else match resolve s k.c k.r.c sp .read (viewOf (effScope w.ceil sp sx.toNat)) with
        | .ok (s, l, z) => .next ((waitaRead s k sp l z w).switch k)
        | .error (.xlate kd va) =>
          if s.logFull k.c.plot || s.recFull then block s k .issue
          else log (s.xlateOf k kd va a .load)
        | .error e => accStop s k e a .load 4

/-- The re-read of a woken WAITA (R237, R239); it is no part of a step. A fatal or a held access is treated as the access of the WAITA. -/
def waitaAgain (s : State) (k : Ctx) (w : Waiter) : State :=
  let sp := classify s.devnum w.addr
  let e := effScope w.ceil sp w.scope.toNat
  match resolve s k.c k.r.c sp .read (viewOf e) .sync with
  | .error (.fatal c cls info walk) => raiseWith (s.walkedAt k.c w.addr .sync) k c cls info w.addr (walkAcck walk .load)
  | .error (.migrating _) => s
  | .error (.xlate kind va) =>
    if s.logFull k.c.plot || s.recFull then s
    else ((s.xlateOf k kind va w.addr .load).hold k.c.plot
      (k.entry s w.addr 4 w.scope (.waita w.cond w.cmp w.d) .load none false)).setThread k.r { k.t with st := .blocked .xlate }
  | .ok (s, l, z) =>
    let (s, v) := s.readAt k.c.plot (viewOf e) l z 4
    let v : Word := BitVec.ofNat 32 v
    if waitaCond w.cond.toNat v w.cmp || w.spurious then waitaDone s k e w.d v
    else waitaRegister s k sp { w with loc := l, woken := false }

/-- Whether the members of an ORDERED step have still to perform their instruction of it: what a step brings about comes at its end
(R343, R356, R365). -/
def State.midStep (s : State) (c : Cast) : Bool :=
  descDet c.desc == 1 && !(s.plot c.plot).turn.members.isEmpty

/-- WAITA_WAKE (R238): a wake event or a spurious event has reached the thread's registration. -/
def execWaitaWake (c t : Nat) (s : State) : Out :=
  .next (match s.ctxAt ⟨c, t⟩ with
    | some k =>
      match k.t.st with
      | .blocked (.waita w) => if (w.woken || w.spurious) && !k.holds s && !s.midStep k.c then waitaAgain s k w else s
      | _ => s
    | none => s)

/-! ### Barriers (R241 to R243) -/

/-- A cast's barrier. -/
def Cast.bar (c : Cast) (n : Nat) : Barrier := c.bars.toList.getD n {}

/-- Sets a cast's barrier. -/
def Cast.setBar (c : Cast) (n : Nat) (b : Barrier) : Cast := { c with bars := c.bars.setIfInBounds n b }

/-- A thread that waits on generation `g` of barrier `n`. -/
def Thread.onBar (t : Thread) (n g : Nat) : Bool :=
  match t.st with
  | .blocked (.barrier m h _ _) => m == n && h == g
  | _ => false

/-- Whether every arriving thread's earlier accesses are performed (R215, R242): none of those that were not at the arrivals is left,
of memory or of a cell. -/
def State.arrivalsDone (s : State) (c : Cast) (b : Barrier) : Bool :=
  !(s.plot c.plot).oplog.any (fun h => b.by_.contains h.id) && !(s.plot c.plot).mxws.any (fun w => b.cells.contains w.seq) &&
    !c.threads.any (fun (_, t) => t.cellReads.any (fun r => b.cells.contains r.1))

/-- Completes a generation: its waiting threads return, and the next generation begins (R242). -/
def completeBarrier (s : State) (cid n : Nat) : State :=
  match look s.casts cid with
  | none => s
  | some c =>
    let b := c.bar n
    let waits := (c.threads.filter (fun (_, t) => t.onBar n b.gen)).map Prod.fst
    let s := waits.foldl (fun s i =>
      match s.ctxAt ⟨cid, i⟩ with
      | some k => retire s k k.t (k.after 4) false
      | none => s) s
    s.onCast cid (fun c => c.setBar n { gen := b.gen + 1 })

/-- Completes a generation whose last arrival has come and whose arriving threads have performed their accesses. -/
def State.tryBarrier (s : State) (cid n : Nat) : State :=
  match look s.casts cid with
  | none => s
  | some c =>
    let b := c.bar n
    if b.cnt ≠ 0 ∧ b.arr = b.cnt.toNat ∧ s.arrivalsDone c b then completeBarrier s cid n else s

/-- The threads that wait on a barrier with a count other than `c` (R242). -/
def Cast.badWaits (k : Cast) (n g : Nat) (c : Word) : List Nat :=
  (k.threads.filter (fun (_, t) =>
    match t.st with
    | .blocked (.barrier m h w _) => m == n && h == g && w != c
    | _ => false)).map Prod.fst

/-- An arrival (R242): it is counted, then ARRIVE goes on and SYNC waits; the last arrival completes the generation. -/
def barArrival (s : State) (k : Ctx) (n : Nat) (b : Barrier) (c : Word) (sync : Bool) : State :=
  let b := { b with cnt := c, arr := b.arr + 1, by_ := b.by_ ++ (k.held s).map Held.id, cells := b.cells ++ k.cellsOf s }
  let s := s.onCast k.r.c (fun x => x.setBar n b)
  let s := if sync then s.setThread k.r { k.t with st := .blocked (.barrier n b.gen c false) }
    else retire s k k.t (k.after 4) false
  (s.tryBarrier k.r.c n).switch k

/-- BAR (R242): codes 0 ARRIVE, 1 WAIT, 2 SYNC. BAR is a switch point (R344). The rule does not say what an arrival does that comes
while a full generation still waits for its arrivers' accesses: it waits for that generation's completion and then arrives at the
next (log 77, DESIGN CHOICE). -/
def barOp (op : Nat) (q : Bool) (n : BitVec 4) (a : BitVec 6) (s : State) : Out :=
  prologue false false q [.x a] s fun k =>
    let c := k.t.getX a
    let b := k.c.bar n.toNat
    if c = 0 ∨ descSlots k.c.desc < c.toNat then raise s k .barcnt
    else if b.cnt ≠ 0 ∧ b.cnt ≠ c then raise s k .barcnt
    else if op = 1 then
      .next ((s.setThread k.r { k.t with st := .blocked (.barrier n.toNat b.gen c true) }).switch k)
    else if k.acquiring s then block s k .order
    else if b.cnt ≠ 0 ∧ b.arr = b.cnt.toNat then block s k .issue
    else match (if b.cnt = 0 then k.c.badWaits n.toNat b.gen c else []) with
      | i :: _ =>
        match s.ctxAt ⟨k.r.c, i⟩ with
        | some w => .next (raiseWith s w .barcnt 0 0 0 .none)
        | none => .next s
      | [] => .next (barArrival s k n.toNat b c (op == 2))

/-- BAR.ARRIVE (R241). -/
def execBarArrive (q : Bool) (n : BitVec 4) (a : BitVec 6) (s : State) : Out := barOp 0 q n a s

/-- BAR.WAIT (R241). -/
def execBarWait (q : Bool) (n : BitVec 4) (a : BitVec 6) (s : State) : Out := barOp 1 q n a s

/-- BAR.SYNC (R241). -/
def execBarSync (q : Bool) (n : BitVec 4) (a : BitVec 6) (s : State) : Out := barOp 2 q n a s

/-- BARRIER_COMPLETE (R242): a generation whose arriving threads had held accesses completes. -/
def execBarrierComplete (c b : Nat) (s : State) : Out :=
  match look s.casts c with
  | some k =>
    let t := s.tryBarrier c b
    .next (if look t.casts c = some k then t else t.retry k.plot Wait.room)
  | none => .next s

/-! ### WAITC (R244, R280) -/

/-- The class that a W form's code names (R125). -/
def opClass (c : BitVec 2) : OpClass :=
  match c.toNat with
  | 0 => .ld
  | 1 => .st
  | 2 => .cp
  | _ => .mx

/-- The release side at an effective scope (R217, R224). -/
def State.fenceRelease (s : State) (p e : Nat) : State :=
  if e = 1 then (s.promoBegin p).promoEnd p else s.release p e

/-- The acquire side at an effective scope (R217), with the discard of READONLY and instruction copies (R280). -/
def State.fenceAcquire (s : State) (p e : Nat) : State :=
  let s := s.acquire p e
  if 3 ≤ e then s.onPlot p (fun q => { q with roc := [], ic := [] }) else s

/-- What a WAITC does to the own stores that READONLY loads do not observe (R65): a release side of the ST class at allotment scope or
wider, then an acquire side of any class, ends the hiding. (Log 78, DEDUCED.) -/
def Thread.fenceOwn (t : Thread) (e : Nat) (r u : Bool) (c : OpClass) : Thread :=
  if e < 3 then t
  else
    let t := if r && c == .st then { t with own := t.own.map (fun o => { o with rel := true }) } else t
    if u then { t with own := t.own.filter (fun o => !o.rel) } else t

/-- What a WAITC waits for beyond its counter: a release side for every earlier access of its thread, of memory or of a cell (R217), an
acquire side for its earlier reads (R283, case 4), either for an earlier acquire. -/
def waitcHolds (s : State) (k : Ctx) (r u : Bool) : Bool :=
  (r && k.busy s) || (u && ((k.held s).any (fun h => h.kind.reads) || !k.t.cellReads.isEmpty)) || k.acquiring s

/-- WAITC (R244): the counter wait, then the release side, then the acquire side. One that waits keeps the ceiling of its issue (R425).
The rule of R236 that traps a clamp comes before the counter wait (log 79, DESIGN CHOICE). -/
def execWaitc (q : Bool) (c : BitVec 2) (t : BitVec 6) (sx : BitVec 3) (r u : Bool) (s : State) : Out :=
  prologue (!(Instr.waitc q c t sx r u).wf) false q [] s fun k =>
    let ceil := k.t.wceil.getD (k.ceil s)
    let above := (r || u) && decide (ceil < sx.toNat)
    if above && acbCtrap (s.acb k.c.al) && k.t.wceil.isNone then raise s k .scope
    else if t.toNat < k.crew.count (opClass c) || waitcHolds s k r u then block s k (.waitc ceil)
    else
      let e := min sx.toNat ceil
      let s := s.countClamp k.r.c k.crewN above
      let s := if r then s.fenceRelease k.c.plot e else s
      let s := if u then s.fenceAcquire k.c.plot e else s
      .next (retire s k (k.t.fenceOwn e r u (opClass c)) (k.after 4) false)

/-! ### Accesses that are performed after their issue (R214, R418, R419) -/

/-- A held load's flight receives its values and returns as any result does (R50). -/
def Thread.fill (t : Thread) (op : Option Nat) (vals : List (Dst × Word)) : Thread :=
  { t with flights := t.flights.map (fun f => if f.src = .held ∧ f.op = op then { f with src := .value, dst := vals } else f) }

/-- A thread that waits for its own access runs its instruction again. -/
def Thread.unhold (t : Thread) : Thread :=
  match t.st with
  | .blocked .xlate => { t with st := .ready, timer := 0 }
  | _ => t

/-- The thread of an access, in whatever slot it stands: by its key and depth. -/
def Cast.threadOf (c : Cast) (h : Held) : Option (Nat × Thread) := c.threads.find? (fun (_, t) => h.of h.cid t)

/-- Changes the thread of an access, where it lives. -/
def State.onHeldThread (s : State) (h : Held) (f : Thread → Thread) : State :=
  s.onCast h.cid (fun c => { c with threads := c.threads.map (fun (i, t) => (i, if h.of h.cid t then f t else t)) })

/-- Takes an access out of a plot's list. -/
def State.unlist (s : State) (p id : Nat) : State := s.onPlot p (fun q => { q with oplog := q.oplog.filter (fun h => h.id != id) })

/-- The context of an access: its thread where it still lives, else a stand-in with the entry's key and PC. -/
def State.heldCtx (s : State) (h : Held) : Option Ctx :=
  (look s.casts h.cid).map fun c =>
    match c.threadOf h with
    | some (i, t) => { r := ⟨h.cid, i⟩, c := c, t := t }
    | none =>
      { r := ⟨h.cid, h.slot⟩, c := c
        t := { pc := h.pc, x := Vector.replicate 64 0, k := Vector.replicate 8 false, e := Vector.replicate 4 0
               lc := Vector.replicate 3 0, ll := Vector.replicate 3 0, meet := 0, key := h.key, dep := h.dep, cmask := 0, retired := 0
               retLatch := 0, st := .held, pend := [], flights := [], timer := 0, pass := false, met := [], own := [] } }

/-- A counted operation of an access is done (R212). -/
def State.heldOp (s : State) (h : Held) : State :=
  match h.op with
  | some id => s.opDone h.cid (h.slot / 32) id
  | none => s

/-- Performs an access at its place, with what it had left open (R418); it has left the list. -/
def State.perform (s : State) (h : Held) (k : Ctx) (sp : Space) (l : Loc) (z : Bool) : State :=
  let p := k.c.plot
  let sc := h.scope.toNat
  let e := effScope h.ceil sp sc
  let clamp (s : State) : State := s.countClamp h.cid (h.slot / 32) (clamped h.ceil sp sc)
  let fill (s : State) (vals : List (Dst × Word)) : State :=
    if k.t.flights.any (fun f => f.src == .held && f.op == h.op) then s.onHeldThread h (fun t => t.fill h.op vals) else s.heldOp h
  let store (v : View) (f : State → State) : State :=
    let (s, t) := s.ownStore h.cid p v k.t l h.size f
    s.onHeldThread h (fun u => { u with own := t.own })
  match h.kind with
  | .load dst sx =>
    let (s, v) := loadAt s p k.t sp l z h.size
    fill s (loadVals h.size sx dst v)
  | .lds dst =>
    let (s, v) := s.readAt p (viewOf e) l z h.size
    fill (clamp (s.acquire p e)) (loadVals h.size false dst v)
  | .store v => ((store .plot (fun s => s.storeAt p .plot l h.size v)).fold h.cid sp h.va h.size v).heldOp h
  | .sts v => (clamp ((store (viewOf e) (fun s => s.stsAt p e sc sp l h.size v)).fold h.cid sp h.va h.size v)).heldOp h
  | .red o v => (clamp (store (viewOf e) (fun s => (s.update p (viewOf e) l z (.op o.toNat v 0)).1))).heldOp h
  | .atom d u =>
    let old := (s.atomic p e l z (d != 0) u).2
    let s := clamp (store (viewOf e) (fun s => (s.atomic p e l z (d != 0) u).1))
    if d = 0 then s.heldOp h else fill s [(.x d, old)]
  | .waita c cmp d =>
    waitaRead s k sp l z { addr := h.va, loc := l, scope := h.scope, ceil := h.ceil, cond := c, cmp := cmp, d := d }
  | .acqp ts d =>
    let n := s.nextReq
    let s := { s with nextReq := s.nextReq + 1 }.request k.c.al n ts
    if s.requested n then s.hold p { h with kind := .acqpGo n d, late := true }
    else
      let (s, v) := s.acqpLoad p l z
      fill s (loadVals 4 false [.x d] v)
  | .acqpGo _ d =>
    let (s, v) := s.acqpLoad p l z
    fill s (loadVals 4 false [.x d] v)
  | .again | .wait => s.onHeldThread h Thread.unhold
  | .commit | .seed | .copy _ | .cmd _ => s

/-- Whether an access reads or writes, for its walk. -/
def HeldKind.want : HeldKind → Want
  | .store _ | .sts _ | .red _ _ | .atom _ _ | .commit => .write
  | _ => .read

/-- Which translation cache an access uses (R402). -/
def HeldKind.eng : HeldKind → Eng
  | .copy _ => .copy
  | .cmd _ => .mx
  | _ => .plot

/-- Where a GLOBAL access is made, for its walk. -/
def Held.view (h : Held) (sp : Space) : View :=
  match h.kind with
  | .load _ _ | .store _ => .plot
  | .acqp _ _ | .acqpGo _ _ | .again | .wait | .commit | .seed | .copy _ | .cmd _ => .home
  | _ => viewOf (effScope h.ceil sp h.scope.toNat)

/-- The record of a fault of an access that is performed after its issue (R417). -/
def heldRec (s : State) (k : Ctx) (h : Held) (code : FCode) (cls info : Nat) : FaultRec :=
  if h.kind == .seed then { agentRec s k.c h.slot h.key h.dep h.pc code cls info h.va h.acck with agent := false }
  else if !h.kind.ofThread then agentRec s k.c h.slot h.key h.dep h.pc code cls info h.va h.acck
  else { threadRec s k.c h.slot (some k.t) code cls info h.va h.acck with iaddr := h.pc }

/-- One access of a plot's list walks, and is performed where it goes through (R214, R419). -/
def State.tryOne (s : State) (p : Nat) (h : Held) : Except Stop State :=
  match s.heldCtx h with
  | none => .ok (s.unlist p h.id)
  | some k =>
    let sp := classify s.devnum h.va
    (resolve s k.c h.cid sp h.kind.want (h.view sp) h.kind.eng).map (fun (s, l, z) => (s.unlist p h.id).perform h k sp l z)

/-- What an access of a plot's list that does not go through does: it waits for a page under migration (R414); one that meets a
translation fault takes a new record and waits in the log (R419); a fatal fault fails its cast. -/
def State.heldStop (s : State) (p : Nat) (h : Held) (e : Stop) : State :=
  match s.heldCtx h with
  | none => s
  | some k =>
    match e with
    | .migrating _ => s
    | .xlate kd va =>
      if (h.late && s.logFull p) || s.recFull then s
      else (s.resolvable (heldRec s k h .xlate 2 kd) k.c.al p (va / 65536) h.cid).onPlot p
        (fun q => { q with oplog := q.oplog.map (fun x => if x.id = h.id then { x with late := false } else x) })
    | .fatal code cls info walk =>
      if s.recFull then s
      else
        let s := s.walkedAt k.c h.va h.kind.eng
        s.fatal h.cid { heldRec s k h code cls info with acck := walkAcck walk h.acck }

/-- The entries of a plot's list that are performed with one: those of its combined step (R347), else it alone. -/
def Plot.together (p : Plot) (h : Held) : List Held := if h.set.isNone then [h] else p.oplog.filter (fun x => x.set == h.set)

/-- The combined step of entries of a cast is counted on its words (R347, R349). -/
def State.stepHeld (s : State) (hs : List Held) : State :=
  match hs with
  | [] => s
  | h :: _ => if h.set.isNone then s
    else s.onCast h.cid (fun c => (dedup (hs.filterMap (fun x => wordKey s x.va))).foldl Cast.addStep c)

/-- An access of a plot's list is performed where it goes through (R214, R419), and with it those of its combined step, one after
another (R347). -/
def State.tryHeld (s : State) (p : Nat) (h : Held) : State :=
  let hs := (s.plot p).together h
  match hs.foldlM (fun s x => (s.tryOne p x).mapError (fun e => (x, e))) s with
  | .ok t => (t.stepHeld hs).retry p Wait.room
  | .error (x, e) => s.heldStop p x e

/-- Whether a late access may be performed now: none of its thread's accesses that stand before it in the list meets it (R214). -/
def State.canPerform (s : State) (p : Nat) (h : Held) : Bool :=
  h.late &&
    (match h.kind with | .acqpGo n _ => !s.requested n | _ => true) &&
    !(s.plot p).oplog.any (fun x => decide (x.id < h.id) && x.cid == h.cid && x.key == h.key && x.dep == h.dep &&
      x.before s.devnum h.va h.size)

/-- The device performs a late access of a plot (R214). -/
def State.performLate (s : State) (p id : Nat) : State :=
  match (s.plot p).oplog.find? (fun h => h.id == id) with
  | some h => if s.canPerform p h then s.tryHeld p h else s
  | none => s

/-- The late accesses of a plot that can be performed: one after another, in issue order, at most `m`. -/
def State.performAll (p : Nat) : Nat → State → State
  | 0, s => s
  | m + 1, s =>
    match (s.plot p).oplog.find? (fun h => s.canPerform p h) with
    | some h => State.performAll p m (s.tryHeld p h)
    | none => s

/-! ### PROMOTION_REQUEST (R228 to R230) -/

/-- Serves the request at the front of a plot's list: the write-back up to its cut-off, then the completion. A target that no longer
holds a resident context of the request's allotment counts nothing (R230). -/
def State.serveProm (s : State) (p : Nat) (r : PromReq) : State :=
  (s.promoteTo p r.cut).onPlot p (fun q =>
    { q with preqs := q.preqs.drop 1, proms := if q.holdsCtx r.al then q.proms + 1 else q.proms })

/-- The access that waits for the completions of promotion request `n`: its plot and number. -/
def State.acqpOf (s : State) (n : Nat) : Option (Nat × Nat) :=
  s.plots.findSome? (fun (p, q) => (q.oplog.find? (fun h => match h.kind with | .acqpGo m _ => m == n | _ => false)).map
    (fun h => (p, h.id)))

/-- Whether a plot's context of an allotment is being saved: a request is served once the save has drained the promotion log (R230). -/
def State.plotSaving (s : State) (p al : Nat) : Bool :=
  (s.plot p).ctx.any (fun e => e.1 == al && (look s.allots al).any (fun a => (a.queues.toList.getD e.2 {}).saving))

/-- PROMOTION_REQUEST (R229): a plot serves its oldest request; the last completion lets the ACQP load (R228).
(Log 16, DEDUCED.) -/
def execPromotionRequest (p : Nat) (s : State) : Out :=
  match (s.plot p).preqs with
  | [] => .next s
  | r :: _ =>
    if s.plotSaving p r.al then .next s
    else
      let s := s.serveProm p r
      .next (match s.acqpOf r.n with
        | some (n, id) => s.performLate n id
        | none => s)

end Sys2Proof.Machine
end

