-- ==== Sys2Proof/Machine/Collective.lean ====
section
/-!
DEFINITION. Crew rendezvous (spec/01 R35, R36, spec/06 R198 to R210, spec/08 R268, spec/14 R347 to R349): arrival, the
participant set, votes, shuffles, reductions, scans, BPACK, BUNPK, MXC, and the atomics with their deterministic form.
-/

namespace Sys2Proof.Machine

open Sys2Proof

/-! ### The participant set (R35, R36) -/

/-- What a masked lane is to a thread at a collective (R35). -/
inductive LaneRes where
  | part | other | wait
  deriving DecidableEq, Repr

/-- A lane of the thread's crew, as R35 sorts it; a thread at the address with an equal CMASK is waited for until it has
arrived. -/
def laneRes (c : Cast) (crew : Nat) (t : Thread) (l : Nat) : LaneRes :=
  match look c.threads (32 * crew + l) with
  | none => .other
  | some u =>
    if u.pc ≠ t.pc then .wait
    else if u.cmask ≠ t.cmask then .other
    else match u.st with
      | .blocked (.collective a) => if a.fixed.isNone then .part else .wait
      | _ => .wait

/-- The participants of the group that a thread has arrived in, once the condition of R35 holds for every masked lane: their slots in
lane order. The group is every thread of the crew that has arrived at the address with the same CMASK; one whose own lane the mask
leaves out is a member too, which no other member waits for (R35, R36). -/
def participants (k : Ctx) : Option (List Nat) :=
  if (List.range 32).any (fun l => k.t.cmask.getLsbD l && laneRes k.c k.crewN k.t l == .wait) then none
  else some (((List.range 32).filter (fun l => laneRes k.c k.crewN k.t l == .part)).map (fun l => 32 * k.crewN + l))

/-- The set as fixed now, with the crew's registers (R203). -/
def fixNow (k : Ctx) : Option FixedSet :=
  (participants k).map (fun l => { parts := l, mode := k.crew.mode, outl := k.crew.outl, outlh := k.crew.outlh })

/-- The arrival of a thread at a collective. -/
def Thread.arrival (t : Thread) : Option Arrival :=
  match t.st with
  | .blocked (.collective a) => some a
  | _ => none

/-- Operand n of the thread in a slot, as it was at arrival (R203). -/
def State.arrVal (s : State) (cid slot n : Nat) : Word :=
  (((s.thread? ⟨cid, slot⟩).bind Thread.arrival).map (fun a => a.vals.getD n 0)).getD 0

/-- A thread's arrival with its fixed set. -/
def Thread.markFixed (t : Thread) (fx : FixedSet) : Thread :=
  match t.st with
  | .blocked (.collective a) => { t with st := .blocked (.collective { a with fixed := some fx }) }
  | _ => t

/-- Records that a set is fixed while its operation waits. -/
def State.markFixed (s : State) (cid : Nat) (fx : FixedSet) : State :=
  s.onCast cid (fun c => { c with threads := c.threads.map (fun (i, t) => (i, if fx.parts.contains i then t.markFixed fx else t)) })

/-! ### Delivery -/

/-- The participants leave with pending results; the flags are set once for the crew, when the first of them returns (R204). -/
def deliver (s : State) (cid : Nat) (fx : FixedSet) (res : Nat → List (Dst × Word)) (fl : Word) : State :=
  let n := s.nextReq
  fx.parts.foldl (fun s i =>
    match s.ctxAt ⟨cid, i⟩ with
    | some k => retire s k (k.t.pending { dst := res i, flags := fl, grp := some n }) (k.after 4) false
    | none => s) { s with nextReq := n + 1 }

/-- The participants leave with their results written (R198, R268). -/
def deliverNow (s : State) (cid : Nat) (fx : FixedSet) (f : Nat → Thread → Thread) : State :=
  fx.parts.foldl (fun s i =>
    match s.ctxAt ⟨cid, i⟩ with
    | some k => retire s k (f i k.t) (k.after 4) false
    | none => s) s

/-! ### Votes and shuffles (R206) -/

/-- The participant mask of a predicate (R206). -/
def voteMask (s : State) (cid : Nat) (fx : FixedSet) : Word :=
  BitVec.ofNat 32 ((fx.parts.map (fun i => if s.arrVal cid i 0 = 0 then 0 else 2 ^ (i % 32))).sum)

/-- The value that a lane receives from source lane `src` (R206). -/
def shflVal (s : State) (cid : Nat) (fx : FixedSet) (i : Nat) (src : Int) : Word :=
  let j := i / 32 * 32 + src.toNat
  if 0 ≤ src ∧ src ≤ 31 ∧ fx.parts.contains j then s.arrVal cid j 0 else s.arrVal cid i 0

/-! ### Reductions and scans (R208, R209) -/

/-- combine(u, v) of R208, with its flags. -/
def combine (op : Nat) (m : Word) (u v : Word) : Word × Word :=
  match op with
  | 0 => (u + v, 0)
  | 1 => (if u.toInt ≤ v.toInt then u else v, 0)
  | 2 => (if v.toInt ≤ u.toInt then u else v, 0)
  | 3 => (if u.toNat ≤ v.toNat then u else v, 0)
  | 4 => (if v.toNat ≤ u.toNat then u else v, 0)
  | 5 => (u &&& v, 0)
  | 6 => (u ||| v, 0)
  | 7 => (u ^^^ v, 0)
  | 8 => w32 (fp32.addOp (modeF32 m) u.toNat v.toNat)
  | 9 => w32 (fp32.minMax (modeSubn m) false u.toNat v.toNat)
  | _ => w32 (fp32.minMax (modeSubn m) true u.toNat v.toNat)

/-- The empty value of R208. -/
def emptyVal (op : Nat) : Word :=
  match op with
  | 1 => 0x7FFFFFFF
  | 2 => 0x80000000
  | 3 | 5 => 0xFFFFFFFF
  | 9 => 0x7F800000
  | 10 => 0xFF800000
  | _ => 0

/-- combine with absent sides (R209). -/
def combineOpt (op : Nat) (m : Word) (u v : Option Word) : Option Word × Word :=
  match u, v with
  | some u, some v => let r := combine op m u v; (some r.1, r.2)
  | some u, none => (some u, 0)
  | none, v => (v, 0)

/-- One level of the reduction tree (R209). -/
def treeLevel (op : Nat) (m : Word) : List (Option Word) → List (Option Word) × Word
  | u :: v :: r =>
    let c := combineOpt op m u v
    let t := treeLevel op m r
    (c.1 :: t.1, c.2 ||| t.2)
  | l => (l, 0)

/-- The reduction tree over 32 lanes, n levels (R209). -/
def tree (op : Nat) (m : Word) (l : List (Option Word)) : Nat → Option Word × Word
  | 0 => (l.headD none, 0)
  | n + 1 =>
    let t := treeLevel op m l
    let r := tree op m t.1 n
    (r.1, t.2 ||| r.2)

/-- The scans of a list from a running value on: inclusive and exclusive values, and the flags of each fold (R209). -/
def scan (op : Nat) (m : Word) (acc : Option Word) : List (Option Word) → List (Option Word × Option Word × Word)
  | [] => []
  | v :: r =>
    let c := combineOpt op m acc v
    (c.1, acc, c.2) :: scan op m c.1 r

/-- The lanes' values: a participant's operand, else absent (R209). -/
def laneVals (s : State) (cid : Nat) (crew : Nat) (fx : FixedSet) : List (Option Word) :=
  (List.range 32).map (fun l => if fx.parts.contains (32 * crew + l) then some (s.arrVal cid (32 * crew + l) 0) else none)

/-- The flags of a scan's folds: the last participant's own step does not belong to an exclusive scan. -/
def scanFlags (excl : Bool) (l : List (Option Word × Option Word × Word)) (lanes : List Nat) : Word :=
  let last := (lanes.getLast?).getD 0
  orFlags ((l.take (if excl then last else last + 1)).map (fun x => x.2.2))

/-! ### BPACK and BUNPK (R199 to R201) -/

/-- Appends outliers to the crew's list in one plot-scope atomic step of the lowest participant (R102, R103, R200), after the accesses
that it has issued before, and in ORDERED mode after those of its cast (R214, R345). -/
def appendOutliers (s : State) (k : Ctx) (fx : FixedSet) (es : List (Word × Word)) : Except CollStop State :=
  let a : DWord := fx.outlh ++ fx.outl
  match checkAcc s k.c .ctrl a 16 0 with
  | .error e => .error (.fault k e 0 0 a .outlier)
  | .ok sp =>
    if k.holds s then .error .wait
    else match access s k.c.plot k.c.al sp.va .write with
    | .error e => .error (.stop k e a .outlier)
    | .ok (s, pa, _) =>
      let (s, h) := s.readAt k.c.plot .plot (.home pa) false 8
      let cnt := h % 2 ^ 32
      if h / 2 ^ 32 < cnt + es.length then .error (.fault k .outlmax 0 es.length a .outlier)
      else
        let step (s : State) (je : Nat × Word × Word) : Except CollStop State :=
          let va := (sp.va + 16 + 8 * (cnt + je.1)) % 2 ^ 48
          match access s k.c.plot k.c.al va .write with
          | .error e => .error (.stop k e (BitVec.ofNat 64 va) .outlier)
          | .ok (s, pa, _) => .ok (s.storeAt k.c.plot .plot (.home pa) 8 (je.2.1.toNat + 2 ^ 32 * je.2.2.toNat))
        match ((List.range es.length).zip es).foldlM step s with
        | .error e => .error e
        | .ok s => .ok (s.storeAt k.c.plot .plot (.home pa) 4 (cnt + es.length))

/-- BPACK (R199): AUTO or FIXED scales. -/
def bpack (fixedSc : Bool) (f : Nat) (d : BitVec 6) (s : State) (k : Ctx) (fx : FixedSet) : Except CollStop State :=
  let n := dbWidth f
  let cid := k.r.c
  let ws := (laneVals s cid k.crewN fx).map (fun v => v.getD 0)
  let vs := ws.map (fun w => fp32.read false w.toNat)
  let rnd := modeDbRnd fx.mode n
  let b := s.arrVal cid k.r.t 1
  let sc := s.arrVal cid k.r.t 2
  let (sh, sl) := if fixedSc then (bitsN sc 0 9, bitsN sc 9 9) else dbAuto n rnd vs
  let es := (vs.zip ws).map (fun (v, w) => dbEncode n rnd (modeDbSat fx.mode n) sh sl v w)
  let outs := ((List.range 32).zip es).filterMap (fun (i, e) => e.out.map (fun v => (v, BitVec.ofNat 32 (32 * b.toNat + i))))
  let r : Except CollStop State := if outs.isEmpty then .ok s else appendOutliers s k fx outs
  match r with
  | .error e => .error e
  | .ok s =>
    let blk := dbBlock n sh sl es
    let s := s.onCast cid (fun c => c.onCrew k.crewN (fun w => w.setFlags (orFlags (es.map DbEnc.flags))))
    .ok (deliverNow s cid fx (fun i t =>
      t.setX d (if i % 32 < 1 + n then BitVec.ofNat 32 (blk / 2 ^ (32 * (i % 32))) else 0)))

/-- BUNPK (R201). -/
def bunpk (f : Nat) (d : BitVec 6) (s : State) (k : Ctx) (fx : FixedSet) : State :=
  let n := dbWidth f
  let cid := k.r.c
  let blk := packN (((laneVals s cid k.crewN fx).take (1 + n)).map (fun v => ((v.getD 0).toNat, 4)))
  let rs := (List.range 32).map (fun i => w32 (fp32.finish (modeF32 fx.mode) (.val (dbElem n blk i))))
  let fl := orFlags ((rs.zip (List.range 32)).filterMap (fun (r, i) => if fx.parts.contains (32 * k.crewN + i) then some r.2 else none))
  let s := s.onCast cid (fun c => c.onCrew k.crewN (fun w => w.setFlags fl))
  deliverNow s cid fx (fun i t => t.setX d (rs.getD (i % 32) (0, 0)).1)

/-! ### Ordered atomics (R347 to R349) -/

/-- The cast of the same scene with the index before, placed or saved, and whether it is resident; none: it has ended or failed, or
there is none. -/
def State.prevCast (s : State) (c : Cast) : Option (Cast × Bool) :=
  let f (x : Cast) : Bool := x.al == c.al && x.scene == c.scene && x.fire.isNone && x.ix + 1 == c.ix
  if c.ix = 0 ∨ c.fire.isSome then none
  else match (s.casts.map Prod.snd).find? f with
    | some x => some (x, x.st != .listWait)
    | none => ((look s.allots c.al).bind fun a => a.saved.findSome? fun v => (v.casts.map SavedCast.cast).find? f).map (fun x => (x, false))

/-- Whether a cast's next step on a word may be performed (R349): `some b` to wait, `b` where the earlier cast is resident on
the same plot. -/
def stepWait (s : State) (c : Cast) (w : DWord) : Option Bool :=
  match s.prevCast c with
  | none => none
  | some (x, here) => if c.stepsOn w + 1 ≤ x.stepsOn w then none else some (here && x.plot == c.plot)

/-- What ATOM or ATOMT asks of a word: its scope and its update, for operands x and y. -/
def atomUpdate (i : Instr) (x y : Word) : Option (BitVec 3 × BitVec 6 × Update) :=
  match i with
  | .atom _ d _ _ sc o => some (sc, d, .op o.toNat x y)
  | .atomt _ d _ _ sc => some (sc, d, .thresh x y)
  | _ => none

/-- Performs the atomic of the context's thread at a resolved location under the ceiling of its issue, and completes the instruction
(R231 to R234, R425). -/
def atomPerform (s : State) (k : Ctx) (ceil : Nat) (sp : Space) (l : Loc) (z : Bool) (sc : BitVec 3) (d : BitVec 6) (u : Update) : State :=
  let e := effScope ceil sp sc.toNat
  let old := (s.atomic k.c.plot e l z (d != 0) u).2
  let (s, t) := s.ownStore k.r.c k.c.plot (viewOf e) k.t l 4 (fun s => (s.atomic k.c.plot e l z (d != 0) u).1)
  let s := s.countClamp k.r.c k.crewN (clamped ceil sp sc.toNat)
  if d = 0 then
    let (_, s) := s.count k .st true
    retire s k t (k.after 4) false
  else
    let (id, s) := s.count k .ld false
    retire s k (t.pending { dst := [(.x d, old)], op := some id }) (k.after 4) false

/-- The atomic of one participant of a rendezvous (R347). -/
def atomOne (cid : Nat) (s : State) (i : Nat) : Except CollStop State :=
  match s.ctxAt ⟨cid, i⟩ with
  | none => .ok s
  | some k =>
    match k.t.arrival with
    | none => .ok s
    | some a =>
      let ad : DWord := a.vals.getD 1 0 ++ a.vals.getD 0 0
      match atomUpdate a.instr (a.vals.getD 2 0) (a.vals.getD 3 0) with
      | none => .ok s
      | some (sc, d, u) =>
        let sp := classify s.devnum ad
        if k.full (if d = 0 then .st else .ld) || k.busy s then .error .wait
        else match resolve s k.c cid sp .write (viewOf (effScope a.ceil sp sc.toNat)) with
          | .error e => .error (.stop k e ad .atomic)
          | .ok (s, l, z) => .ok (atomPerform s k a.ceil sp l z sc d u)

/-- The words that a set's ordered atomics step on (R347, R349). -/
def State.setWords (s : State) (cid : Nat) (fx : FixedSet) : List DWord :=
  dedup (fx.parts.filterMap (fun i => wordKey s (s.arrVal cid i 1 ++ s.arrVal cid i 0)))

/-- Whether a thread has arrived at an ordered atomic. -/
def Thread.atAtomic (t : Thread) : Bool :=
  t.arrival.any (fun a => match a.instr with | .atom _ _ _ _ _ _ | .atomt _ _ _ _ _ => true | _ => false)

/-- Whether a fixed set waits for an earlier cast (R349), as `stepWait` says for the first word that does: one of ordered atomics. -/
def State.setWait (s : State) (cid : Nat) (c : Cast) (fx : FixedSet) : Option Bool :=
  if (look c.threads (fx.parts.headD 0)).any Thread.atAtomic then (s.setWords cid fx).findSome? (fun w => stepWait s c w) else none

/-- Whether a combined step of a cast on one of some words waits in the operand log (R347, R418): the cast's later steps on the word
come after it. -/
def State.stepLogged (s : State) (cid p : Nat) (ws : List DWord) : Bool :=
  (s.plot p).oplog.any (fun h => h.cid == cid && h.set.isSome && (wordKey s h.va).any ws.contains)

/-- The combined step of R347, once every word's order allows it (R349). `.ok` answers the waits of R349 as a flag. -/
def atomRendezvous (s : State) (k : Ctx) (fx : FixedSet) : Except (Option Bool × CollStop) State :=
  let cid := k.r.c
  let ws := s.setWords cid fx
  match s.setWait cid k.c fx with
  | some b => .error (some b, .wait)
  | none =>
    if s.stepLogged cid k.c.plot ws then .error (none, .wait)
    else match fx.parts.foldlM (atomOne cid) s with
      | .error e => .error (none, e)
      | .ok s => .ok (s.onCast cid (fun c => ws.foldl Cast.addStep c))

/-- One participant of a combined step that waits in the operand log goes on: its atomic is an entry of number `g`, counted and with its
destination pending (R212, R418). -/
def logPart (cid g : Nat) (s : State) (i : Nat) : State :=
  match s.ctxAt ⟨cid, i⟩ with
  | none => s
  | some k =>
    match k.t.arrival with
    | none => s
    | some a =>
      match atomUpdate a.instr (a.vals.getD 2 0) (a.vals.getD 3 0) with
      | none => s
      | some (sc, d, u) =>
        holdEntry s k { k.entry s (a.vals.getD 1 0 ++ a.vals.getD 0 0) 4 sc (.atom d u) .atomic none false with
          ceil := a.ceil, set := some g }

/-- The combined step of a set whose access at `k'` meets a translation fault takes an entry of the operand log for each participant
(R418), where the log, the records and the counters have room; it is performed as one step at the replay (R347, R419). -/
def logSet (s : State) (k : Ctx) (fx : FixedSet) (k' : Ctx) (kind va : Nat) (a : DWord) : State :=
  let n := fx.parts.length
  if decide (64 < (s.plot k.c.plot).logged + n) || s.recFull || decide (63 < k.crew.count .ld + n) || decide (63 < k.crew.count .st + n)
  then s.markFixed k.r.c fx
  else
    let s := s.xlateOf k' kind va a .atomic
    let g := s.nextReq
    fx.parts.foldl (logPart k.r.c g) { s with nextReq := g + 1 }

/-! ### Performing a collective -/

/-- The operation of a fixed set (R36). The lowest participant's instruction says which; the first part of an error
marks a switch point (R344). -/
def performColl (s : State) (k : Ctx) (i : Instr) (fx : FixedSet) : Except (Bool × CollStop) State :=
  let cid := k.r.c
  let vote (res : Dst) (v : Word) : Except (Bool × CollStop) State := .ok (deliver s cid fx (fun _ => [(res, v)]) 0)
  let shfl (d : BitVec 6) (f : Nat → Word → Int) : Except (Bool × CollStop) State :=
    .ok (deliver s cid fx (fun i => [(.x d, shflVal s cid fx i (f (i % 32) (s.arrVal cid i 1)))]) 0)
  let lanes := fx.parts.map (· % 32)
  let vals := laneVals s cid k.crewN fx
  let plain (r : Except CollStop State) : Except (Bool × CollStop) State :=
    match r with
    | .ok s => .ok s
    | .error e => .error (false, e)
  match i with
  | .voteBal _ d _ => vote (.x d) (voteMask s cid fx)
  | .voteAny _ d _ => vote (.k d) (if voteMask s cid fx = 0 then 0 else 1)
  | .voteAll _ d _ => vote (.k d) (if fx.parts.all (fun i => s.arrVal cid i 0 != 0) then 1 else 0)
  | .shflIdx _ d _ _ => shfl d (fun _ b => (b.toNat % 32 : Nat))
  | .shflUp _ d _ _ => shfl d (fun l b => (l : Int) - b.toNat)
  | .shflDn _ d _ _ => shfl d (fun l b => (l : Int) + b.toNat)
  | .shflXor _ d _ _ => shfl d (fun l b => ((l ^^^ (b.toNat % 32) : Nat) : Int))
  | .cred _ d _ o =>
    let r := tree o.toNat fx.mode vals 5
    .ok (deliver s cid fx (fun _ => [(.x d, r.1.getD 0)]) r.2)
  | .cscan _ d _ o =>
    let l := scan o.toNat fx.mode none vals
    .ok (deliver s cid fx (fun i => [(.x d, ((l.getD (i % 32) (none, none, 0)).1).getD 0)]) (scanFlags false l lanes))
  | .cscanx _ d _ o =>
    let l := scan o.toNat fx.mode none vals
    .ok (deliver s cid fx (fun i => [(.x d, ((l.getD (i % 32) (none, none, 0)).2.1).getD (emptyVal o.toNat))])
      (scanFlags true l lanes))
  | .bpack _ d _ _ f => plain (bpack false f.toNat d s k fx)
  | .bpackFx _ d _ _ f => plain (bpack true f.toNat d s k fx)
  | .bunpk _ d _ f => .ok (bunpk f.toNat d s k fx)
  | .mxc _ _ _ _ =>
    match mxcAppend s k fx (s.arrVal cid k.r.t 1 ++ s.arrVal cid k.r.t 0) (s.arrVal cid k.r.t 2) (s.arrVal cid k.r.t 3) with
    | .ok s => .ok (deliverNow s cid fx (fun _ t => t))
    | .error e => .error (false, e)
  | .atom _ _ _ _ _ _ | .atomt _ _ _ _ _ =>
    match atomRendezvous s k fx with
    | .ok s => .ok s
    | .error (w, e) => .error (w == some true, e)
  | _ => .ok s

/-- An access of a fixed collective that does not go through: a fatal fault, a wait with the set fixed (R200), or for ordered atomics the
operand log (R418). -/
def collStop (s : State) (k : Ctx) (fx : FixedSet) (e : CollStop) : State :=
  match e with
  | .wait => s.markFixed k.r.c fx
  | .fault k' code cls info a acck => raiseWith s k' code cls info a acck
  | .stop k' (.fatal code cls info walk) a acck => raiseWith (s.walkedAt k'.c a) k' code cls info a (walkAcck walk acck)
  | .stop _ (.migrating _) _ _ => s.markFixed k.r.c fx
  | .stop k' (.xlate kind va) a acck =>
    if k.t.atAtomic then logSet s k fx k' kind va a
    else if s.logFull k.c.plot || s.recFull then s.markFixed k.r.c fx
    else ((s.xlateOf k' kind va a acck).hold k.c.plot (againEntry s k' va 4 .again acck)).markFixed k.r.c fx

/-- Whether an access of a fixed collective waits in the operand log. -/
def collHeld (s : State) (k : Ctx) (fx : FixedSet) : Bool :=
  (s.plot k.c.plot).oplog.any (fun h => h.cid == k.r.c && fx.parts.contains h.slot && h.kind == .again)

/-- The operation of a set that is fixed, at its lowest participant (R36). -/
def runFixed (s : State) (cid : Nat) (fx : FixedSet) : State :=
  match s.ctxAt ⟨cid, fx.parts.headD 0⟩ with
  | none => s
  | some low =>
    match low.t.arrival with
    | none => s
    | some a =>
      if collHeld s low fx then s
      else match performColl s low a.instr fx with
        | .ok s => s
        | .error (b, e) => let s := collStop s low fx e; if b then s.switch low else s

/-- The groups of a crew whose condition holds, each once, in increasing order of the lowest participant slot (R36). -/
def State.readyGroups (s : State) (cid crew : Nat) : List FixedSet :=
  (List.range 32).filterMap fun l =>
    (s.ctxAt ⟨cid, 32 * crew + l⟩).bind fun k =>
      k.t.arrival.bind fun a =>
        if a.fixed.isSome then none
        else (fixNow k).bind fun fx => if fx.parts.head? = some k.r.t then some fx else none

/-- Fixes the sets of a crew whose condition holds now, and performs their operations, lowest participant slot first (R36). In ORDERED
mode that comes at the end of the step, which is one cycle of the crew (R343). -/
def State.fixCrew (s : State) (cid crew : Nat) : State :=
  match look s.casts cid with
  | none => s
  | some c =>
    if s.midStep c then s
    else
      let gs := s.readyGroups cid crew
      gs.foldl (fun s fx => runFixed s cid fx) (gs.foldl (fun s fx => s.markFixed cid fx) s)

/-- Tries the collective of a thread that has arrived: with the others of its crew its set is fixed once the condition of R35 holds, and
the operation is performed then, or when what it waits for has come, which in ORDERED mode is in its crew's turn (R342, R343). -/
def tryColl (s : State) (r : TRef) : State :=
  match s.ctxAt r with
  | none => s
  | some k =>
    match k.t.arrival with
    | none => s
    | some a =>
      match a.fixed with
      | some fx => if descDet k.c.desc = 1 then s else runFixed s r.c fx
      | none => s.fixCrew r.c k.crewN

/-- PARTICIPANT_SET_FIXED (R36): the set of the thread's group is fixed and its operation performed. (Log 6, DESIGN CHOICE.) -/
def execParticipantSetFixed (c t : Nat) (s : State) : Out := .next (tryColl s ⟨c, t⟩)

/-! ### Arrival (R203) -/

/-- A collective: the thread's own checks, then BLOCKED with its operands, then the rendezvous (R203). -/
def arrive (ill q : Bool) (regs : List Dst) (vals : Thread → List Word) (i : Instr) (s : State) : Out :=
  prologue ill false q regs s fun k =>
    .next (tryColl (s.setThread k.r { k.t with st := .blocked (.collective { instr := i, vals := vals k.t, ceil := k.ceil s }) }) k.r)

/-- A predicate as an operand. -/
def kVal (t : Thread) (a : BitVec 3) : List Word := [if t.getK a then 1 else 0]

/-- VOTE.BAL (R206). -/
def execVoteBal (q : Bool) (d : BitVec 6) (a : BitVec 3) (s : State) : Out :=
  arrive false q [.k a, .x d] (fun t => kVal t a) (.voteBal q d a) s

/-- VOTE.ANY (R206). -/
def execVoteAny (q : Bool) (d a : BitVec 3) (s : State) : Out :=
  arrive false q [.k a, .k d] (fun t => kVal t a) (.voteAny q d a) s

/-- VOTE.ALL (R206). -/
def execVoteAll (q : Bool) (d a : BitVec 3) (s : State) : Out :=
  arrive false q [.k a, .k d] (fun t => kVal t a) (.voteAll q d a) s

/-- A shuffle's arrival. -/
def shflOp (q : Bool) (d a b : BitVec 6) (i : Instr) (s : State) : Out :=
  arrive false q [.x a, .x b, .x d] (fun t => [t.getX a, t.getX b]) i s

/-- SHFL.IDX (R206). -/
def execShflIdx (q : Bool) (d a b : BitVec 6) (s : State) : Out := shflOp q d a b (.shflIdx q d a b) s

/-- SHFL.UP (R206). -/
def execShflUp (q : Bool) (d a b : BitVec 6) (s : State) : Out := shflOp q d a b (.shflUp q d a b) s

/-- SHFL.DN (R206). -/
def execShflDn (q : Bool) (d a b : BitVec 6) (s : State) : Out := shflOp q d a b (.shflDn q d a b) s

/-- SHFL.XOR (R206). -/
def execShflXor (q : Bool) (d a b : BitVec 6) (s : State) : Out := shflOp q d a b (.shflXor q d a b) s

/-- A reduction's or a scan's arrival. -/
def credOp (q : Bool) (d a : BitVec 6) (i : Instr) (s : State) : Out :=
  arrive (!i.wf) q [.x a, .x d] (fun t => [t.getX a]) i s

/-- CRED (R208). -/
def execCred (q : Bool) (d a : BitVec 6) (o : BitVec 4) (s : State) : Out := credOp q d a (.cred q d a o) s

/-- CSCAN (R208). -/
def execCscan (q : Bool) (d a : BitVec 6) (o : BitVec 4) (s : State) : Out := credOp q d a (.cscan q d a o) s

/-- CSCANX (R208). -/
def execCscanx (q : Bool) (d a : BitVec 6) (o : BitVec 4) (s : State) : Out := credOp q d a (.cscanx q d a o) s

/-- BPACK's arrival, AUTO or FIXED. -/
def bpackOp (q : Bool) (d a : BitVec 6) (b : BitVec 5) (i : Instr) (s : State) : Out :=
  arrive (!i.wf) q ([.x a, .x d] ++ pairDst b) (fun t => [t.getX a, t.getX (pairLo b), t.getX (pairHi b)]) i s

/-- BPACK (R198). -/
def execBpack (q : Bool) (d a : BitVec 6) (b : BitVec 5) (f : BitVec 2) (s : State) : Out := bpackOp q d a b (.bpack q d a b f) s

/-- BPACK.FX (R198). -/
def execBpackFx (q : Bool) (d a : BitVec 6) (b : BitVec 5) (f : BitVec 2) (s : State) : Out :=
  bpackOp q d a b (.bpackFx q d a b f) s

/-- BUNPK (R198). -/
def execBunpk (q : Bool) (d a : BitVec 6) (f : BitVec 2) (s : State) : Out :=
  arrive (!(Instr.bunpk q d a f).wf) q [.x a, .x d] (fun t => [t.getX a]) (.bunpk q d a f) s

/-- MXC (R267). -/
def execMxc (q : Bool) (d : BitVec 5) (a b : BitVec 6) (s : State) : Out :=
  arrive false q (pairDst d ++ [.x a, .x b])
    (fun t => [t.getX (pairLo d), t.getX (pairHi d), t.getX a, t.getX b]) (.mxc q d a b) s

/-! ### ATOM and ATOMT (R231 to R234, R347, R348) -/

/-- A deferred atomic: its release, then the record (R232, R348). -/
def atomDefer (s : State) (k : Ctx) (sp : Space) (a : DWord) (sc : BitVec 3) (o : Nat) (v : Word) : Out :=
  let e := effScope (k.ceil s) sp sc.toNat
  let p := k.c.plot
  let cl := clamped (k.ceil s) sp sc.toNat
  let s := if e = 1 then (s.promoBegin p).promoEnd p else s.release p e
  let s := (s.defer k a sc o v).countClamp k.r.c k.crewN cl
  let (_, s) := s.count k .st true
  .next (retire s k k.t (k.after 4) false)

/-- ATOM and ATOMT: the checks, then the rendezvous of the deterministic modes, a deferred update, or the update. -/
def atomOp (ill q : Bool) (p : BitVec 5) (sc : BitVec 3) (d : BitVec 6) (srcs : List (BitVec 6)) (ordered : Bool)
    (deferred : Option Nat) (i : Instr) (s : State) : Out :=
  prologue ill false q (pairDst p ++ srcs.map Dst.x ++ [.x d]) s fun k =>
    let a := k.t.getA p
    let x := k.t.getX (srcs.getD 0 0)
    let y := k.t.getX (srcs.getD 1 0)
    match checkAcc s k.c .atom a 4 sc.toNat with
    | .error c => .next (raiseWith s k c 0 0 a .atomic)
    | .ok sp =>
      if descDet k.c.desc ≠ 0 ∧ ordered then
        .next (tryColl (s.setThread k.r { k.t with
          st := .blocked (.collective { instr := i, vals := [a.setWidth 32, (a >>> 32).setWidth 32, x, y], ceil := k.ceil s }) }) k.r)
      else match atomUpdate i x y with
        | none => .next s
        | some (_, _, u) =>
          match (if descDet k.c.desc ≠ 0 then deferred else none) with
          | some o =>
            match accWait s k (.atom d u) with
            | some w => block s k w
            | none => atomDefer s k sp a sc o x
          | none =>
            issueAcc s k sp a 4 .write (viewOf (effScope (k.ceil s) sp sc.toNat)) sc (.atom d u) .atomic fun s l z =>
              .next (atomPerform s k (k.ceil s) sp l z sc d u)

/-- ATOM (R231). -/
def execAtom (q : Bool) (d : BitVec 6) (p : BitVec 5) (b : BitVec 6) (sx : BitVec 3) (o : BitVec 4) (s : State) : Out :=
  atomOp (!(Instr.atom q d p b sx o).wf) q p sx d (if o = 10 then [b, b + 1] else [b]) (d != 0 || o == 9 || o == 10)
    (if fpUpdate o.toNat then some o.toNat else none) (.atom q d p b sx o) s

/-- ATOMT (R234). -/
def execAtomt (q : Bool) (d : BitVec 6) (p : BitVec 5) (b : BitVec 5) (sx : BitVec 3) (s : State) : Out :=
  atomOp (!(Instr.atomt q d p b sx).wf) q p sx d [pairLo b, pairHi b] (d != 0) none (.atomt q d p b sx) s

end Sys2Proof.Machine
end

