-- ==== Sys2Proof/Machine/Control.lean ====
section
/-!
DEFINITION. Control flow (spec/05 R162 to R181, R19 to R28): branches, jumps, calls with their budget check, BECOME
with placement and deferral, MEET, YIELD, hardware loops, NOP, TRAP and BRK.
-/

namespace Sys2Proof.Machine

open Sys2Proof

/-- BR (R162): a displacement counts from the branch; `BR ~k0` never branches. -/
def execBr (q : Bool) (p : BitVec 3) (n : Bool) (o : BitVec 20) (s : State) : Out :=
  prologue false false q [.k p] s fun k =>
    let go := k.t.getK p != n
    .next (retire s k k.t (if go then k.t.pc + disp o else k.after 4) go)

/-- JMP (R163). -/
def execJmp (q : Bool) (o : BitVec 24) (s : State) : Out :=
  prologue false false q [] s fun k => .next (retire s k k.t (k.t.pc + disp o) true)

/-- CALL (R164): a31 receives the address after it; no budget check. -/
def execCall (q : Bool) (o : BitVec 24) (s : State) : Out :=
  prologue false false q (pairDst 31) s fun k =>
    .next (retire s k (k.t.setA 31 (k.after 4)) (k.t.pc + disp o) true)

/-- A jump to the address in a pair (R166, R167): a target with bit 0 set raises ALIGN; any other is transferred to,
and PATH, where it applies, is raised at the target (R60). -/
def jumpTo (q : Bool) (a : BitVec 5) (s : State) : Out :=
  prologue false false q (pairDst a) s fun k =>
    if (k.t.getA a).getLsbD 0 then raise s k .align else .next (retire s k k.t (k.t.getA a) true)

/-- JR (R166). -/
def execJr (q : Bool) (a : BitVec 5) (s : State) : Out := jumpTo q a s

/-- RET (R166): JR a31. -/
def execRet (q : Bool) (s : State) : Out := jumpTo q 31 s

/-- Whether a budget header lets a crew with a budget call the function (R168, R170). -/
def headerOk (h budget : Nat) : Bool :=
  h % 256 == 1 && h / 2 ^ 15 % 2 == 0 && h / 2 ^ 16 == 0x4244 && h / 256 % 128 != 0 &&
    decide (h / 256 % 128 ≤ 64) && decide (h / 256 % 128 ≤ budget)

/-- CALLR (R167, R170): ALIGN first, then a target off the GLOBAL, local path without the check, then the header. -/
def execCallr (q : Bool) (a : BitVec 5) (s : State) : Out :=
  prologue false false q (pairDst a ++ pairDst 31) s fun k =>
    let t := k.t.getA a
    let go (s : State) : Out := .next (retire s k (k.t.setA 31 (k.after 4)) t true)
    if t.getLsbD 0 then raise s k .align
    else if (globalVa t).isNone then go s
    else match fetchWord s k.c (t - 4) with
      | .error e => fetchStop s k e (t - 4)
      | .ok (s, h) => if headerOk h (descBudget k.c.desc) then go s else raise s k .budget

/-! ### BECOME (R20 to R28) -/

/-- The slots free for placement: none while the seedbed holds a record (R24). -/
def Cast.freeSlots (c : Cast) : List Nat :=
  if c.seeds.isEmpty then (List.range (descSlots c.desc)).filter (fun i => (look c.threads i).isNone) else []

/-- The slot of the next copy (R23): ORDERED takes the lowest; the other modes prefer the parent's crew and choose.
(Log 59, DESIGN CHOICE.) -/
def pickSlot (ordered : Bool) (crew : Nat) (free : List Nat) (s : State) : Option Nat × State :=
  match free with
  | [] => (none, s)
  | f :: _ =>
    if ordered then (some f, s)
    else
      let own := free.filter (fun i => i / 32 == crew)
      let l := if own.isEmpty then free else own
      let (n, s) := s.choose
      (l[n % l.length]?, s)

/-- A copy of a BECOME's snapshot with ordinal `o` (R20, R26, R27). -/
def copyOf (t : Thread) (d : BitVec 6) (lvl o : Nat) : Thread :=
  { (t.setX d (BitVec.ofNat 32 o)) with
    key := keySet t.key lvl o, dep := BitVec.ofNat 4 (lvl + 1), retired := 0, retLatch := 0, st := .ready, pend := []
    flights := [], timer := 0, pass := false, met := [] }

/-- Places the copies with ordinals from `o` on in the free slots, `m` of them at most (R23). -/
def placeCopies (ordered : Bool) (crew : Nat) (t : Thread) (d : BitVec 6) (lvl : Nat) (c : Cast) (s : State)
    (free : List Nat) (o : Nat) : Nat → Cast × State
  | 0 => (c, s)
  | m + 1 =>
    match pickSlot ordered crew free s with
    | (none, s) => (c, s)
    | (some i, s) =>
      placeCopies ordered crew t d lvl (c.setThread i (copyOf t d lvl o)) s (free.filter (fun j => j != i)) (o + 1) m

/-- The registers of a record, as the number they form in memory. -/
def xregN (x : Vector Word 64) : Nat := packN ((0, 4) :: (x.toList.drop 1).map (fun v => (v.toNat, 4)))

/-- The four words of a key in their order in memory (R17, R25). -/
def keyWords (k : BitVec 128) : List (Nat × Nat) :=
  [(bitsN k 96 32, 4), (bitsN k 64 32, 4), (bitsN k 32 32, 4), (bitsN k 0 32, 4)]

/-- A seedbed record's 384 bytes (R25). -/
def SeedRec.image (r : SeedRec) : Nat :=
  let kbits := ((List.range 7).map (fun i => if (r.k.toList.getD (i + 1) false) then 2 ^ (i + 1) else 0)).sum + 1
  xregN r.x + 2 ^ 2048 * packN
    (r.e.toList.map (fun v => (v.toNat, 8)) ++ keyWords r.key ++ [(r.pc.toNat, 8)] ++
      r.lc.toList.map (fun v => (v.toNat, 4)) ++
      [(r.meet.toNat, 4), (r.cmask.toNat, 4), (kbits, 1), (r.depth, 1), (r.dreg.toNat, 1), (r.kind, 1), (r.olo, 2), (r.ohi, 2),
        (r.ret.toNat, 8)])

/-- The address of a seedbed record (R25). -/
def Cast.seedVa (c : Cast) (pos : Nat) : Nat := (byteN c.desc 40 8 + 384 * pos) % 2 ^ 48

/-- Writes a seedbed record to memory, in three lines (R25, R466). -/
def State.writeSeed (s : State) (c : Cast) (r : SeedRec) : Except (Stop × Nat) State :=
  s.putVirts c.plot c.al (c.seedVa r.pos) 128 r.image 3

/-- A free position of the seedbed, of the device's choosing (R25). (Log 59, DESIGN CHOICE.) -/
def State.seedPos (s : State) (c : Cast) : Option Nat × State :=
  let free := (List.range (byteN c.desc 28 2)).filter (fun i => !c.seeds.any (fun r => r.pos == i))
  if free.isEmpty then (none, s)
  else
    let (n, s) := s.choose
    (free[n % free.length]?, s)

/-- The record of a BECOME's deferred ordinals: the snapshot, with the parent's key and depth before the fork (R25). -/
def deferral (t : Thread) (d : BitVec 6) (pos lo hi : Nat) : SeedRec :=
  { pos := pos, x := t.x, e := t.e, key := t.key, pc := t.pc, lc := t.lc, ll := t.ll, meet := t.meet
    cmask := t.cmask, k := t.k, depth := t.dep.toNat, dreg := d, kind := 1, olo := lo, ohi := hi, ret := 0, latch := 0, pend := []
    own := t.own }

/-- The lowest key and the depth of a seedbed record's deferred threads (R26). -/
def SeedRec.low (r : SeedRec) : BitVec 128 × Nat := (keySet r.key r.depth r.olo, r.depth + 1)

/-- Whether a live or a deferred thread of the cast has a key below a key (R30). -/
def Cast.lowerLives (c : Cast) (key : BitVec 128) (dep : Nat) : Bool :=
  c.threads.any (fun (_, t) => keyLt t.key t.dep.toNat key dep) || c.seeds.any (fun r => keyLt r.low.1 r.low.2 key dep)

/-- Whether a thread is stalled at an EMIT whose record has come to be the lowest of the cast (R30). -/
def Cast.emitFirst (c : Cast) (t : Thread) : Bool :=
  t.st == .blocked .emit && !c.lowerLives t.key t.dep.toNat &&
    !c.ebuf.any (fun r => keyLt r.key r.dep.toNat t.key t.dep.toNat)

/-- A thread stalled at an EMIT whose record has come to be the lowest of the cast tries again: the record commits and needs no
entry (R30). -/
def Cast.retryEmit (c : Cast) : Cast :=
  if c.threads.any (fun (_, t) => c.emitFirst t) then
    { c with
      displaced := none
      threads := c.threads.map (fun (i, t) => (i, if c.emitFirst t then { t with st := .ready, timer := 0 } else t)) }
  else c

/-! Results that nothing waits for (R50, R130, R150) -/

/-- The flags of a collective are set for its crew with the first return (R204): the other participants' results carry none then. -/
def Cast.flagged (c : Cast) (n : Option Nat) : Cast :=
  if n.isNone then c
  else { c with threads := c.threads.map (fun (i, t) =>
    (i, { t with flights := t.flights.map (fun f => if f.grp = n then { f with flags := 0 } else f) })) }

/-- One result of a thread that leaves its slot is dropped: the ones in flight then go to x0 or k0 alone, set their flags, and end the
operations that they complete, but for the accesses that are still to be performed (R108, R130, R212). -/
def State.dropFlight (k : Ctx) (s : State) (f : Flight) : State :=
  let s := (s.flag k f.flags).onCast k.r.c (fun c => c.flagged f.grp)
  match f.op with
  | some id => if f.src == .held then s else s.opDone k.r.c k.crewN id
  | none => s

/-- Ends the context's thread (R20 n = 0): its slot frees, its stores still complete, and a lowest stalled record can go on. -/
def endThread (s : State) (k : Ctx) : State :=
  (((k.t.flights.foldl (State.dropFlight k) s).onCast k.r.c (fun c => Cast.retryEmit { c with threads := del c.threads k.r.t })).countRetired k).switch k

/-! The rejoin condition of MEET (R48) -/

/-- Whether a thread is where the rejoin condition of a MEET value counts it as arrived or blocked (R48). -/
def Thread.meets (t : Thread) (meet : Word) : Bool :=
  t.pc.setWidth 32 == meet ||
    (match t.st with
      | .blocked (.waita _) => true
      | .blocked (.barrier _ _ _ _) => true
      | _ => false)

/-- Whether the rejoin condition of a HELD thread in a slot holds (R48): every other thread with its MEET value is, or has since been,
where it counts. -/
def Cast.rejoin (c : Cast) (i : Nat) (t : Thread) : Bool :=
  c.threads.all (fun (j, u) => j == i || u.meet != t.meet || u.meets t.meet || t.met.contains (u.key, u.dep))

/-- A HELD thread whose rejoin condition holds has been joined: what later threads do does not hold it again (R48). -/
def Cast.latchMeet (c : Cast) : Cast :=
  if c.threads.any (fun (i, t) => t.st == .held && !t.pass && c.rejoin i t) then
    { c with threads := c.threads.map (fun (i, t) => (i, if t.st == .held && c.rejoin i t then { t with pass := true } else t)) }
  else c

/-- A thread that BECOME gives a new key keeps its place among those that HELD threads have met (R17, R48). -/
def Thread.metAs (old new : BitVec 128 × BitVec 4) (t : Thread) : Thread :=
  if t.met.contains old then { t with met := t.met.map (fun e => if e = old then new else e) } else t

/-- A BECOME of n ≥ 2 copies (R20 to R25): the record of deferred ordinals is written before any copy is placed. -/
def fork (s : State) (k : Ctx) (d : BitVec 6) (n : Nat) : Out :=
  let lvl := k.t.dep.toNat
  let (lc, pc) := settle k.t k.t.pc (k.after 4) false
  let snap := { k.t with pc := pc, lc := lc }
  let f := min k.c.freeSlots.length (n - 1)
  let placed (s : State) (c : Cast) (defers : Bool) : Out :=
    let (c, s) := placeCopies (decide (descDet c.desc = 1)) k.crewN snap d lvl c s k.c.freeSlots 1 f
    let me := { (k.t.setX d 0) with key := keySet k.t.key lvl 0, dep := BitVec.ofNat 4 (lvl + 1) }
    let s := s.setCast k.r.c { c with threads := c.threads.map (fun (i, t) => (i, t.metAs (k.t.key, k.t.dep) (me.key, me.dep))) }
    let s := retire s k me (k.after 4) false
    .next (if defers then s.switch k else s)
  if f = n - 1 then placed s k.c false
  else match s.seedPos k.c with
    | (none, s) => raise s k .seedfull
    | (some pos, s) =>
      let r := deferral snap d pos (f + 1) (n - 1)
      match s.writeSeed k.c r with
      | .error (e, a) => accStop s k e (BitVec.ofNat 64 a) .seedbed 128
      | .ok s => placed s { k.c with seeds := k.c.seeds ++ [r] } true

/-- BECOME (R20): it waits as a cue point does whether or not Q is set. One that makes copies also waits until the thread's
accesses are performed, which stand before every event of every copy (R53, R278). -/
def execBecome (q : Bool) (d a : BitVec 6) (s : State) : Out :=
  prologue false false (q || true) [] s fun k =>
    let n := (k.t.getX a).toNat
    if 65535 < n then raise s k .bcnt
    else if 2 ≤ n ∧ k.t.dep.toNat = 8 then raise s k .bdepth
    else if n = 0 then .next (endThread s k)
    else if n = 1 then .next (retire s k (k.t.setX d 0) (k.after 4) false)
    else if k.holds s || !k.t.cellReads.isEmpty then block s k .order
    else fork s k d n

/-! ### MEET, YIELD, LOOP, SYS -/

/-- MEET (R173): it sets only the register. -/
def execMeet (q : Bool) (o : BitVec 24) (s : State) : Out :=
  threadOp 4 q [] [] (fun t => { t with meet := (t.pc + disp o).setWidth 32 }) s

/-- YIELD (R174): a switch point in ORDERED mode; else the cast goes to the end of its plot's round-robin turn. -/
def execYield (q : Bool) (s : State) : Out :=
  prologue false false q [] s fun k =>
    let s := retire s k k.t (k.after 4) false
    .next (if descDet k.c.desc = 1 then s.switch k
      else s.onPlot k.c.plot (fun p => { p with rr := p.rr.filter (fun c => c != k.r.c) ++ p.rr.filter (fun c => c == k.r.c) }))

/-- LOOP (R175, R177): ILL where head and body lie in different 64 KiB blocks, BCNT for a count above 65,535. (Log 12, DEDUCED.) -/
def execLoop (q : Bool) (n : BitVec 2) (a : BitVec 6) (l : BitVec 12) (s : State) : Out :=
  prologue (!(Instr.loop q n a l).wf) false q [.x a] s fun k =>
    let e := k.t.pc + 4 + BitVec.ofNat 64 (2 * l.toNat)
    let c := k.t.getX a
    if k.t.pc.toNat / 65536 ≠ (e - 2).toNat / 65536 then raise s k .ill
    else if 65535 < c.toNat then raise s k .bcnt
    else if c = 0 then .next (retire s k { k.t with lc := k.t.lc.setIfInBounds n.toNat 0 } e false)
    else
      let v := 0x80000000#32 ||| BitVec.ofNat 32 (k.t.pc.toNat / 2 % 2 ^ 15 * 2 ^ 16) ||| c
      .next (retire s k { k.t with lc := k.t.lc.setIfInBounds n.toNat v, ll := k.t.ll.setIfInBounds n.toNat l } (k.after 4) false)

/-- NOP (R180). -/
def execNop (q : Bool) (s : State) : Out := threadOp 4 q [] [] id s

/-- Whether TRAP and BRK of a cast resume (R385). -/
def State.trapResumes (s : State) (c : Cast) : Bool := (look s.scenes c.scene).any Scene.trapr

/-- TRAP and BRK (R181, R385, R415): fatal with class 0, or with TRAPR a record of class 3 and the next instruction.
(Log 8, DEDUCED.) One that resumes completes as any instruction: R178 settles its next PC, and RETIRED and CLK count it (log 76,
DESIGN CHOICE). Either way it waits until the thread's earlier accesses are performed (R52, R181). -/
def sysFault (code : FCode) (q : Bool) (c : BitVec 18) (s : State) : Out :=
  prologue false false q [] s fun k =>
    if s.trapResumes k.c then
      if s.recFull then block s k .issue else if k.holds s then block s k .order else
      .next (retire (s.record (threadRec s k.c k.r.t (some k.t) code 3 c.toNat 0 .none)) k k.t (k.after 4) false)
    else raiseInfo s k code c.toNat

/-- TRAP (R181). -/
def execTrap (q : Bool) (c : BitVec 18) (s : State) : Out := sysFault .trap q c s

/-- BRK (R181). -/
def execBrk (q : Bool) (c : BitVec 18) (s : State) : Out := sysFault .brk q c s

/-- ILL (R131): raises ILL whatever bits [31:8] and Q hold. -/
def execIll (q : Bool) (_u : BitVec 24) (s : State) : Out :=
  prologue true false q [] s fun k => raise s k .ill

end Sys2Proof.Machine
end

