-- ==== Sys2Proof/Machine/Special.lean ====
section
/-!
DEFINITION. The special-register moves MFS and MTS (spec/04 R135 to R140, spec/05 R182 to R184).
-/

namespace Sys2Proof.Machine

open Sys2Proof

/-- A crew's counter as CNTS shows it (R137). -/
def Crew.cnts (w : Crew) : Word :=
  BitVec.ofNat 32 (w.count .ld % 64 + w.count .st % 64 * 2 ^ 6 + w.count .cp % 64 * 2 ^ 12 + w.count .mx % 64 * 2 ^ 18)

/-- CLK (R138): the island's cycle counter, the cast's retired count, or the thread's retired count. -/
def clkOf (s : State) (k : Ctx) : DWord :=
  match descDet k.c.desc with
  | 0 => s.coreClk k.c.plot
  | 1 => k.c.clk
  | _ => k.t.retired

/-- The value of a special register of 32 bits or fewer, as the context's thread reads it (R135). -/
def readSpecial (s : State) (k : Ctx) (n : Nat) : Word :=
  let d := k.c.desc
  let w := k.crew
  match n with
  | 0x000 => BitVec.ofNat 32 k.lane
  | 0x001 => BitVec.ofNat 32 k.crewN
  | 0x002 => BitVec.ofNat 32 (k.c.ix % byteN d 16 2)
  | 0x003 => BitVec.ofNat 32 (k.c.ix / byteN d 16 2 % byteN d 18 2)
  | 0x004 => BitVec.ofNat 32 (k.c.ix / byteN d 16 2 / byteN d 18 2)
  | 0x005 => BitVec.ofNat 32 (byteN d 16 2)
  | 0x006 => BitVec.ofNat 32 (byteN d 18 2)
  | 0x007 => BitVec.ofNat 32 (byteN d 20 2)
  | 0x008 => BitVec.ofNat 32 (keyLevel k.t.key (k.t.dep.toNat - 1))
  | 0x009 => k.t.dep.setWidth 32
  | 0x00A => BitVec.ofNat 32 (bitsN k.t.key 96 32)
  | 0x00B => BitVec.ofNat 32 (bitsN k.t.key 64 32)
  | 0x00C => BitVec.ofNat 32 (bitsN k.t.key 32 32)
  | 0x00D => BitVec.ofNat 32 (bitsN k.t.key 0 32)
  | 0x00E => k.t.meet
  | 0x00F => k.t.cmask
  | 0x010 => w.mode
  | 0x011 => w.flags
  | 0x012 => w.cnts
  | 0x014 => k.t.lc[0]
  | 0x015 => k.t.lc[1]
  | 0x016 => k.t.lc[2]
  | 0x018 => (clkOf s k).setWidth 32
  | 0x019 => k.t.retired.setWidth 32
  | 0x01A => k.t.retLatch
  | 0x01C => w.outl
  | 0x01D => w.outlh
  | 0x020 => w.key0
  | 0x021 => w.key1
  | 0x024 => (s.plot k.c.plot).mxseq
  | 0x025 => BitVec.ofNat 32 (s.relPlot k.c.al k.c.plot)
  | 0x026 => BitVec.ofNat 32 (descSlots d)
  | 0x027 => BitVec.ofNat 32 (descDet d)
  | 0x028 => BitVec.ofNat 32 (32768 * descScnt d)
  | 0x029 => (s.plot k.c.plot).proms
  | 0x041 => BitVec.ofNat 32 k.c.committed
  | _ => 0

/-- Whether a special-register number is privileged (R132). -/
def sregPriv (sx : BitVec 12) : Bool := decide (0x800 ≤ sx.toNat)

/-- Whether a read of CNTS waits: in ORDERED mode until the crew's loads and stores have retired, whose retirements come about beside the
steps, so that every run reads the same counts (R356). (Log 15, DEDUCED.) -/
def cntsWait (k : Ctx) (n : Nat) : Bool :=
  n == 0x012 && descDet k.c.desc == 1 && (k.crew.count .ld != 0 || k.crew.count .st != 0)

/-- MFS (R182): OUTBASE fills a pair (R136); RETIRED latches its high word (R139). -/
def execMfs (q : Bool) (d : BitVec 6) (sx : BitVec 12) (s : State) : Out :=
  prologue (!sregPriv sx && !(Instr.mfs q d sx).wf) (sregPriv sx) q
      (if sx = 0x040 then [.x d, .x (d + 1)] else [.x d]) s fun k =>
    if cntsWait k sx.toNat then block s k .issue
    else
      let t :=
        if sx = 0x040 then k.t.setPair d k.c.outVa
        else if sx = 0x019 then
          { k.t.setX d (readSpecial s k sx.toNat) with retLatch := (k.t.retired >>> 32).setWidth 32 }
        else k.t.setX d (readSpecial s k sx.toNat)
      .next (retire s k t (k.after 4) false)

/-- A crew with a special register written (R104, R107, R140): reserved bits ignore the write. -/
def Crew.setSpecial (w : Crew) (n : Nat) (v : Word) : Crew :=
  match n with
  | 0x010 => { w with mode := v &&& modeMask }
  | 0x011 => { w with flags := v &&& flagsMask }
  | 0x01C => { w with outl := v }
  | 0x01D => { w with outlh := v }
  | 0x020 => { w with key0 := v }
  | 0x021 => { w with key1 := v }
  | _ => w

/-- A loop counter with COUNT written; HEAD and ACT ignore the write (R184). -/
def lcWrite (l v : Word) : Word := (l &&& 0xFFFF0000) ||| (v &&& 0x0000FFFF)

/-- A thread with a special register written (R183). -/
def Thread.setSpecial (t : Thread) (n : Nat) (v : Word) : Thread :=
  match n with
  | 0x00E => { t with meet := v }
  | 0x00F => { t with cmask := v }
  | 0x014 => { t with lc := t.lc.set 0 (lcWrite t.lc[0] v) }
  | 0x015 => { t with lc := t.lc.set 1 (lcWrite t.lc[1] v) }
  | 0x016 => { t with lc := t.lc.set 2 (lcWrite t.lc[2] v) }
  | _ => t

/-- MTS (R183): the write stands before R178 settles the next PC (log 21, DEDUCED). -/
def execMts (q : Bool) (a : BitVec 6) (sx : BitVec 12) (s : State) : Out :=
  prologue (!sregPriv sx && !(Instr.mts q a sx).wf) (sregPriv sx) q [.x a] s fun k =>
    let v := k.t.getX a
    .next ((retire s k (k.t.setSpecial sx.toNat v) (k.after 4) false).onCast k.r.c
      (fun c => c.onCrew k.crewN (fun w => w.setSpecial sx.toNat v)))

end Sys2Proof.Machine
end

