-- ==== Sys2Proof/Machine/Emit.lean ====
section
/-!
DEFINITION. EMIT, the commit order, displacement and the release of deferred threads (spec/01 R25 to R33, spec/07 R245,
R246, spec/18 R466).
-/

namespace Sys2Proof.Machine

open Sys2Proof

/-! ### Order (R18, R26, R29, R30) -/

/-- The sort order of records (R29). -/
def EmitRec.lt (a b : EmitRec) : Bool :=
  keyLt a.key a.dep.toNat b.key b.dep.toNat || (a.key == b.key && a.dep == b.dep && decide (a.ord < b.ord))

/-- The buffered record with the lowest sort key. -/
def lowestRec (l : List EmitRec) : Option EmitRec :=
  l.foldl (fun b r => match b with
    | none => some r
    | some x => if r.lt x then some r else some x) none

/-- Output capacity in records (R33). -/
def descOutcap (d : BitVec 1024) : Nat := byteN d 56 4

/-- Whether committing for the cast waits for a held commit write (R466). -/
def State.commitHeld (s : State) (cid : Nat) (c : Cast) : Bool :=
  (s.plot c.plot).oplog.any (fun h => h.cid == cid && h.kind == .commit)

/-- Whether a record commits now (R30). -/
def committable (s : State) (cid : Nat) (c : Cast) (r : EmitRec) : Bool :=
  !c.lowerLives r.key r.dep.toNat && !c.ebuf.any (fun x => x.lt r) && !s.commitHeld cid c

/-- Entries of the plot's emit buffer in use (R30). -/
def State.emitUsed (s : State) (p : Nat) : Nat :=
  (s.casts.map (fun (_, c) => if c.plot = p then (c.ebuf.filter (fun r => !r.direct)).length else 0)).sum

/-! ### Commit (R32, R246, R351, R466) -/

/-- The address of a cast's next committed record (R32). -/
def Cast.nextRec (c : Cast) : DWord := c.outVa + BitVec.ofNat 64 (8 + 8 * c.committed)

/-- A commit write: through GLOBAL, local at plot scope (R246). (Log 14, DEDUCED.) -/
def State.commitWrite (s : State) (c : Cast) (a : DWord) (v : Nat) : Except Stop State :=
  match access s c.plot c.al (bitsN a 0 48) .write .plot with
  | .error e => .error e
  | .ok (s, pa, _) => .ok (s.putHome c.plot .plot pa 8 v)

/-- The value of a record (R29). -/
def EmitRec.value (r : EmitRec) : Nat := r.w0.toNat + 2 ^ 32 * r.w1.toNat

/-- Commits one record: the record, then the COUNT that includes it (R32), and its fold (R351). COUNT is written with a committed record
only: the spec names no write of a COUNT of 0, at placement or for a cast that commits nothing (log 80, DESIGN CHOICE). -/
def State.commit (s : State) (cid : Nat) (c : Cast) (r : EmitRec) : Except (Stop × DWord) State :=
  match s.commitWrite c c.nextRec r.value with
  | .error e => .error (e, c.nextRec)
  | .ok s =>
    match s.commitWrite c c.outVa (c.committed + 1) with
    | .error e => .error (e, c.outVa)
    | .ok s =>
      .ok (s.onCast cid (fun k =>
        { k with
          committed := k.committed + 1
          digest := if descFolds k.desc then k.digest + crc64 (foldMsg c.nextRec 8 r.value) else k.digest }))

/-- The record of a fault of a commit write: the thread that emitted the record, if it still lives (R466). -/
def commitRec (s : State) (c : Cast) (r : EmitRec) (code : FCode) (cls info : Nat) (a : DWord) : FaultRec :=
  let live := (look c.threads r.slot).any (fun t => t.key == r.key && t.dep == r.dep)
  agentRec s c (if live then r.slot else 0xFFFF) r.key r.dep r.pc code cls info a .commit

/-- What a commit write that does not go through does (R246, R466); the committer waits while its record cannot be held (R420). -/
def State.commitStop (s : State) (cid : Nat) (c : Cast) (r : EmitRec) (e : Stop) (a : DWord) : State :=
  match e with
  | .fatal code cls info walk =>
    if s.recFull then s
    else (s.walkedAt c a).fatal cid { commitRec s c r code cls info a with acck := walkAcck walk .commit }
  | .migrating _ => s
  | .xlate kind va =>
    if s.logFull c.plot || s.recFull then s
    else
      (s.resolvable (commitRec s c r .xlate 2 kind a) c.al c.plot (va / 65536) cid).hold c.plot
        { id := 0, cid := cid, slot := r.slot, key := r.key, dep := r.dep, pc := r.pc, va := a, size := 8, scope := 1
          ceil := acbCeil (s.acb c.al), kind := .commit, acck := .commit, op := none, late := false }

/-- RECORD_COMMIT (R30): the cast's lowest buffered record commits once no lower key is left; in ORDERED mode that comes between steps
(R343, R356). -/
def execRecordCommit (c : Nat) (s : State) : Out :=
  .next (match look s.casts c with
    | none => s
    | some k =>
      match lowestRec k.ebuf with
      | none => s
      | some r =>
        if committable s c k r && !s.midStep k then
          let (n, s) := s.readsBad k
          if n = 1 then s.commitStop c k r (.fatal .memerr 1 0 false) 0
          else match s.commit c k r with
          | .ok s => (s.onCast c (fun k => { k with ebuf := k.ebuf.erase r })).retry k.plot Wait.emitRoom
          | .error (e, a) => s.commitStop c k r e a
        else s)

/-! ### EMIT (R245) -/

/-- A stall at the EMIT (R30): a switch point (R344). -/
def emitStall (s : State) (k : Ctx) : Out := .next ((s.setThread k.r { k.t with st := .blocked .emit }).switch k)

/-- A record is accepted, to commit later (R30). -/
def emitAccept (s : State) (k : Ctx) (r : EmitRec) : Out :=
  .next (retire (s.onCast k.r.c (fun c => { c with accepted := c.accepted + 1, ebuf := c.ebuf ++ [r] })) k k.t (k.after 4) false)

/-- A record that waits in the emit buffer (R30). -/
def emitBuffer (s : State) (k : Ctx) (r : EmitRec) : Out :=
  if 256 ≤ s.emitUsed k.c.plot then emitStall s k else emitAccept s k r

/-- A committable record whose commit write does not go through takes no entry of the emit buffer either (R30): a write that meets a
translation fault waits in the operand log (R466), and the thread goes on; one whose page is under migration (R414), or that has no room
there (R418, R420), waits at the EMIT. -/
def emitDirect (s : State) (k : Ctx) (r : EmitRec) (e : Stop) (a : DWord) : Out :=
  match e with
  | .fatal code cls info walk => if s.recFull then block s k .issue else .next (s.commitStop k.r.c k.c r (.fatal code cls info walk) a)
  | .migrating _ => block s k .issue
  | .xlate kind va =>
    if s.logFull k.c.plot || s.recFull then block s k .issue
    else emitAccept (s.commitStop k.r.c k.c r (.xlate kind va) a) k { r with direct := true }

/-- EMIT (R245, R30, R33): EMITFULL, then a direct commit, a buffer entry, or a stall. -/
def execEmit (q : Bool) (a b : BitVec 6) (s : State) : Out :=
  prologue false false q [.x a, .x b] s fun k =>
    let r : EmitRec :=
      { key := k.t.key, dep := k.t.dep, ord := k.t.retired.toNat, w0 := k.t.getX a, w1 := k.t.getX b, slot := k.r.t, pc := k.t.pc }
    if descOutcap k.c.desc ≤ k.c.accepted then raise s k .emitfull
    else if committable s k.r.c k.c r then
      match s.commit k.r.c k.c r with
      | .ok s =>
        let s := s.onCast k.r.c (fun c => { c with accepted := c.accepted + 1 })
        .next (retire s k k.t (k.after 4) false)
      | .error (e, a) => emitDirect s k r e a
    else emitBuffer s k r

/-! ### Displacement (R31) -/

/-- Whether a live thread is stalled at an EMIT. -/
def Thread.atEmit (t : Thread) : Bool := t.st == .blocked .emit

/-- The record with the lowest deferred thread (R27). -/
def lowestSeed (l : List SeedRec) : Option SeedRec :=
  l.foldl (fun b r => match b with
    | none => some r
    | some x => if keyLt r.low.1 r.low.2 x.low.1 x.low.2 then some r else some x) none

/-- The slot of the live thread with the highest key. -/
def highestThread (l : List (Nat × Thread)) : Option (Nat × Thread) :=
  l.foldl (fun b x => match b with
    | none => some x
    | some y => if keyLt y.2.key y.2.dep.toNat x.2.key x.2.dep.toNat then some x else some y) none

/-- The slots of a cast that hold no thread. -/
def Cast.emptySlots (c : Cast) : List Nat := (List.range (descSlots c.desc)).filter (fun i => (look c.threads i).isNone)

/-- Whether the cast is in the situation of R31. -/
def Cast.stuck (c : Cast) : Bool :=
  c.emptySlots.isEmpty && c.threads.all (fun (_, t) => t.atEmit) &&
    (match lowestSeed c.seeds with
      | none => false
      | some r => !c.threads.any (fun (_, t) => keyLt t.key t.dep.toNat r.low.1 r.low.2))

/-- The KIND 2 record of a displaced thread (R31). -/
def displacement (t : Thread) (pos : Nat) : SeedRec :=
  let lvl := t.dep.toNat - 1
  { pos := pos, x := t.x, e := t.e, key := keySet t.key lvl 0, pc := t.pc, lc := t.lc, ll := t.ll, meet := t.meet, cmask := t.cmask
    k := t.k, depth := lvl, dreg := 0, kind := 2, olo := keyLevel t.key lvl, ohi := keyLevel t.key lvl, ret := t.retired
    latch := t.retLatch, pend := t.pend, own := t.own }

/-- What a seedbed access of a displacement or a release that does not go through does: it waits (R466), also while its record cannot
be held (R420). `a` is the address of the access. The seedbed is none of the agents that AGENT names (R417). -/
def State.seedStop (s : State) (cid : Nat) (c : Cast) (slot : Nat) (key : BitVec 128) (dep : Nat) (pc : DWord) (e : Stop)
    (a : Nat) : State :=
  let d : DWord := BitVec.ofNat 64 a
  let rec_ (code : FCode) (cls info : Nat) : FaultRec :=
    { agentRec s c slot key (BitVec.ofNat 4 dep) pc code cls info d .seedbed with agent := false }
  match e with
  | .fatal code cls info walk =>
    if s.recFull then s else (s.walkedAt c d).fatal cid { rec_ code cls info with acck := walkAcck walk .seedbed }
  | .migrating _ => s
  | .xlate kind va =>
    if s.logFull c.plot || s.recFull then s
    else
      (s.resolvable (rec_ .xlate 2 kind) c.al c.plot (va / 65536) cid).hold c.plot
        { id := 0, cid := cid, slot := slot, key := key, dep := BitVec.ofNat 4 dep, pc := pc, va := d, size := 128, scope := 0
          ceil := acbCeil (s.acb c.al), kind := .seed, acck := .seedbed, op := none, late := false }

/-- Whether a seedbed access of the cast waits in the operand log (R466). -/
def State.seedHeld (s : State) (cid : Nat) (c : Cast) : Bool :=
  (s.plot c.plot).oplog.any (fun h => h.cid == cid && h.kind == .seed)

/-- Displaces a thread whose results have returned: the record is written before the slot is freed (R25, R31). -/
def displace (s : State) (cid : Nat) (c : Cast) (i : Nat) (t : Thread) : State :=
  let (n, s) := s.readsBad c
  if n = 1 then s.seedStop cid c i t.key t.dep.toNat t.pc (.fatal .memerr 1 0 false) 0
  else match s.seedPos c with
  | (none, s) => s
  | (some pos, s) =>
    let r := displacement t pos
    match s.writeSeed c r with
    | .error (e, a) => s.seedStop cid c i t.key t.dep.toNat t.pc e a
    | .ok s =>
      let s := s.onCast cid (fun c => { c with threads := del c.threads i, seeds := c.seeds ++ [r], displaced := none })
      t.flights.foldl (State.dropFlight { r := ⟨cid, i⟩, c := c, t := t }) s

/-- DISPLACEMENT (R31): the choice of thread stays while its pending results return. -/
def execDisplacement (c : Nat) (s : State) : Out :=
  .next (match look s.casts c with
    | none => s
    | some k =>
      if k.stuck && !s.seedHeld c k then
        match (match k.displaced with
          | some i => (look k.threads i).map (fun t => (i, t))
          | none => highestThread k.threads) with
        | none => s
        | some (i, t) =>
          if !t.writing then displace s c k i t else s.setCast c { k with displaced := some i }
      else if k.stuck then s else s.setCast c { k with displaced := none })

/-! ### SEEDBED_RELEASE (R27) -/

/-- The thread that a record releases (R26, R27). A displaced thread has every register back (R31), with its latched RETIREDH and the
registers that raise PEND until its next cue point. (Log 71, DEDUCED.) -/
def SeedRec.thread (r : SeedRec) : Thread :=
  let t : Thread :=
    { pc := r.pc, x := r.x, k := r.k, e := r.e, lc := r.lc, ll := r.ll, meet := r.meet, key := r.low.1
      dep := BitVec.ofNat 4 (r.depth + 1), cmask := r.cmask, retired := if r.kind = 2 then r.ret else 0
      retLatch := if r.kind = 2 then r.latch else 0, st := .ready, pend := if r.kind = 2 then r.pend else [], flights := []
      timer := 0, pass := false, met := [], own := r.own }
  t.setX r.dreg (BitVec.ofNat 32 r.olo)

/-- The record after a release, and the memory writes that keep it current: OLO, or KIND := 0 where it frees (R25). -/
def State.advanceSeed (s : State) (c : Cast) (r : SeedRec) : Except (Stop × Nat) (State × Option SeedRec) :=
  let put (a n v : Nat) : Except (Stop × Nat) State := (s.putVirt c.plot c.al a n v).mapError (fun e => (e, a))
  if r.olo < r.ohi then
    let r' := { r with olo := r.olo + 1 }
    (put (c.seedVa r.pos + 336) 2 r'.olo).map (fun s => (s, some r'))
  else (put (c.seedVa r.pos + 335) 1 0).map (fun s => (s, none))

/-- Reads a seedbed record, in three lines (R27, R466). -/
def State.readSeed (s : State) (c : Cast) (r : SeedRec) : Except (Stop × Nat) State :=
  [0, 128, 256].foldlM (fun s o =>
    ((s.getVirt c.plot c.al (c.seedVa r.pos + o) 128).map Prod.fst).mapError (fun e => (e, c.seedVa r.pos + o))) s

/-- Another thread of the cast keeps the HELD threads with its MEET value no longer (R48). -/
def Cast.meetNote (c : Cast) (u : Thread) : Cast :=
  if c.threads.any (fun (_, t) => t.st == .held && t.meet == u.meet && !t.met.contains (u.key, u.dep)) then
    { c with threads := c.threads.map (fun (i, t) =>
        (i, if t.st == .held && t.meet == u.meet then { t with met := (u.key, u.dep) :: t.met } else t)) }
  else c

/-- A thread that stands where a MEET value counts it keeps the HELD threads with that value no longer (R48). -/
def State.meetNote (s : State) (r : TRef) : State :=
  match s.thread? r with
  | some t => s.onCast r.c (fun c => Cast.latchMeet (if t.meet != 0 && t.meets t.meet then c.meetNote t else c))
  | none => s

/-- Releases the lowest deferred thread into a slot (R27). -/
def releaseInto (s : State) (cid i : Nat) : State :=
  match look s.casts cid with
  | none => s
  | some c =>
    match lowestSeed c.seeds with
    | none => s
    | some r =>
      let (n, s) := if s.seedHeld cid c then (0, s) else s.readsBad c
      if s.seedHeld cid c then s
      else if n = 1 then s.seedStop cid c 0xFFFF r.low.1 r.low.2 0 (.fatal .memerr 1 0 false) 0
      else match s.readSeed c r with
        | .error (e, a) => s.seedStop cid c 0xFFFF r.low.1 r.low.2 0 e a
        | .ok s =>
          match s.advanceSeed c r with
          | .error (e, a) => s.seedStop cid c 0xFFFF r.low.1 r.low.2 0 e a
          | .ok (s, r') =>
            let c := Cast.meetNote c.latchMeet r.thread
            s.setCast cid { c with
              threads := put c.threads i r.thread
              seeds := c.seeds.filterMap (fun x => if x.pos = r.pos then r' else some x) }

/-- Whether a release of deferred threads is due: a free slot, and a record (R27). -/
def Cast.releaseDue (c : Cast) : Bool := !c.seeds.isEmpty && !c.emptySlots.isEmpty

/-- SEEDBED_RELEASE (R27): the lowest deferred threads go to the free slots in increasing order, as one group, at the end of a cycle,
which in ORDERED mode is the end of a step (R343). -/
def execSeedbedRelease (c : Nat) (s : State) : Out :=
  match look s.casts c with
  | none => .next s
  | some k => .next <| if s.midStep k then s else (k.emptySlots.foldl (fun s i => releaseInto s c i) s)

end Sys2Proof.Machine
end

