-- ==== Sys2Proof/Machine/Rtake.lean ====
section
/-!
DEFINITION. Reel entries for threads (spec/02 R80, spec/08 R260 to R262): what the plot's engines take and reserve before any
thread, RTAKE, and the threads that wait.
-/

namespace Sys2Proof.Machine

open Sys2Proof

/-- Runs the copies of a plot that can run, at most `n` (R258). -/
def State.runCopies (p : Nat) : Nat → State → State
  | 0, s => s
  | n + 1, s => State.runCopies p n (Out.state (execCopyStart p s) s)

/-- What the engines of a cast's plot do before its threads are served (R80): the copy engine reserves, the matrix sequencer takes. -/
def State.engineFirst (s : State) (res : Bool) (cid r : Nat) : State :=
  match look s.casts cid with
  | none => s
  | some c =>
    let q := s.plot c.plot
    if res then
      if q.copies.any (fun k => k.cid == cid && k.entry.isNone && (slateOf k.dst).isReel && (slateOf k.dst).reelN == r) then
        s.runCopies c.plot 8
      else s
    else
      (List.range q.script.length).foldl (fun s n =>
        if (q.script[n]?).any (fun k => k.cid == cid && !k.started && k.takes r) then Out.state (execMatrixCommandStart c.plot n s) s
        else s) s

/-- RTAKE and RTAKE.RES (R261): the entry's address, or a wait. The engine, and a thread of a lower slot that waits already, are served
first (R80).
Both are switch points (R344). -/
def rtakeOp (res q : Bool) (d : BitVec 5) (r : BitVec 2) (s : State) : Out :=
  prologue false false q (pairDst d) s fun k =>
    if (k.c.reel r.toNat).isNone then raise s k .slate
    else if k.acquiring s then block s k .order
    else
      let s := s.engineFirst res k.r.c r.toNat
      match ((look s.casts k.r.c).bind (fun c => c.reel r.toNat)) with
      | none => .next s
      | some w => match (if k.c.threads.any (fun (i, t) => decide (i < k.r.t) && t.onReel res r.toNat) then none else w.grab res) with
        | none => .next ((s.setThread k.r { k.t with st := .blocked (.rtake res r.toNat d) }).switch k)
        | some (e, w) =>
          let s := s.onCast k.r.c (fun c => c.setReel r.toNat w)
          .next ((retire s k (k.t.setA d (w.addr e)) (k.after 4) false).switch k)

/-- RTAKE (R260). -/
def execRtake (q : Bool) (d : BitVec 5) (r : BitVec 2) (s : State) : Out := rtakeOp false q d r s

/-- RTAKE.RES (R260). -/
def execRtakeRes (q : Bool) (d : BitVec 5) (r : BitVec 2) (s : State) : Out := rtakeOp true q d r s

/-- Serves the thread with the lowest slot that waits for a take or reserve of a reel (R80, R261). -/
def serveReel (s : State) (res : Bool) (cid r : Nat) : Option State :=
  (look s.casts cid).bind fun c =>
    let waits : List (Nat × Thread × BitVec 5) := c.threads.filterMap (fun (i, t) =>
      match t.st with
      | .blocked (.rtake b n d) => if b = res ∧ n = r then some (i, t, d) else none
      | _ => none)
    let best := waits.foldl (fun (b : Option (Nat × Thread × BitVec 5)) x =>
      match b with
      | none => some x
      | some y => if x.1 < y.1 then some x else some y) none
    match best, (c.reel r).bind (Reel.grab res) with
    | some (i, t, d), some (e, w) =>
      let k : Ctx := { r := ⟨cid, i⟩, c := c, t := t }
      let s := s.onCast cid (fun c => c.setReel r w)
      some (retire s k (t.setA d (w.addr e)) (k.after 4) false)
    | _, _ => none

/-- The cast of a plot that has a reel enabled: at most one (R78). -/
def State.reelCast (s : State) (p r : Nat) : Option Nat :=
  (s.casts.find? (fun (_, c) => c.plot == p && (c.reel r).isSome)).map Prod.fst

end Sys2Proof.Machine
end

