-- ==== Sys2Proof/Machine/Issue.lean ====
section
/-!
DEFINITION. Issue and return (spec/01 R40 to R54, spec/14 R342 to R346): pending results, retiring operations, bundles,
the fairness timer, MEET, the ORDERED turn, and the write-back of a line to an all-zero frame.
-/

namespace Sys2Proof.Machine

open Sys2Proof

/-! ### Pending results (R50, R51, R108) -/

/-- The values of a flight as it returns; none: it cannot return yet (R275, R418). -/
def flightValue (s : State) (k : Ctx) (f : Flight) : Option (State × List (Dst × Word)) :=
  match f.src with
  | .value => some (s, f.dst)
  | .held => none
  | .mxr _ _ _ => none
  | .mxrn seq cell =>
    if (k.cellWrites s).any (fun w => w.cell == cell && decide (w.seq < seq)) || k.t.readsFirst seq cell then none
    else
      let (s, v) := mxrnValue s k.c.plot cell
      some (s, f.dst.map (fun (d, _) => (d, v)))

/-- Writes a returned result; the last one takes the thread out of CUEWAIT (R51). -/
def Thread.receive (t : Thread) (n : Nat) (vals : List (Dst × Word)) : Thread :=
  let t := { (t.setDsts vals) with flights := t.flights.eraseIdx n }
  { t with st := if !t.writing && t.st == .cueWait then .ready else t.st }

/-- PENDING_RESULT_RETURN (R50): the value is written, the flags are set (R108), and the operation is done (R212). -/
def execPendingResultReturn (c t n : Nat) (s : State) : Out :=
  .next (match look s.casts c with
    | none => s
    | some x =>
      let s := s.settleCells x.plot
      match s.ctxAt ⟨c, t⟩ with
      | none => s
      | some k =>
        match k.t.flights[n]? with
        | none => s
        | some f =>
          match flightValue s k f with
          | none => s
          | some (s, vals) =>
            let s := ((s.setThread k.r (k.t.receive n vals)).flag k f.flags).onCast c (fun x => x.flagged f.grp)
            match f.op with
            | some id => s.opDone c k.crewN id
            | none => if f.src.cell?.isSome then (s.settleCells x.plot).retry x.plot Wait.room else s)

/-- MEMORY_OP_RETIRE (R212): the done operations at the head of a class leave its counter, in issue order. -/
def execMemoryOpRetire (c w : Nat) (k : OpClass) (s : State) : Out :=
  match look s.casts c with
  | none => .next s
  | some x => .next ((s.onCast c (fun c => c.onCrew w (fun w => { w with ops := drainOps k w.ops }))).retry x.plot Wait.room)

/-! ### Reels (R80) -/

/-- The cast of a plot that has a reel enabled, while its waiting threads may be served: an ORDERED cast's only between steps (R343,
R345, R356). -/
def State.servedCast (s : State) (p r : Nat) : Option Nat :=
  (s.reelCast p r).filter (fun c => !(look s.casts c).any s.midStep)

/-- REEL_RESERVE (R80): serves the copy engine, then the lowest slot that waits to reserve. -/
def execReelReserve (p r : Nat) (s : State) : Out :=
  .next (match s.servedCast p r with
    | some c => let s := s.engineFirst true c r; (serveReel s true c r).getD s
    | none => s)

/-- REEL_TAKE (R80): serves the matrix sequencer, then the lowest slot that waits to take. -/
def execReelTake (p r : Nat) (s : State) : Out :=
  .next (match s.servedCast p r with
    | some c => let s := s.engineFirst false c r; (serveReel s false c r).getD s
    | none => s)

/-! ### Bundles and the fairness timer (R45 to R48) -/

/-- Inserts a thread in increasing key order. -/
def insKey (x : Nat × Thread) : List (Nat × Thread) → List (Nat × Thread)
  | [] => [x]
  | y :: r => if keyLt x.2.key x.2.dep.toNat y.2.key y.2.dep.toNat then x :: y :: r else y :: insKey x r

/-- Threads in increasing key order (R18). -/
def byKey (l : List (Nat × Thread)) : List (Nat × Thread) := l.foldl (fun r x => insKey x r) []

/-- The threads of a cast in READY, lowest keys first. -/
def Cast.readyByKey (c : Cast) : List (Nat × Thread) := byKey (c.threads.filter (fun (_, t) => t.st == .ready))

/-- An allotment's cap at an arbiter in units (R428): FCAP at a port's direction, MCAP at a memory controller. -/
def arbCap (a : BitVec 1024) (arb : Nat) : Nat := 16 * (if arb < 256 then bitsN a (8 * 6) 9 else bitsN a (8 * 10) 9)

/-- Whether bandwidth regulation throttles an allotment (R379, R428): requests of it wait at an arbiter that has served it up to its cap in
the last window. (Log 68, DESIGN CHOICE.) -/
def State.regulated (s : State) (al : Nat) : Bool :=
  s.pend.any (fun (b, x, n) => x == some al && decide (0 < n) && decide (arbCap (s.acb al) b ≤ (look s.arb (b * 4096 + al)).getD 0))

/-- Whether a cast issues (R42, R378, R379, R389, R443, R454): placed, on a core that runs, neither its context being saved nor its core
repaired, its allotment's bandwidth not regulated, and where its path holds a bucket, with a lease on its plot for that path. -/
def State.issues (s : State) (c : Cast) : Bool :=
  s.powered c.plot && (c.st == .resident || c.st == .draining) && !(s.queue c.al c.qn).saving && !s.repairing c && !s.regulated c.al &&
    (let path := ((look s.scenes c.scene).map Scene.path).getD []
     path.isEmpty ||
      (let l := s.bucketsOf c
       l.isEmpty || s.casts.any (fun (_, x) => x.plot == c.plot && x.al == c.al && decide (0 < x.lease) && l.all (fun n => x.leased.contains n))))

/-- Divides a list into pieces of at most 32, with `n` pieces at most. -/
def chunks (l : List (Nat × Nat)) : Nat → List (List (Nat × Nat))
  | 0 => []
  | n + 1 => if l.isEmpty then [] else l.take 32 :: chunks (l.drop 32) n

/-- The distinct program counters of threads, in order. -/
def pcsOf (l : List (Nat × Thread)) : List DWord := dedup (l.map (fun x => x.2.pc))

/-- The bundles of a cast (R45), the one with the lowest key first (R46). -/
def castBundles (cid : Nat) (c : Cast) : List (List (Nat × Nat)) :=
  let l := c.readyByKey
  let bs := (pcsOf l).flatMap (fun pc => chunks ((l.filter (fun x => x.2.pc == pc)).map (fun x => (cid, x.1))) 16)
  l.filterMap (fun x => bs.find? (fun b => b.head? == some (cid, x.1)))

/-- The casts of a plot in round-robin order (R46). -/
def State.castsOn (s : State) (p : Nat) : List (Nat × Cast) :=
  (s.plot p).rr.filterMap (fun n => (look s.casts n).map (fun c => (n, c)))

/-- BUNDLE_REGROUP (R45): the READY threads of each cast outside ORDERED mode are grouped by program counter. -/
def execBundleRegroup (p : Nat) (s : State) : Out :=
  .next (s.onPlot p (fun q => { q with bundles :=
    ((s.castsOn p).filter (fun (_, c) => descDet c.desc != 1)).flatMap (fun (n, c) => castBundles n c) }))

/-- Leaves HELD: the thread issues the instruction normally (R48). -/
def Thread.leaveHeld (t : Thread) : Thread := { t with st := .ready, pass := true, met := [] }

/-- FAIRNESS_TIMER_EXPIRY (R46, R48): a HELD thread leaves HELD; a READY one issues first. -/
def execFairnessTimerExpiry (c t : Nat) (s : State) : Out :=
  .next (match s.ctxAt ⟨c, t⟩ with
    | none => s
    | some k =>
      if k.t.timer < 256 ∨ descDet k.c.desc = 1 then s
      else match k.t.st with
        | .held => s.setThread k.r k.t.leaveHeld
        | .ready => { s with cur := some k.r }
        | _ => s)

/-- Whether the instruction at a thread's PC has the address that MEET names (R48). -/
def Thread.atMeet (t : Thread) : Bool := t.meet != 0 && t.pc.setWidth 32 == t.meet

/-- MEET_REJOIN (R48). -/
def execMeetRejoin (c t : Nat) (s : State) : Out :=
  .next (match s.ctxAt ⟨c, t⟩ with
    | none => s
    | some k => if k.t.st = .held ∧ (k.t.pass || k.c.rejoin t k.t) then s.setThread k.r k.t.leaveHeld else s)

/-- A thread reaches its MEET address and is HELD (R48). -/
def holdMeet (s : State) (k : Ctx) : State :=
  s.setThread k.r { k.t with
    st := .held
    pass := false
    met := (k.c.threads.filter (fun (i, u) => i != k.r.t && u.meet == k.t.meet && u.meets k.t.meet)).map (fun (_, u) => (u.key, u.dep)) }

/-! ### The ORDERED turn (R342 to R346) -/

/-- A crew's logical index (R342). -/
def logical (c : Cast) (w : Nat) : Nat := c.ix * 16 + w

/-- Whether a thread counts for its crew's place in the rotation (R342). -/
def Thread.turnReady (t : Thread) : Bool := t.st == .ready || t.st == .cueWait

/-- Whether a crew has a thread in READY or CUEWAIT. -/
def Cast.crewReady (c : Cast) (w : Nat) : Bool := c.threads.any (fun (i, t) => i / 32 == w && t.turnReady)

/-- The sets of a crew that are fixed and whose operations still wait, in the order of their lowest slots (R36). -/
def Cast.fixedSets (c : Cast) (w : Nat) : List FixedSet :=
  (List.range 32).filterMap (fun l =>
    (look c.threads (32 * w + l)).bind (fun t => t.arrival.bind (fun a =>
      a.fixed.bind (fun fx => if fx.parts.head? = some (32 * w + l) then some fx else none))))

/-- Whether a crew may take the turn: it waits for no cast of the same plot (R349), and has a thread in READY or CUEWAIT (R342) or a
fixed set that can go on. -/
def State.mayTurn (s : State) (n : Nat) (c : Cast) (w : Nat) : Bool :=
  let l := (c.fixedSets w).map (fun fx => s.setWait n c fx)
  l.contains none || (!l.contains (some true) && c.crewReady w)

/-- The crews of a plot that may take the turn: logical index, cast, crew (R342, R349). -/
def State.turnCrews (s : State) (p : Nat) : List (Nat × Nat × Nat) :=
  (s.castsOn p).flatMap (fun (n, c) =>
    if descDet c.desc = 1 then
      ((List.range (descCrews c.desc)).filter (fun w => s.mayTurn n c w)).map (fun w => (logical c w, n, w))
    else [])

/-- The crew with the lowest logical index among some. -/
def lowestCrew (l : List (Nat × Nat × Nat)) : Option (Nat × Nat × Nat) :=
  l.foldl (fun b x => match b with
    | none => some x
    | some y => if x.1 < y.1 then some x else some y) none

/-- The next crew in rotation after a logical index (R342). -/
def nextCrew (l : List (Nat × Nat × Nat)) (after : Option Nat) : Option (Nat × Nat × Nat) :=
  match lowestCrew (l.filter (fun x => after.all (fun n => decide (n < x.1)))) with
  | some x => some x
  | none => lowestCrew l

/-- Passes the turn (R342): to the next crew that can issue; where there is none, the plot waits for the first that gains a thread. -/
def State.passTurn (s : State) (p : Nat) : State :=
  s.onPlot p (fun q =>
    match nextCrew (s.turnCrews p) q.turn.last with
    | some (ix, n, w) => { q with turn := { holder := some (n, w), last := some ix } }
    | none => { q with turn := { last := q.turn.last } })

/-- The quantum of the holder's scene (R340). -/
def State.quant (s : State) (p : Nat) : Nat :=
  match (s.plot p).turn.holder.bind (fun h => look s.casts h.1) with
  | some c => descQuant c.desc
  | none => 65536

/-- Whether the turn of a plot is due to pass, between steps: no crew holds it, a switch point has come, or the quantum is spent (R342,
R344). -/
def State.turnDue (s : State) (p : Nat) : Bool :=
  let t := (s.plot p).turn
  t.members.isEmpty && (t.holder.isNone || t.switch || decide (s.quant p ≤ t.count))

/-- Passes the turn of a plot where that is due. -/
def State.settleTurn (s : State) (p : Nat) : State := if s.turnDue p then s.passTurn p else s

/-- QUANTUM_EXPIRY (R344): after a whole step, a crew that has retired QUANT instructions passes the turn. -/
def execQuantumExpiry (p : Nat) (s : State) : Out :=
  let t := (s.plot p).turn
  .next (if t.holder.isSome && t.members.isEmpty && decide (s.quant p ≤ t.count) then s.passTurn p else s)

/-- Forms the next step of the holder (R343): its lowest key's program counter, and every such thread at it. The quantum counts one
instruction for each (R344). -/
def State.formStep (s : State) (p : Nat) : State :=
  match (s.plot p).turn.holder with
  | none => s
  | some (n, w) =>
    match look s.casts n with
    | none => s
    | some c =>
      match byKey (c.threads.filter (fun (i, t) => i / 32 == w && t.turnReady)) with
      | [] => s
      | (_, t) :: _ =>
        let ms := ((List.range 32).map (fun l => 32 * w + l)).filter (fun i =>
          (look c.threads i).any (fun u => u.turnReady && u.pc == t.pc))
        s.onPlot p (fun q => { q with turn :=
          { q.turn with members := ms, stepPc := t.pc, switch := false, gate := false, count := q.turn.count + ms.length } })

/-! ### ALL_ZERO_WRITEBACK (R73) -/

/-- ALL_ZERO_WRITEBACK (R73): the first write-back of a line to a frame whose all-zero bit is set. -/
def execAllZeroWriteback (p l : Nat) (s : State) : Out :=
  .next (match (s.plot p).cache.find? (fun x => x.n == l) with
    | some x =>
      if x.isDirty && (s.frame (l * 128 / 65536)).zero then
        (s.writeBack p x).onPlot p (fun q => { q with cache := q.cache.map (fun y => if y.n = l then y.clean else y) })
      else s
    | none => s)

end Sys2Proof.Machine
end

