-- ==== Sys2Proof/Machine/Scene.lean ====
section
/-!
DEFINITION. The scene dispatcher (spec/17 R371 to R386, spec/01 R15, R39, spec/14 R341, R350 to R353): acceptance,
placement, leases, the end of a cast, deferred lists, the end of launch, completion records and the watchdog.
-/

namespace Sys2Proof.Machine

open Sys2Proof

/-! ### SCENE_ACCEPT (R371, R375) -/

/-- The word of a queue control block at offset 16 (R370). -/
def State.qword (s : State) (al q : Nat) : Nat := s.qcb al q 16 4

/-- Published descriptors that are not yet accepted. -/
def State.pendingDescs (s : State) (al q : Nat) : Nat := idxDiff (s.qcb al q 32 4) (s.queue al q).head.toNat

/-- A control block that stops its queue (R371). (Log 13, DEDUCED.) -/
def State.qcbBad (s : State) (al q : Nat) : Bool :=
  let w := s.qword al q
  decide (16 < w % 32) || decide (2 ^ (w % 32) < s.pendingDescs al q) || decide (w / 256 % 32 < 2) || decide (20 < w / 256 % 32) ||
    w / 32 % 8 != 0 || w / 2 ^ 13 % 8 != 0 || w / 2 ^ 18 != 0 || s.qcb al q 28 4 != 0 || s.qcb al q 56 8 != 0

/-- Whether the dispatcher has something to do at a queue: enabled, not stopped, a descriptor published, and either a
control block to stop on or room for an accepted scene. (Log 24, DEDUCED.) -/
def State.queueWork (s : State) (al q : Nat) : Bool :=
  let w := s.qword al q
  w / 2 ^ 16 % 2 == 1 && !(s.queue al q).err && !(s.queue al q).stall && s.pendingDescs al q != 0 &&
    (s.qcbBad al q || decide ((s.accepted al q).length < 16))

/-- Whether CQLOG of a queue lies outside its range (R371). -/
def State.cqBad (s : State) (al q : Nat) : Bool :=
  let c := s.qword al q / 256 % 32
  decide (c < 2) || decide (20 < c)

/-- Sets ERR and stops reading the queue (R371). -/
def State.stopQueue (s : State) (al q : Nat) : State :=
  (s.onQueue al q (fun x => { x with err := true, stall := true, errCq := s.cqBad al q })).setQcb al q 16 4 (s.qword al q % 2 ^ 17 + 2 ^ 17 + s.qword al q / 2 ^ 18 * 2 ^ 18)

/-- Accepts the descriptor at HEAD of a queue (R371): the copy, the checks of R375, and HEAD; it waits while a page that the checks read
is under migration (R414). A refused scene takes only the completion record and the signal word (R383). -/
def State.acceptScene (s : State) (al q : Nat) : State :=
  let h := (s.queue al q).head
  let slot := s.qcb al q 0 8 + 128 * (h.toNat % 2 ^ (s.qword al q % 32))
  let d : BitVec 1024 := BitVec.ofNat 1024 (s.dpRead slot 128 al)
  match refusal s al d, look s.allots al with
  | some (s, r, e), some a =>
    let sc : Scene :=
      { al := al, qn := q, subn := h, acc := a.nAcc, desc := d, reason := r, nextC := 0, nEnd := 0, fails := [], stopped := false
        prio := e.prio, fdom := e.fdom, trapr := e.trapr, wdlim := e.wdlim, drain := e.drain, slice := e.slice, path := e.path
        digests := [], rerun := false, phase := if r = 0 then .running else .settled, setOrd := a.nSet, fire := none }
    let s : State := { s with scenes := put s.scenes s.nextScene sc, nextScene := s.nextScene + 1 }
    let s := s.onAllot al (fun a => { a with nAcc := a.nAcc + 1, nSet := if r = 0 then a.nSet else a.nSet + 1, rrQ := (q + 1) % 64 })
    (s.onQueue al q (fun x => { x with head := h + 1 })).setIndex al q 20 (h + 1)
  | _, _ => s

/-- SCENE_ACCEPT (R371): the next queue in round robin that has work. -/
def execSceneAccept (al : Nat) (s : State) : Out :=
  .next (match look s.allots al with
    | none => s
    | some a =>
      match ((List.range 64).map (fun i => (a.rrQ + i) % 64)).find? (fun q => s.queueWork al q) with
      | none => s
      | some q => if s.qcbBad al q then s.stopQueue al q else s.acceptScene al q)

/-! ### Readiness and order (R380, R381) -/

/-- A predecessor word's condition (R374, R380), from a read at allotment scope. -/
def State.predOk (s : State) (al a v : Nat) : Bool :=
  if a = 0 then true
  else match s.agentGet al a 4 with
    | .ok (_, x) => decide (idxDiff x v < 2 ^ 31)
    | .error _ => false

/-- Whether a scene is ready (R380), its context aside. -/
def State.readyButContext (s : State) (sc : Scene) : Bool :=
  sc.fire.isSome ||
    (s.predOk sc.al (byteN sc.desc 72 8) (byteN sc.desc 88 4) && s.predOk sc.al (byteN sc.desc 80 8) (byteN sc.desc 92 4) &&
      (!descSerial sc.desc || !(s.accepted sc.al sc.qn).any (fun (_, x) => x.subn == sc.subn - 1)))

/-- Whether a scene has QUEUED casts that may still be placed (R381, R385). -/
def Scene.queued (sc : Scene) : Bool :=
  sc.phase == .running && sc.reason == 0 && !sc.stopped && decide (sc.nextC < descCasts sc.desc)

/-- Whether a scene is ready and has QUEUED casts. -/
def State.sceneReady (s : State) (sc : Scene) : Bool := sc.queued && s.ctxOpen sc.al sc.qn && s.readyButContext sc

/-- Whether a scene is served before another: higher priority, then earlier acceptance (R381). -/
def Scene.before (a b : Scene) : Bool := decide (b.prio < a.prio) || (a.prio == b.prio && decide (a.acc < b.acc))

/-- The scene that the dispatcher serves first (R381). -/
def firstScene (l : List (Nat × Scene)) : Option (Nat × Scene) :=
  l.foldl (fun b x => match b with
    | none => some x
    | some y => if x.2.before y.2 then some x else some y) none

/-- The first ready scene of an allotment. -/
def State.nextScene? (s : State) (al : Nat) : Option (Nat × Scene) :=
  firstScene (s.scenes.filter (fun (_, x) => x.al == al && s.sceneReady x))

/-! ### Placement (R66 to R70, R78, R341, R381) -/

/-- The casts that hold a place on a plot. -/
def State.onPlotCasts (s : State) (p : Nat) : List Cast :=
  (s.casts.filter (fun (_, c) => c.plot == p && c.st != .listWait)).map Prod.snd

/-- The unclaimed banks of a plot, lowest first (R68). -/
def Plot.freeBanks (p : Plot) : List Nat := (List.range 8).filter (fun b => p.roles.toList.getD b 0 == 0)

/-- The unclaimed tiles of a plot, lowest first (R68, R74). -/
def State.freeTiles (s : State) (p : Nat) : List Nat :=
  (List.range 8).filter (fun t => !(s.onPlotCasts p).any (fun c => c.tiles.contains t))

/-- Whether a plot has room for a cast of a scene (R381), its mode allows it (R341), and its core runs (R454)
and is not being repaired (R443). (Log 28, DEDUCED.) -/
def State.canTake (s : State) (p scn : Nat) (d : BitVec 1024) : Bool :=
  let cs := s.onPlotCasts p
  s.powered p && s.win.crep != some (p / 4) && decide (cs.length < 15) && decide ((cs.map (fun c => descSlots c.desc)).sum + descSlots d ≤ 512) &&
  decide (descScnt d + descOcnt d ≤ (s.plot p).freeBanks.length) && decide (descAcnt d ≤ (s.freeTiles p).length) &&
  (List.range 4).all (fun i => !descReelOn d i || !cs.any (fun c => (c.reels.toList.getD i none).isSome)) &&
  cs.all (fun c => !(descDet c.desc == 1 || descDet d == 1) || (c.scene == scn && descDet c.desc == descDet d))

/-- A thread at the start of a cast (R15). -/
def startThread (entry param : DWord) (i : Nat) : Thread :=
  { pc := entry
    x := (((Vector.replicate 64 (0 : Word)).set 1 (BitVec.ofNat 32 i)).set 2 (param.setWidth 32)).set 3 ((param >>> 32).setWidth 32)
    k := Vector.replicate 8 false, e := Vector.replicate 4 0, lc := Vector.replicate 3 0, ll := Vector.replicate 3 0, meet := 0
    key := keySet 0 0 i, dep := 1
    cmask := BitVec.allOnes 32, retired := 0, retLatch := 0, st := .ready, pend := [], flights := [], timer := 0, pass := false, met := []
    own := [] }

/-- A cast at its placement (R15, R34, R74, R79). It claims the lowest-numbered unclaimed tiles: the spec gives an order for banks only
(log 84, DESIGN CHOICE). -/
def startCast (s : State) (scn : Nat) (sc : Scene) (p : Nat) : Cast :=
  let d := sc.desc
  let banks := (s.plot p).freeBanks
  { al := sc.al, qn := sc.qn, scene := scn, fire := sc.fire, ix := sc.nextC, plot := p, st := .resident, desc := d
    param := BitVec.ofNat 64 (descParam d)
    threads := (List.range (descStart d)).map (fun i => (i, startThread (BitVec.ofNat 64 (descEntry d)) (BitVec.ofNat 64 (descParam d)) i))
    crews := List.replicate (descCrews d) {}, seeds := [], ebuf := [], accepted := 0, committed := 0
    bars := Vector.replicate 16 {}, scr := [], opd := [], scrBanks := banks.take (descScnt d)
    opdBanks := (banks.drop (descScnt d)).take (descOcnt d), tiles := (s.freeTiles p).take (descAcnt d)
    reels := #v[reelOf (descReel d 0), reelOf (descReel d 1), reelOf (descReel d 2), reelOf (descReel d 3)]
    clk := 0, digest := 0, steps := [], deferred := [], lease := 0, leased := [], wdog := 0, displaced := none, nextOp := 0, wload := false
    active := false, failCode := 0, withdrawn := [], bad := false }

/-- Bank roles after a claim (R66). -/
def claimRoles (r : Vector (BitVec 2) 8) (scr opd : List Nat) : Vector (BitVec 2) 8 :=
  opd.foldl (fun r b => r.setIfInBounds b 2) (scr.foldl (fun r b => r.setIfInBounds b 1) r)

/-- The part of a cast's arrival on a plot that placement and restore share: claimed banks leave the cache role, written
back and empty (R66, R70); claimed tiles hold zeros (R74); the slate cache (R252) and the copies of READONLY and instruction lines
(R65, R171) are dropped; the context is resident on the plot (R467); an ORDERED cast takes the turn where no crew holds it, once a
turn that was due has passed (R342). (Log 30, DEDUCED.) -/
def State.arrive (s : State) (cid : Nat) (c : Cast) : State :=
  let p := c.plot
  let s := if c.scrBanks.isEmpty && c.opdBanks.isEmpty then s else s.acquire p 2
  let s := if descDet c.desc = 1 then s.settleTurn p else s
  let s := s.onPlot p (fun q =>
    { q with
      roles := claimRoles q.roles c.scrBanks c.opdBanks
      tiles := q.tiles.filter (fun e => !(c.tiles.contains (e.1 / 16384)))
      slates := [], roc := [], ic := []
      rr := q.rr ++ [cid]
      ctx := if q.ctx.contains (c.al, c.qn) then q.ctx else q.ctx ++ [(c.al, c.qn)]
      turn := if descDet c.desc = 1 ∧ q.turn.holder.isNone then { holder := some (cid, 0), last := some (c.ix * 16) } else q.turn })
  let s := if (s.placed c.al c.qn).isEmpty then s.onQueue c.al c.qn (fun x => { x with since := s.dieClk.toNat, candAt := s.dieClk.toNat }) else s
  let s := s.setCast cid c
  if (s.queue c.al c.qn).ctxst = 0 then s.setCtxst c.al c.qn 1 else s

/-- Places the next cast of a scene on a plot and starts its threads (R381, R15). -/
def State.placeOn (s : State) (scn : Nat) (sc : Scene) (p rel : Nat) : State :=
  let cid := s.nextCast
  let s : State := { (s.arrive cid (startCast s scn sc p)) with nextCast := cid + 1 }
  let s := s.onScene scn (fun x => { x with nextC := x.nextC + 1 })
  match sc.fire with
  | some f => s.firePlaced sc.al p rel f
  | none => s

/-- Whether a scene's casts may use an allotment-relative plot (R325). -/
def State.allowsPlot (s : State) (sc : Scene) (rel : Nat) : Bool :=
  match sc.fire with
  | none => true
  | some f => (s.graph? sc.al f.g).any (fun g => g.allows f.stage rel)

/-- The lowest-numbered allotment-relative plot that takes the next cast of a scene (R381). -/
def State.findPlot (s : State) (scn : Nat) (sc : Scene) : Option (Nat × Nat) :=
  let ps := s.plotsOf sc.al
  ((List.range ps.length).zip ps).find? (fun (i, p) => s.allowsPlot sc i && s.canTake p scn sc.desc)

/-- Places the next cast of a scene, where a plot takes it. -/
def State.placeNext (s : State) (scn : Nat) : Option State :=
  (look s.scenes scn).bind fun sc => (s.findPlot scn sc).map fun (i, p) => s.placeOn scn sc p i

/-- Places `n` casts of a scene together, or none (R382). -/
def State.placeAll (s : State) (scn : Nat) : Nat → Option State
  | 0 => some s
  | n + 1 => (s.placeNext scn).bind fun s => s.placeAll scn n

/-- What the dispatcher's reads of predecessor words leave behind: A of their leaves (R380, R401). -/
def State.predSees (s : State) (al : Nat) : State :=
  (s.scenes.filter (fun (_, x) => x.al == al && x.queued && x.fire.isNone)).foldl (fun s (_, x) =>
    [byteN x.desc 72 8, byteN x.desc 80 8].foldl (fun s a => if a = 0 then s else s.sees al a) s) s

/-- CAST_PLACEMENT (R381, R382): the next cast of the first ready scene; a COHORT scene's casts all together. -/
def execCastPlacement (al : Nat) (s : State) : Out :=
  let s := s.predSees al
  .next (match s.nextScene? al with
    | none => s
    | some (n, sc) =>
      ((if descCohort sc.desc && sc.fire.isNone then s.placeAll n (descCasts sc.desc - sc.nextC) else s.placeNext n)).getD s)

/-! ### Leases (R378) -/

/-- The node's balance brought up to date (R378): TOKENS and LASTP. -/
def bringUp (n : BitVec 512) (clk : Nat) : Int × Nat :=
  let rate := byteN n 16 4
  let per := max 1024 (min (2 ^ 31) (byteN n 20 4))
  let p := clk / per
  let last := byteN n 48 8
  let tok := (BitVec.ofNat 64 (byteN n 40 8)).toInt
  if last < p then (max tok (min (tok + rate * (p - last : Nat)) ((bitsN n 104 2 + 1) * rate : Nat)), p) else (tok, last)

/-- Reads the nodes of a path, as they are now (R377), and brings the balance of each bucket up to date: the buckets with their balances,
or the first node that cannot be reached. -/
def State.balances (s : State) (al : Nat) : List DWord → Except DWord (State × List (DWord × Int))
  | [] => .ok (s, [])
  | a :: r =>
    match s.agentGet al (bitsN a 0 48) 64 with
    | .error _ => .error a
    | .ok (s, v) =>
      let n : BitVec 512 := BitVec.ofNat 512 v
      if !hasRate n then s.balances al r
      else
        let (tok, last) := bringUp n s.dieClk.toNat
        match s.agentPut al (bitsN a 0 48 + 40) 16 ((BitVec.ofInt 64 tok).toNat + 2 ^ 64 * last) false with
        | .error _ => .error a
        | .ok s => (s.balances al r).map (fun (s, l) => (s, (a, tok) :: l))

/-- The lease that the lowest balance of a path gives (R378). -/
def leaseOf (l : List Int) : Nat := (l.foldl min 1024).toNat

/-- Whether a cast has a lease that leaves out a bucket of its path as it is now: the bucket has come to set a limit since (R377). -/
def State.leaseShort (s : State) (c : Cast) : Bool := c.lease != 0 && !(s.bucketsOf c).all (fun n => c.leased.contains n)

/-- LEASE_GRANT (R378): a cast whose path holds buckets and that has no lease for all of them; what is left of one that leaves a bucket out
goes back first. -/
def execLeaseGrant (c : Nat) (s : State) : Out :=
  .next (match look s.casts c with
    | none => s
    | some k =>
      let path := ((look s.scenes k.scene).map Scene.path).getD []
      let short := s.leaseShort k
      let back (s : State) : State := if short then (s.returnLease k).onCast c (fun k => { k with lease := 0, leased := [] }) else s
      if path.isEmpty || (k.lease != 0 && !short) || k.st == .listWait then s
      else match (back (s.payOwed k.al)).balances k.al path with
        | .error a => s.seesTo k.al (bitsN a 0 48) 64
        | .ok (s, l) =>
          let g := leaseOf (l.map Prod.snd)
          if g = 0 || l.isEmpty then s
          else (l.foldl (fun s (n, _) => s.nodeAdd k.al n 40 (-(g : Int))) s).onCast c (fun k =>
            { k with lease := g, leased := l.map Prod.fst }))

/-! ### The end of a cast (R39, R224, R336, R350) -/

/-- Whether a cast meets R39, its deferred list aside. -/
def State.castDone (s : State) (cid : Nat) (c : Cast) : Bool :=
  let p := s.plot c.plot
  (c.st == .resident || c.st == .draining) && c.threads.isEmpty && c.seeds.isEmpty && c.ebuf.isEmpty &&
    !p.oplog.any (fun h => h.cid == cid) && !p.copies.any (fun k => k.cid == cid) && !p.script.any (fun k => k.cid == cid) &&
    !p.mxws.any (fun k => k.cid == cid) && c.crews.all (fun w => w.ops.all OutOp.done)

/-- A cast counts as ended (R383): for its scene, or for its firing (R333, R334); its context may go idle (R467). -/
def State.countEnd (s : State) (c : Cast) : State :=
  match c.fire with
  | some f =>
    let s : State := { s with scenes := del s.scenes c.scene }
    ((s.onGraph c.al f.g (fun g => g.endFiring f)).afterFiring c.al f.g).idle c.al c.qn
  | none =>
    (s.onScene c.scene (fun x => { x with nEnd := x.nEnd + 1, digests := put x.digests c.ix c.digest })).idle c.al c.qn

/-- CAST_END (R39): a promotable plot-scope release (R224), the return of its resources, and its count; a cast with deferred
updates returns its resources, and ends once its list is applied (R350). -/
def execCastEnd (c : Nat) (s : State) : Out :=
  .next (match look s.casts c with
    | none => s
    | some k =>
      if s.castDone c k then
        if k.deferred.isEmpty then ((((s.promoBegin k.plot).promoEnd k.plot).leave c k).addClamps k).countEnd { k with st := .ended }
        else (s.leave c k).setCast c { k with
          st := .listWait, scr := [], opd := [], scrBanks := [], opdBanks := [], tiles := []
          reels := Vector.replicate 4 none, lease := 0, leased := [] }
      else s)

/-- The order of deferred updates (R350): key and depth, program order, then a copy's elements. -/
def Deferred.lt (a b : Deferred) : Bool :=
  keyLt a.key a.dep.toNat b.key b.dep.toNat ||
    (a.key == b.key && a.dep == b.dep && (decide (a.ord < b.ord) || (a.ord == b.ord && decide (a.idx < b.idx))))

/-- The update that is applied next. -/
def lowestDeferred (l : List Deferred) : Option Deferred :=
  l.foldl (fun b x => match b with
    | none => some x
    | some y => if x.lt y then some x else some y) none

/-- Applies one deferred update at its place (R233, R256, R350). -/
def State.applyOne (s : State) (cid : Nat) (c : Cast) (d : Deferred) : Except Stop State :=
  let sp := classify s.devnum d.addr
  match resolve s c cid sp .write (if d.acc then .home else viewOf (effScope (acbCeil (s.acb c.al)) sp d.scope.toNat)) with
  | .error e => .error e
  | .ok (s, l, z) =>
    let u : Update := .op (if d.bf then 12 else 11) d.val 0
    if d.acc then
      let (s, o) := s.readAt c.plot .home l z 4
      .ok (s.writeAt c.plot .home l 4 (atomNew (if d.bf then 12 else 11) (BitVec.ofNat 32 o) d.val 0).toNat)
    else .ok (s.update c.plot (viewOf (effScope (acbCeil (s.acb c.al)) sp d.scope.toNat)) l z u).1

/-- Applies a cast's list (R350), `n` updates at most; an access that does not go through keeps the rest, and its record names the cast and
no thread (R417). (Log 26, DEDUCED.) -/
def State.applyList (s : State) (cid : Nat) : Nat → State
  | 0 => s
  | n + 1 =>
    match look s.casts cid with
    | none => s
    | some c =>
      match lowestDeferred c.deferred with
      | none => s
      | some d =>
        match s.applyOne cid c d with
        | .ok s => (s.onCast cid (fun c => { c with deferred := c.deferred.erase d })).applyList cid n
        | .error (.migrating _) => s
        | .error (.fatal code cls info walk) =>
          if s.recFull then s
          else (s.walkedAt c d.addr).fatal cid (threadRec s c 0 none code cls info d.addr (walkAcck walk .atomic))
        | .error (.xlate kind va) =>
          if s.recFull then s else s.resolvable (threadRec s c 0 none .xlate 2 kind d.addr .atomic) c.al c.plot (va / 65536) cid

/-- DEFERRED_LIST_APPLY (R350): after the cast before has counted as ended or has failed. The cast's end is its release (R224). -/
def execDeferredListApply (c : Nat) (s : State) : Out :=
  .next (match look s.casts c with
    | none => s
    | some k =>
      if k.st = .listWait ∧ (s.prevCast k).isNone then
        let s := s.applyList c k.deferred.length
        match look s.casts c with
        | some k =>
          if k.deferred.isEmpty then
            let s := (s.promoBegin k.plot).promoEnd k.plot
            let s : State := { s with casts := del s.casts c }
            (s.addClamps k).countEnd { k with st := .ended }
          else s
        | none => s
      else s)

/-! ### The end of launch (R352, R353, R383) -/

/-- Casts that are reported as not started (R385). -/
def Scene.notStarted (sc : Scene) : Nat := if sc.stopped then descCasts sc.desc - sc.nextC else 0

/-- Failed and not-started casts (R384). -/
def Scene.nFail (sc : Scene) : Nat := sc.fails.length + sc.notStarted

/-- Whether a scene's retired count has reached its number of casts (R383). -/
def Scene.retired (sc : Scene) : Bool := decide (descCasts sc.desc ≤ sc.nEnd + sc.nFail)

/-- The cast digests of a scene in increasing cast index (R352); a cast that never started has 0. -/
def Scene.digestList (sc : Scene) : List DWord := (List.range (descCasts sc.desc)).map (fun i => (look sc.digests i).getD 0)

/-- The scene digest (R352). -/
def sceneDigest (l : List DWord) : DWord := crc64 (l.flatMap (fun d => natBytes 8 d.toNat))

/-- Writes CASTD and SCD (R352). -/
def State.putDigests (s : State) (sc : Scene) (l : List DWord) : Option State :=
  let a := descDigest sc.desc
  let put (s : Option State) (o v : Nat) : Option State := s.bind (fun s => s.scenePut sc.al sc.qn sc.subn (a + o) 8 v false)
  put (put (((List.range l.length).zip l).foldl (fun s (i, d) => put s (32 + 8 * i) d.toNat) (some s)) 16 (sceneDigest l).toNat) 24 0

/-- The scene is launched again in ORDERED mode (R353). -/
def Scene.again (sc : Scene) : Scene :=
  { sc with
    desc := sc.desc - BitVec.ofNat 1024 (descDet sc.desc * 2 ^ 240) + BitVec.ofNat 1024 (2 ^ 240)
    nextC := 0, nEnd := 0, fails := [], stopped := false, digests := [], rerun := true }

/-- Settles a CHECKED scene's digest (R353): the state, and whether a re-run starts. -/
def State.settleDigest (s : State) (sc : Scene) : Option (State × Bool) :=
  let a := descDigest sc.desc
  let put (s : State) (o n v : Nat) : Option State := s.scenePut sc.al sc.qn sc.subn (a + o) n v false
  let l := sc.digestList
  if sc.rerun then (s.putDigests sc l).map (fun s => (s, false))
  else if 0 < sc.nFail then (put s 12 4 0).map (fun s => (s, false))
  else
    (s.putDigests sc l).bind fun s =>
      match s.agentGet sc.al a 12 with
      | .error (.migrating _) => none
      | .error _ => some (s.seesTo sc.al a 12, false)
      | .ok (s, v) =>
        let scd := sceneDigest l
        if bitsN (BitVec.ofNat 96 v) 64 1 = 0 then
          ((put s 0 8 scd.toNat).bind (fun s => put s 8 4 (v / 2 ^ 64 + 1))).bind (fun s => (put s 12 4 2).map (fun s => (s, false)))
        else if v % 2 ^ 64 = scd.toNat then (put s 12 4 1).map (fun s => (s, false))
        else if s.recFull then none
        else (put s 12 4 3).map (fun s =>
          (s.record (sceneRec sc.al sc.qn sc.subn .digest 3 0 (BitVec.ofNat 64 a) .none), true))

/-- END_OF_LAUNCH (R383 steps 1 and 2). -/
def execEndOfLaunch (al sc : Nat) (s : State) : Out :=
  .next (match look s.scenes sc with
    | none => s
    | some x =>
      if x.al = al ∧ x.phase = .running ∧ x.fire.isNone ∧ x.reason = 0 ∧ x.retired then
        let s1 := (s.plotsOf al).foldl (fun s p => s.release p 3) s
        match (if descDet x.desc = 2 ∨ x.rerun then s1.settleDigest x else some (s1, false)) with
        | none => s
        | some (s1, true) => s1.onScene sc Scene.again
        | some (s1, false) =>
          let ord := ((look s1.allots al).map Allot.nSet).getD 0
          (s1.onScene sc (fun x => { x with phase := .settled, setOrd := ord })).onAllot al (fun a => { a with nSet := a.nSet + 1 })
      else s)

/-! ### COMPLETION_RECORD_WRITE (R383, R384) -/

/-- NLIST of a scene's record in a ring of 2^CQLOG slots (R384). -/
def Scene.nList (sc : Scene) (cqlog : Nat) : Nat := min sc.nFail (min 4096 (4 * (2 ^ cqlog - 1)))

/-- STATUS of a scene's record (R384). -/
def Scene.status (sc : Scene) : Nat :=
  if sc.reason ≠ 0 then 2 else if sc.rerun then 3 else if 0 < sc.nFail then 1 else 0

/-- The slots of a scene's completion record, each as a number of 32 bytes (R384). -/
def Scene.slots (sc : Scene) (cqlog : Nat) : List Nat :=
  let n := sc.nList cqlog
  let ents := ((sc.fails.map (fun (e : Nat × BitVec 8) => e.1 + e.2.toNat * 2 ^ 32)) ++ (List.range (min n sc.notStarted)).map (fun i => sc.nextC + i)).take n
  packN [(sc.subn.toNat, 4), (sc.status, 1), (sc.reason, 1), (sc.qn, 1), (if n < sc.nFail then 1 else 0, 1), (sc.nFail, 4), (n, 4), (sc.nEnd, 4)] ::
    (List.range ((n + 3) / 4)).map (fun i => packN ((List.range 4).map (fun j => (ents.getD (4 * i + j) 0, 8))))

/-- Writes the slots of a record from completion index `n` on. -/
def State.putSlots (s : State) (al base cqlog n : Nat) : List Nat → State
  | [] => s
  | v :: r => (s.dpWrite (base + 32 * (n % 2 ^ cqlog)) 32 v al).putSlots al base cqlog (n + 1) r

/-- Whether a scene's record may be written now (R371, R383): CQLOG in range and no ERR set because of it, its turn, and room. -/
def State.recordRoom (s : State) (sc : Scene) : Bool :=
  let cq := s.qword sc.al sc.qn / 256 % 32
  !s.cqBad sc.al sc.qn && !((s.queue sc.al sc.qn).err && (s.queue sc.al sc.qn).errCq) &&
    (s.accepted sc.al sc.qn).all (fun (_, y) => y.phase != .settled || decide (sc.setOrd ≤ y.setOrd)) &&
    decide (idxDiff (s.queue sc.al sc.qn).cqtail.toNat (s.qcb sc.al sc.qn 40 4) + (sc.slots cq).length ≤ 2 ^ cq)

/-- The signal word (R383, step 4). -/
def State.signal (s : State) (sc : Scene) : Option State :=
  let a := descCwaddr sc.desc
  if a = 0 ∨ !(isGlobal a || isCommons a) ∨ a % 4 ≠ 0 then some s
  else s.scenePut sc.al sc.qn sc.subn a 4 (byteN sc.desc 60 4) true

/-- COMPLETION_RECORD_WRITE (R383 steps 3 and 4). -/
def execCompletionRecordWrite (al sc : Nat) (s : State) : Out :=
  .next (match look s.scenes sc with
    | none => s
    | some x =>
      if x.al = al ∧ x.phase = .settled ∧ s.recordRoom x then
        let cq := s.qword al x.qn / 256 % 32
        let t := (s.queue al x.qn).cqtail
        let sl := x.slots cq
        let t' : Word := t + BitVec.ofNat 32 sl.length
        let s1 := s.putSlots al (s.qcb al x.qn 8 8) cq t.toNat sl
        let s1 := (s1.onQueue al x.qn (fun q => { q with cqtail := t' })).setIndex al x.qn 36 t'
        match s1.signal x with
        | none => s
        | some s1 => ({ s1 with scenes := del s1.scenes sc } : State).idle al x.qn
      else s)

/-! ### The watchdog (R386) -/

/-- WDOG (R386): the count has reached WDLIM × 1,024. The record names no thread (R417). -/
def execWdog (c : Nat) (s : State) : Out :=
  .next (match look s.casts c with
    | none => s
    | some k =>
      let lim := ((look s.scenes k.scene).map Scene.wdlim).getD 0
      if lim ≠ 0 ∧ 1024 * lim ≤ k.wdog then
        if s.recFull then s else s.fatal c (threadRec s k 0 none .wdog 1 0 0 .none)
      else s)

/-- Whether a plot cycle is eligible for a cast's watchdog (R386). -/
def State.wdogEligible (s : State) (cid : Nat) (c : Cast) : Bool :=
  c.st == .resident && s.issues c && !(s.plot c.plot).copies.any (fun k => k.cid == cid && k.begun) &&
    !(s.plot c.plot).script.any (fun k => k.cid == cid && k.started) && !c.active

/-- A plot cycle for a cast's watchdog count (R386). -/
def State.wdogCycle (s : State) (cid : Nat) : State :=
  match look s.casts cid with
  | none => s
  | some c =>
    if s.wdogEligible cid c then s.setCast cid { c with wdog := c.wdog + 1 }
    else if c.active then s.setCast cid { c with wdog := 0, active := false }
    else s

/-- Spends one plot-cycle of the leases of a plot's issuing casts, once for the casts of one path (R378). (Log 32, DEDUCED.) -/
def State.spendLeases (s : State) (p : Nat) : State :=
  let l := (s.castsOn p).filterMap (fun (n, c) => if c.lease == 0 || !s.issues c then none else some (n, c.al, c.leased))
  let once := l.foldl (fun (r : List (Nat × Nat × List DWord)) x => if r.any (fun y => y.2 == x.2) then r else r ++ [x]) []
  once.foldl (fun s (n, al, path) =>
    path.foldl (fun s a => s.nodeAdd al a 56 1) (s.onCast n (fun c => { c with lease := c.lease - 1 }))) s

end Sys2Proof.Machine
end

