-- ==== Sys2Proof/Machine/Faults.lean ====
section
/-!
DEFINITION. Fault records and their answers (spec/18 R417 to R420): the rings, the replay of held accesses, and the
failure of a cast by answer.
-/

namespace Sys2Proof.Machine

open Sys2Proof

/-! ### Rings (R417, R420) -/

/-- The code of ACCK (R417). -/
def acckNum : Acck → Nat
  | .none => 0 | .load => 1 | .store => 2 | .atomic => 3 | .fetch => 4 | .walk => 5 | .copyRead => 6 | .copyWrite => 7
  | .outlier => 8 | .commit => 9 | .seedbed => 10 | .slate => 11

/-- The 64 bytes of a fault record, as a number (R417). -/
def FaultRec.bytes (r : FaultRec) : Nat :=
  packN [(r.code.num, 1), (r.cls.toNat + (if r.agent then 4 else 0), 1), (acckNum r.acck, 1), (r.dep.toNat, 1), (r.al.toNat, 2),
    (r.qn.toNat, 1), (0, 1), (r.seq.toNat, 4), (r.subn.toNat, 4), (r.castix.toNat, 4), (r.slot.toNat, 2), (r.plot.toNat, 2),
    (r.iaddr.toNat, 8), (r.faddr.toNat, 8), (bitsN r.key 96 32, 4), (bitsN r.key 64 32, 4), (bitsN r.key 32 32, 4),
    (bitsN r.key 0 32, 4), (r.info.toNat, 4), (r.time.toNat, 4)]

/-- The allotment whose ring also takes a record (R420). -/
def State.ringOf (s : State) (r : FaultRec) : Option Allot := if r.both then look s.allots r.al.toNat else none

/-- FRHEAD, as the block in memory holds it (R420, R422). -/
def State.frhead (s : State) (a : Allot) : Nat := s.dpRead (a.acbA + 0x50) 4 (acbOwner a.acb)

/-- FRLOG of an allotment (R422). -/
def acbFrlog (a : BitVec 1024) : Nat := bitsN a (8 * 0x48) 5

/-- Whether the rings that a record goes to have room (R420): it waits for both, and later records wait behind it.
(Log 97, DESIGN CHOICE.) -/
def State.ringRoom (s : State) (r : FaultRec) : Bool :=
  decide (idxDiff s.win.sfrtail.toNat s.win.sfrhead.toNat < 2 ^ s.win.sfrlog.toNat) &&
    (match s.ringOf r with
    | none => true
    | some a => decide (idxDiff a.frtail.toNat (s.frhead a) < 2 ^ acbFrlog a.acb))

/-- Writes a record to the system ring (R420). -/
def State.putSystemRing (s : State) (r : FaultRec) : State :=
  let t := s.win.sfrtail
  let s := s.dpWrite (s.win.sfrbase.toNat + 64 * (t.toNat % 2 ^ s.win.sfrlog.toNat)) 64 r.bytes
  { s with win := { s.win with sfrtail := t + 1 } }

/-- Writes a record to its allotment's ring, and FRTAIL to the control block (R420, R422). -/
def State.putAllotRing (s : State) (r : FaultRec) : State :=
  match s.ringOf r with
  | none => s
  | some a =>
    let t := a.frtail
    let s := s.dpWrite (byteN a.acb 0x40 8 + 64 * (t.toNat % 2 ^ acbFrlog a.acb)) 64 r.bytes r.al.toNat
    let s := s.onAllot r.al.toNat (fun a => { a with frtail := t + 1 })
    s.dpWrite (a.acbA + 0x4C) 4 (t + 1).toNat r.al.toNat

/-- Threads that wait at issue try again on every plot. -/
def State.retryAll (s : State) : State := s.plots.foldl (fun s (p, _) => s.retry p Wait.room) s

/-- FAULT_RECORD_WRITE (R420): the oldest record, once its rings have room. -/
def execFaultRecordWrite (s : State) : Out :=
  .next (match s.faultQ with
    | [] => s
    | r :: rs =>
      if s.ringRoom r then
        let s : State := { (s.putSystemRing r).putAllotRing r with faultQ := rs }
        s.retryAll
      else s)

/-! ### Replays (R418, R419) -/

/-- Whether an entry belongs to an allotment's page. -/
def State.heldAt (s : State) (al vpn : Nat) (h : Held) : Bool :=
  (look s.casts h.cid).any (fun c => c.al == al) && pageKey s.devnum h.va == some vpn

/-- Replays one entry of a plot's list (R419): an access walks again, and so does the thread's, the committer's, the seedbed's or the
engine's access that the entry stands for. -/
def State.replayOne (s : State) (p : Nat) (h : Held) : State :=
  if h.late then s.performLate p h.id
  else match h.kind with
    | .commit => Out.state (execRecordCommit h.cid (s.unlist p h.id)) s
    | .seed =>
      let s := s.unlist p h.id
      Out.state (execSeedbedRelease h.cid (Out.state (execDisplacement h.cid s) s)) s
    | .copy n =>
      let s := s.unlist p h.id
      match (s.plot p).copies.find? (fun k => k.cid == h.cid && k.op == n) with
      | some k => startCopy s p k
      | none => s
    | .cmd n =>
      let s := s.unlist p h.id
      match (s.plot p).script.findIdx? (fun k => k.id == n) with
      | some i => Out.state (execMatrixCommandRetire p i s) s
      | none => s
    | _ => s.tryHeld p h

/-- Replays a plot's entries of a page, in issue order (R419). -/
def State.replayPage (s : State) (al p vpn : Nat) : State :=
  (((s.plot p).oplog.filter (s.heldAt al vpn)).foldl (fun s h => s.replayOne p h) s).retry p Wait.room

/-- Takes an outstanding record out of the list. -/
def State.takeResolv (s : State) (sq : Word) : Option (Resolv × State) :=
  (s.resolv.find? (fun r => r.seq == sq)).map fun r => (r, { s with resolv := s.resolv.filter (fun x => x.seq != sq) })

/-- FRESP_REPLAY (R419): ACTION 0. A SEQ that is not outstanding is ignored. -/
def execFrespReplay (sq : BitVec 32) (s : State) : Out :=
  .next (match s.takeResolv sq with
    | none => s
    | some (r, s) => s.replayPage r.al r.plot r.vpn)

/-- Fails a saved cast (R419, R392): it leaves the saved context. -/
def State.failSaved (s : State) (al cid : Nat) (code : FCode) : State :=
  match (look s.allots al).bind (fun a => a.saved.findSome? (fun v => v.casts.find? (fun x => x.cid == cid))) with
  | none => s
  | some x =>
    let s := s.onAllot al (fun a => { a with saved := a.saved.map (fun v => { v with casts := v.casts.filter (fun y => y.cid != cid) }) })
    (s.addClamps x.cast).countFail x.cast code

/-- FRESP_FAIL (R419): ACTION 1. The cast that the record names fails; the others' held accesses replay. -/
def execFrespFail (sq : BitVec 32) (s : State) : Out :=
  .next (match s.takeResolv sq with
    | none => s
    | some (r, s) =>
      ((if (look s.casts r.cid).isSome then s.failCast r.cid .xlate else s.failSaved r.al r.cid .xlate)).replayPage r.al r.plot r.vpn)

end Sys2Proof.Machine
end

