-- ==== Sys2Proof/Machine/Preempt.lean ====
section
/-!
DEFINITION. Pre-emption (spec/17 R387 to R394): slice ends, soft and hard saves with the save area, restore, paging out
and recall.
-/

namespace Sys2Proof.Machine

open Sys2Proof

/-! ### The decision at a slice end (R387) -/

/-- The scene or firing that sets a context's priority (R387): of several that share the highest one, the earliest accepted gives SLICE and
DRAIN. (Log 95, DESIGN CHOICE.) -/
def State.topScene (s : State) (al q : Nat) : Option Scene :=
  (firstScene (s.scenes.filter (fun (n, _) => (s.placed al q).any (fun (_, c) => c.scene == n)))).map Prod.snd

/-- SAVEA of a queue (R370). (Log 23, DEDUCED.) -/
def State.savea (s : State) (al q : Nat) : Nat := s.qcb al q 48 8

/-- Whether a context is a candidate that can be pre-empted (R387): resident with a cast placed, a slice, a save area. -/
def State.candidate (s : State) (al q : Nat) : Bool :=
  (s.queue al q).ctxst == 1 && (s.queue al q).draining.isNone && !(s.queue al q).saving && s.savea al q != 0 && (s.topScene al q).any (fun x => x.slice != 0)

/-- Whether a ready scene can place its next cast, or all its casts where it is a COHORT scene. -/
def State.canPlace (s : State) (n : Nat) (sc : Scene) : Bool :=
  if descCohort sc.desc && sc.fire.isNone then (s.placeAll n (descCasts sc.desc - sc.nextC)).isSome else (s.findPlot n sc).isSome

/-- Whether a ready scene of another context, of a higher priority, cannot place its next cast (R387). -/
def State.pressed (s : State) (al q prio : Nat) : Bool :=
  s.scenes.any (fun (n, x) => x.al == al && x.qn != q && decide (prio < x.prio) && s.sceneReady x && !s.canPlace n x)

/-- Whether another candidate is to be pre-empted before this one (R387). -/
def State.betterVictim (s : State) (al q prio : Nat) : Bool :=
  (List.range 64).any (fun r =>
    r != q && s.candidate al r && (s.topScene al r).any (fun x =>
      decide (x.prio < prio) || (x.prio == prio && decide ((s.queue al r).candAt < (s.queue al q).candAt))))

/-- Soft pre-emption (R388): no cast of the context is placed any further, and each running cast drains. -/
def State.startDrain (s : State) (al q lim : Nat) : State :=
  let s : State := { s with casts := s.casts.map (fun (n, c) =>
    (n, if c.al = al ∧ c.qn = q ∧ c.st = .resident then { c with st := .draining } else c)) }
  s.onQueue al q (fun x => { x with draining := some 0, drainLim := lim })

/-! ### Step 2 of a hard save: what was issued completes (R389, R205, R259, R273) -/

/-- Lets a thread's results return, from the last to the first; those that wait for a held access or a saved command stay. -/
def State.returnAll (s : State) (cid : Nat) : State :=
  match look s.casts cid with
  | none => s
  | some c =>
    c.threads.foldl (fun s (i, t) =>
      (List.range t.flights.length).foldr (fun n s => (execPendingResultReturn cid i n s).state s) s) s

/-- The CP operations of withdrawn copies leave their counter (R389). -/
def Cast.uncount (c : Cast) (ks : List Copy) : Cast :=
  { c with crews := c.crews.map (fun w => { w with ops := w.ops.filter (fun o => !ks.any (fun k => k.op == o.id)) }) }

/-- Withdraws a copy that waits to reserve a reel entry, with every later copy of its cast (R389). -/
def State.withdraw (s : State) (p : Nat) (k : Copy) : State :=
  let l := ((s.plot p).copies.dropWhile (fun x => !(x.cid == k.cid && x.op == k.op))).filter (fun x => x.cid == k.cid)
  (s.onCast k.cid (fun c => { c.uncount l with withdrawn := c.withdrawn ++ l })).onPlot p (fun q =>
    { q with copies := q.copies.filter (fun x => !(x.cid == k.cid && l.any (fun y => y.op == x.op))) })

/-- Whether a copy can go on only once a reel entry frees. -/
def needsEntry (s : State) (k : Copy) : Bool := (copyReserve s k).isNone

/-- Runs the copies of a plot in order, retires those of the casts `cids`, and withdraws theirs that wait to reserve a reel entry, until
none of them can go on (R389): at most `n` moves. -/
def State.drainCopies (s : State) (p : Nat) (cids : List Nat) : Nat → State
  | 0 => s
  | n + 1 =>
    match (s.plot p).copies.find? (fun k => cids.contains k.cid && k.started) with
    | some k => (retireCopy s p k).drainCopies p cids n
    | none =>
      if !(s.plot p).copies.any (fun k => cids.contains k.cid) then s
      else match (s.plot p).copies.find? (fun k => copyReady s p k) with
        | none => s
        | some k =>
          if !needsEntry s k then (startCopy s p k).drainCopies p cids n
          else if cids.contains k.cid then (s.withdraw p k).drainCopies p cids n
          else s

/-- Runs a cast's started matrix commands to their end, in order (R273). -/
def State.drainCommands (s : State) (p cid : Nat) : Nat → State
  | 0 => s
  | n + 1 =>
    match (s.plot p).script.findIdx? (fun k => k.cid == cid && k.started && !(s.plot p).cmdHeld k) with
    | none => s
    | some i => ((execMatrixCommandRetire p i s).state s).drainCommands p cid n

/-- Step 2 of a hard save for one cast of those that are saved (R389). (Log 16, DEDUCED.) -/
def State.drainCast (s : State) (cids : List Nat) (cid : Nat) : State :=
  match look s.casts cid with
  | none => s
  | some c =>
    let p := c.plot
    let s := s.performAll p (s.plot p).oplog.length
    let s := s.drainCopies p cids (3 * (s.plot p).copies.length + 1)
    let s := s.drainCommands p cid (s.plot p).script.length
    let s := s.settleCells p
    let s := c.threads.foldl (fun s (i, _) =>
      match (s.thread? ⟨cid, i⟩).bind Thread.arrival with
      | some a => (match a.fixed with | some fx => runFixed s cid fx | none => s)
      | none => s) s
    let s := s.returnAll cid
    let s := s.onCast cid (fun c => { c with crews := c.crews.map (fun w => { w with ops := w.ops.filter (fun o => !o.done) }) })
    if (look s.casts cid).any (s.castDone cid) then (execCastEnd cid s).state s else s

/-- Whether a command of a plot's script can start, or go on. -/
def State.scriptMoves (s : State) (p : Nat) : Bool :=
  (s.plot p).script.any (fun k => k.started && !(s.plot p).cmdHeld k) ||
    (List.range (s.plot p).script.length).any (fun i => decide (Out.state (execMatrixCommandStart p i s) s ≠ s))

/-- Whether a fixed set of a cast is still to complete before a save (R205): not one that a translation fault holds in the operand log
(R389), and not one that can go on only with another cast's step (R349) or a thread's act. (Log 16, DEDUCED.) -/
def State.fixedGoes (s : State) (cid : Nat) (c : Cast) (fx : FixedSet) : Bool :=
  match s.ctxAt ⟨cid, fx.parts.headD 0⟩ with
  | none => false
  | some low =>
    match low.t.arrival with
    | none => false
    | some a =>
      !collHeld s low fx && (s.setWait cid c fx).isNone &&
        (match performColl s low a.instr fx with
        | .error (_, .wait) => s.scriptMoves c.plot
        | _ => true)

/-- Whether step 2 of a hard save waits for a cast (R389): a copy that is neither in the operand log nor withdrawn, a started command, a
fixed collective (R205), or an access that is put off, of those that `f` picks. -/
def State.draining (s : State) (cid : Nat) (f : Held → Bool := fun _ => true) : Bool :=
  match look s.casts cid with
  | none => false
  | some c =>
    let q := s.plot c.plot
    q.copies.any (fun k => k.cid == cid && !q.copyHeld k) || q.script.any (fun k => k.cid == cid && k.started && !q.cmdHeld k) ||
      q.oplog.any (fun h => h.cid == cid && h.late && f h) ||
      (List.range c.crews.length).any (fun w => (c.fixedSets w).any (s.fixedGoes cid c))

/-- Whether an access is an ACQP that waits only for plots that are being saved (R230): their logs are drained after step 2. -/
def State.waitsSave (s : State) (al : Nat) (h : Held) : Bool :=
  match h.kind with
  | .acqpGo n _ => s.plots.all (fun (p, q) => !q.preqs.any (fun r => r.n == n) || s.plotSaving p al)
  | _ => false

/-- Step 2 of a hard save for some casts (R389). -/
def State.drainAll (s : State) (cids : List Nat) : State := cids.foldl (fun s c => s.drainCast cids c) s

/-- The promotion requests of an allotment at a plot whose log a save has drained complete, and count nothing (R230). -/
def State.serveSaved (s : State) (al p : Nat) : State :=
  let ns := ((s.plot p).preqs.filter (fun r => r.al == al)).map PromReq.n
  ns.foldl (fun s n => match s.acqpOf n with
    | some (p, id) => s.performLate p id
    | none => s) (s.onPlot p (fun q => { q with preqs := q.preqs.filter (fun r => r.al != al) }))

/-- Step 3 of a hard save on the plots that a context is resident on (R389, R230): each drains its promotion log and writes back its dirty
lines, and then the requests of the allotment there are served. -/
def State.drainPlots (s : State) (al q : Nat) : State :=
  ((s.plots.filter (fun (_, p) => p.ctx.contains (al, q))).map Prod.fst).foldl
    (fun s p => ((s.flushPlot p).onPlot p (fun x => { x with log := [] })).serveSaved al p) s

/-! ### What is saved of a cast (R391) -/

/-- The cells of a cast's tiles, by logical tile. -/
def savedCells (p : Plot) (tiles : List Nat) : List (Nat × Word) :=
  p.tiles.filterMap (fun (n, v) => if tiles.contains (n / 16384) then some (tiles.idxOf (n / 16384) * 16384 + n % 16384, v) else none)

/-- The saved form of a cast, after step 2 (R389, R391). A command that has met a translation fault starts again at the restore, and
keeps its reel entry. -/
def State.savedCast (s : State) (cid : Nat) (c : Cast) : SavedCast :=
  let p := s.plot c.plot
  let cs := (p.script.filter (fun k => k.cid == cid)).map (fun k => { k with started := false })
  { cid := cid, cast := { c with withdrawn := [] }, ioff := 0, isize := 0, cells := savedCells p c.tiles
    begun := p.copies.filter (fun k => k.cid == cid), copies := c.withdrawn, cmds := cs
    mxws := p.mxws.filter (fun w => w.cid == cid), held := p.oplog.filter (fun h => h.cid == cid)
    weights := if cs.any (fun k => k.b.kind == 1) then some (p.wfmt, p.wrows) else none }

/-- A section's size, padded to a multiple of 128 (R391). -/
def pad128 (n : Nat) : Nat := (n + 127) / 128 * 128

/-- The sizes of an image's sections, the check aside (R391). -/
def SavedCast.sections (x : SavedCast) : List Nat :=
  let d := x.cast.desc
  [1024, 64 * x.cast.crews.length, (128 + 4 * descBudget d) * x.cast.threads.length,
    32 * (x.held.filter (fun h => h.kind != .wait)).length, 32 * x.cast.ebuf.length, 160 * x.copies.length,
    if x.weights.isSome then 16384 else 0, 32768 * (descScnt d + descOcnt d), 65536 * descAcnt d]

/-- The size of an image before its check section, which takes 128 bytes (R391). -/
def SavedCast.body (x : SavedCast) : Nat := (x.sections.map pad128).sum

/-- The bytes of an image before its check: each section's own bytes, then zeros up to a multiple of 128 (R391).
(Log 33, DESIGN CHOICE.) -/
def imageBytes (num cid : Nat) : Nat → List Nat → List Byte
  | _, [] => []
  | o, n :: r =>
    (List.range n).map (fun i => Config.imageByte num cid (o + i)) ++ List.replicate (pad128 n - n) 0 ++ imageBytes num cid (o + pad128 n) r

/-- Places the images one after another from an offset on (R390, R391). -/
def placeImages : Nat → List SavedCast → List SavedCast
  | _, [] => []
  | o, x :: r => { x with ioff := o, isize := x.body + 128 } :: placeImages (o + x.body + 128) r

/-- Writes bytes of an allotment's save area from a physical address on. -/
def State.dpBytes (s : State) (al a : Nat) : List Byte → State
  | [] => s
  | b :: r => (s.dpWrite a 1 b.toNat al).dpBytes al (a + 1) r

/-- Writes an image and its check, padded with zeros (R391). -/
def State.putImage (s : State) (al a num : Nat) (x : SavedCast) : State :=
  let bs := imageBytes num x.cid 0 x.sections
  (s.dpBytes al (a + x.ioff) bs).dpWrite (a + x.ioff + x.body) 128 (crc64 bs).toNat al

/-- A scene record (R391). -/
def sceneRecord (x : Scene) : Nat :=
  packN [(x.desc.toNat, 128), (x.nextC, 4), (x.nEnd, 4), (x.nFail, 4), (x.subn.toNat, 4), (x.qn, 1)]

/-- A cast directory entry (R391). `recs` are the scenes that have records. -/
def State.dirEntry (s : State) (recs : List Nat) (x : SavedCast) : Nat :=
  let g := (x.cast.fire.bind (fun f => s.graph? x.cast.al f.g)).map Graph.addr
  packN [(x.cast.ix, 4), (if x.cast.fire.isNone && recs.contains x.cast.scene then recs.idxOf x.cast.scene else 0xFF, 1),
    (if x.cast.st = .draining then 2 else 1, 1), (s.relPlot x.cast.al x.cast.plot, 2), (x.ioff, 8), (x.isize, 8), (g.getD 0, 8)]

/-- Writes entries of a fixed size one after another. -/
def State.putEntries (s : State) (al a sz : Nat) : List Nat → State
  | [] => s
  | v :: r => (s.dpWrite a sz v al).putEntries al (a + sz) sz r

/-- Writes a save area (R390, R391): the images, the directory, the scene records and the plot table, then the header. It
answers the placed casts and the bytes used. A scene whose last cast has ended has no record (R394). -/
def State.putArea (s : State) (al q : Nat) (hard : Bool) (xs : List SavedCast) : State × List SavedCast × Nat :=
  let a := s.savea al q
  let (num, s) : Nat × State := (s.freeCtr, { s with freeCtr := s.freeCtr + 1 })
  let recs := ((s.accepted al q).filter (fun (_, x) => x.phase == .running && !x.retired)).take 16
  let plots := (s.plots.map Prod.fst).filter (fun p => xs.any (fun x => x.cast.plot == p))
  let coff := 64 + 192 * recs.length
  let poff := coff + 32 * xs.length
  let xs := placeImages (poff + 16 + 16 * plots.length) xs
  let size := xs.foldl (fun n x => max n (x.ioff + x.isize)) (poff + 16 + 16 * plots.length)
  let s := xs.foldl (fun s x => s.putImage al a num x) s
  let s := s.putEntries al (a + 64) 192 (recs.map (fun (_, x) => sceneRecord x))
  let s := s.putEntries al (a + coff) 32 (xs.map (s.dirEntry (recs.map Prod.fst)))
  let s := (s.dpWrite (a + poff) 16 plots.length al).putEntries al (a + poff + 16) 16 (plots.map (fun p =>
    packN [(s.relPlot al p, 2), (0, 2), ((s.plot p).rseq.toNat, 4), ((s.plot p).proms.toNat, 4), ((s.plot p).mxseq.toNat, 4)]))
  let s := s.dpWrite a 64 (packN [(0x53415631, 4), (1, 4), (if hard then 2 else 1, 1), (recs.length, 1), (0, 2), (xs.length, 4), (size, 8),
    (64, 8), (coff, 8), (poff, 8)]) al
  (s, xs, size)

/-- Takes a saved cast off its plot (R389 step 5): its resources and its unspent lease return. -/
def State.unplace (s : State) (x : SavedCast) : State :=
  let s := s.returnLease x.cast
  let s := s.onPlot x.cast.plot (fun p => p.dropCast x.cid x.cast)
  let s : State := { s with casts := del s.casts x.cid }
  s.retry x.cast.plot (fun w => w.room || w.emitRoom)

/-- A cast that cannot be saved fails with MEMERR (R390). -/
def State.saveFails (s : State) (cid : Nat) (a : Nat) : State :=
  match look s.casts cid with
  | none => s
  | some c => s.fatal cid (threadRec s c 0 none .memerr 1 0 (BitVec.ofNat 64 a) .none)

/-- Whether a save area cannot be written: none, or misaligned (R390). -/
def badArea (a : Nat) : Bool := a == 0 || a % 4096 != 0

/-- The casts of some that their save area cannot take fail, as far as there is room for their records (R390, R420). -/
def State.failUnsaved (s : State) (cids : List Nat) : State :=
  cids.foldl (fun s n =>
    match look s.casts n with
    | some c => if badArea (s.savea c.al c.qn) && !s.recFull then s.saveFails n (s.savea c.al c.qn) else s
    | none => s) s

/-- The casts of some that live and that their save area cannot take. -/
def State.unsaved (s : State) (cids : List Nat) : Bool :=
  cids.any (fun n => (look s.casts n).any (fun c => badArea (s.savea c.al c.qn)))

/-- Steps 3 and 4 of a hard save for some casts of a context, which step 2 has left (R389), without taking them off. -/
def State.saveCasts (s : State) (al q : Nat) (cids : List Nat) : State × List SavedCast × Nat :=
  if badArea (s.savea al q) then (s, [], 0)
  else
    let ps := (cids.filterMap (fun n => (look s.casts n).map Cast.plot)).eraseDups
    let s := ps.foldl (fun s p => (s.flushPlot p).onPlot p (fun x => { x with log := [] })) s
    let xs := cids.filterMap (fun n => (look s.casts n).map (fun c => s.savedCast n c))
    s.putArea al q true xs

/-- The casts of a context that hold places, by number. -/
def State.placedIds (s : State) (al q : Nat) : List Nat := (s.placed al q).map Prod.fst

/-- Steps 3 to 5 of a hard save, once step 2 is over (R389): the casts that live on are saved, and leave their plots; the context is off
every plot. -/
def State.finishSave (s : State) (al q : Nat) : State :=
  let (s, xs, size) := s.saveCasts al q (s.placedIds al q)
  let s := s.offPlots al q
  let ps := (xs.map (fun x => x.cast.plot)).eraseDups
  let turns := ps.filterMap (fun p =>
    if xs.any (fun x => x.cast.plot == p && descDet x.cast.desc == 1) then some (p, (s.plot p).turn) else none)
  let s := xs.foldl State.unplace s
  let s := s.onAllot al (fun a =>
    { a with saved := a.saved.filter (fun v => v.qn != q) ++ [{ qn := q, casts := xs, turns := turns, size := size, nvme := none }] })
  ((s.onQueue al q (fun x => { x with draining := none, saving := false })).setCtxst al q 2).idle al q

/-- Hard pre-emption of a context (R389): issue stops, and step 2 goes as far as it can; where a cast still waits, for a page under
migration, for another context's copy, for a promotion, or for room for a record, the save goes on later. -/
def State.hardSave (s : State) (al q : Nat) : State :=
  let s := s.onQueue al q (fun x => { x with saving := true })
  let s := s.drainAll (s.placedIds al q)
  if (s.placedIds al q).any (fun c => s.draining c (fun h => !s.waitsSave al h)) then s
  else
    let s := s.drainPlots al q
    let s := s.drainAll (s.placedIds al q)
    let s := if (s.placedIds al q).any s.draining then s else s.failUnsaved (s.placedIds al q)
    if (s.placedIds al q).any s.draining || s.unsaved (s.placedIds al q) then s else s.finishSave al q

/-- The slice of every other candidate of the allotment that has ended too starts again: one decision is made for them all (R387, R394). -/
def State.sliceTogether (s : State) (al qn : Nat) : State :=
  (List.range 64).foldl (fun s q =>
    if q != qn && s.candidate al q && (s.topScene al q).any (fun x => decide ((s.queue al q).since + 1024 * x.slice ≤ s.dieClk.toNat)) then
      s.onQueue al q (fun x => { x with since := s.dieClk.toNat })
    else s) s

/-- SLICE_END (R387, R388): the decision about one candidate whose slice has ended. With DRAIN 0 hard pre-emption follows at
once. -/
def execSliceEnd (al qn : Nat) (s : State) : Out :=
  .next (match s.topScene al qn with
    | none => s
    | some top =>
      if (s.queue al qn).ctxst ≠ 1 ∨ (s.queue al qn).draining.isSome ∨ (s.queue al qn).saving ∨ top.slice = 0 ∨
          s.dieClk.toNat < (s.queue al qn).since + 1024 * top.slice then s
      else if s.candidate al qn && s.pressed al qn top.prio && !s.betterVictim al qn top.prio then
        let s := s.sliceTogether al qn
        if top.drain = 0 then s.hardSave al qn else s.startDrain al qn (1024 * top.drain)
      else s.onQueue al qn (fun x => { x with since := s.dieClk.toNat }))

/-- SOFT_SAVE_COMPLETE (R388): every cast has ended within the limit; a save area of the scene records only. -/
def execSoftSaveComplete (al qn : Nat) (s : State) : Out :=
  .next (if (s.queue al qn).draining.isSome ∧ (s.placed al qn).isEmpty then
      let s := s.offPlots al qn
      let (s, _, size) := s.putArea al qn false []
      let s := s.onAllot al (fun a =>
        { a with saved := a.saved.filter (fun v => v.qn != qn) ++ [{ qn := qn, casts := [], turns := [], size := size, nvme := none }] })
      ((s.onQueue al qn (fun x => { x with draining := none })).setCtxst al qn 2).idle al qn
    else s)

/-- HARD_PREEMPTION (R389): the drain limit has expired with casts still resident, or a hard save goes on. -/
def execHardPreemption (al qn : Nat) (s : State) : Out :=
  .next (if (s.queue al qn).saving then s.hardSave al qn
    else match (s.queue al qn).draining with
    | some n => if (s.queue al qn).drainLim ≤ n ∧ !(s.placed al qn).isEmpty then s.hardSave al qn else s
    | none => s)

/-! ### Restore (R392) -/

/-- A physical cell on the tiles claimed at a restore, from the tiles held at the save. -/
def moveCell (old new : List Nat) (n : Nat) : Nat := new.getD (old.idxOf (n / 16384)) 0 * 16384 + n % 16384

/-- How a restore renumbers saved commands, and moves cells. -/
structure Relabel where
  /-- numbers of saved commands and cell operations -/
  nums : List Nat
  shift : Nat
  old : List Nat
  new : List Nat

/-- The number of a saved command or cell operation after the restore. -/
def Relabel.num (r : Relabel) (n : Nat) : Nat := if r.nums.contains n then n + r.shift else n
/-- A cell after the restore. -/
def Relabel.cell (r : Relabel) (n : Nat) : Nat := moveCell r.old r.new n

/-- A flight of a restored thread. -/
def Relabel.flight (r : Relabel) (f : Flight) : Flight :=
  match f.src with
  | .mxr n c after => { f with src := .mxr (n + r.shift) (r.cell c) (after.map r.num) }
  | .mxrn n c => { f with src := .mxrn (n + r.shift) (r.cell c) }
  | _ => f

/-- A restored thread (R44, R169, R239): registers from x(BUDGET) on read as zero, and a WAITA loads again. -/
def Relabel.thread (r : Relabel) (budget : Nat) (t : Thread) : Thread :=
  { t with
    x := (Vector.range 64).zipWith (fun i v => if i < budget then v else 0) t.x
    flights := t.flights.map r.flight
    st := match t.st with
      | .blocked (.waita w) => .blocked (.waita { w with woken := true })
      | st => st }

/-- A restored command. -/
def Relabel.cmd (r : Relabel) (k : MxCmd) : MxCmd :=
  { k with id := k.id + r.shift, preds := k.preds.map r.num, seen := k.seen.map (fun (c, n) => (r.cell c, n)) }

/-- A restored entry of the operand log. -/
def Relabel.held (r : Relabel) (h : Held) : Held :=
  match h.kind with
  | .cmd n => { h with kind := .cmd (r.num n) }
  | _ => h

/-- A restored MXW. -/
def Relabel.mxw (r : Relabel) (w : PendMxw) : PendMxw :=
  { w with seq := w.seq + r.shift, cell := r.cell w.cell, after := w.after.map r.num }

/-- The relatch of saved weights: a WLOAD appended by the restored cast (R273). -/
def relatch (x : SavedCast) (c : Cast) (id : Nat) (w : BitVec 8 × List Nat) : MxCmd :=
  { id := id, cid := x.cid, slot := 0, crew := 0, op := c.nextOp, pc := 0, key := 0, dep := 0, block := 0
    raw := BitVec.ofNat 512 (w.1.toNat * 2 ^ 16 + 0xFFFF * 2 ^ 32 + 0xFFFF * 2 ^ 48 + 0xFFFF * 2 ^ 64)
    opnd := 0, pitch := 0, mode := 0, rows := w.2, preds := [], started := false, entry := none, seen := [] }

/-- The pages of a restored cast's held accesses that no outstanding record covers: a response has come meanwhile (R419).
(Log 34, DEDUCED.) -/
def State.answered (s : State) (x : SavedCast) : List Nat :=
  (x.held.filterMap (fun h => pageKey s.devnum h.va)).eraseDups.filter (fun v =>
    !s.resolv.any (fun e => e.al == x.cast.al && e.plot == x.cast.plot && e.vpn == v))

/-- The format of the last WLOAD among commands: of a plot's own script, or of one that a lead plot's fused command feeds (R266, R271). -/
def lastWload (cmds : List MxCmd) (fused : Bool) : Option Nat :=
  (cmds.filter (fun k => k.b.kind == 0 && (!fused || k.b.fuse != 0))).getLast?.map (fun k => k.b.fmt)

/-- Sets the format of the last WLOAD of a plot, where there is one (R266). -/
def State.setWlast (s : State) (p : Nat) (f : Option Nat) : State :=
  match f with
  | some n => s.onPlot p (fun q => { q with wlast := BitVec.ofNat 8 n })
  | none => s

/-- Restores one cast to its plot and slots (R392): `base` numbers its relatch, and `nums` are the saved commands and cell operations of
all the casts of the context, whose order stays (R273). (Log 33, DESIGN CHOICE.) -/
def State.restoreCast (s : State) (base shift : Nat) (nums : List Nat) (x : SavedCast) : State :=
  let c := x.cast
  let p := c.plot
  let banks := (s.plot p).freeBanks
  let tiles := (s.freeTiles p).take (descAcnt c.desc)
  let r : Relabel := { nums := nums, shift := shift, old := c.tiles, new := tiles }
  let ops := x.copies.map (fun k => ({ id := k.op, cls := OpClass.cp, slot := k.slot, done := false } : OutOp))
  let c1 : Cast :=
    { c with
      st := .resident
      bars := c.bars.map (fun b => { b with cells := b.cells.map (· + shift) })
      scrBanks := banks.take (descScnt c.desc), opdBanks := (banks.drop (descScnt c.desc)).take (descOcnt c.desc), tiles := tiles
      threads := c.threads.map (fun (i, t) => (i, r.thread (descBudget c.desc) t))
      crews := (List.range c.crews.length).zip c.crews |>.map (fun (i, w) => { w with ops := w.ops ++ ops.filter (fun o => o.slot / 32 == i) })
      wload := false, lease := 0, leased := [], nextOp := c.nextOp + 1 }
  let s := s.arrive x.cid c1
  let s := s.onPlot p (fun q =>
    { q with
      tiles := q.tiles ++ x.cells.map (fun (n, v) => (tiles.getD (n / 16384) 0 * 16384 + n % 16384, v))
      script := q.script ++ (x.weights.map (relatch x c base)).toList ++ x.cmds.map r.cmd
      cids := q.cids.map (fun (k, n) => (k, r.num n))
      mxws := q.mxws ++ x.mxws.map r.mxw
      oplog := q.oplog ++ x.held.map r.held })
  match x.weights with
  | some w => s.noteWload p w.1.toNat
  | none => s

/-- Inserts a command by its number. -/
def insCmd (k : MxCmd) : List MxCmd → List MxCmd
  | [] => [k]
  | j :: r => if k.id < j.id then k :: j :: r else j :: insCmd k r

/-- Inserts a copy by its place in the issue order. -/
def insCopy (k : Copy) : List Copy → List Copy
  | [] => [k]
  | j :: r => if k.seq < j.seq then k :: j :: r else j :: insCopy k r

/-- Copies in their issue order. -/
def bySeq (l : List Copy) : List Copy := l.foldl (fun r k => insCopy k r) []

/-- The copies of restored casts go to their plots' engines (R259, R392): those that had begun stand at their own places in the issue
order, and the withdrawn ones are issued again, in their original order. -/
def State.restoreCopies (s : State) (xs : List SavedCast) : State :=
  let place (k : Copy) (s : State) : State :=
    match look s.casts k.cid with
    | some c => s.onPlot c.plot (fun q => { q with copies := insCopy k q.copies })
    | none => s
  let s := (xs.flatMap SavedCast.begun).foldl (fun s k => place k s) s
  (bySeq (xs.flatMap SavedCast.copies)).foldl (fun s k =>
    place { k with seq := s.nextReq } { s with nextReq := s.nextReq + 1 }) s

/-- After the casts of a context are restored: their copies stand in their engines, each plot's script stands in the order of its numbers, the relatches before the saved
commands (R273), the last WLOAD of it gives the class that R266 asks of an MMA, and the accesses whose answers have come replay. -/
def State.restored (s : State) (xs : List SavedCast) : State :=
  let ps := (xs.map (fun x => x.cast.plot)).eraseDups
  let s := s.restoreCopies xs
  let s := ps.foldl (fun s p => s.onPlot p (fun q => { q with script := q.script.foldl (fun l k => insCmd k l) [] })) s
  let s := ps.foldl (fun s p => s.setWlast p (lastWload (s.plot p).script false)) s
  let s := xs.foldl (fun s x => x.cmds.foldl (fun s k =>
    match fusePartner x.cast.plot k.b.fuse with
    | some q => s.setWlast q (lastWload [k] true)
    | none => s) s) s
  xs.foldl (fun s x => ((s.answered x).foldl (fun s v => s.replayPage x.cast.al x.cast.plot v) s).retry x.cast.plot Wait.room) s

/-- Whether the check of an image in memory matches (R392). -/
def State.imageOk (s : State) (a : Nat) (x : SavedCast) : Bool :=
  let al := x.cast.al
  let n := x.isize - 128
  (crc64 ((List.range n).map (fun i => BitVec.ofNat 8 (s.dpRead (a + x.ioff + i) 1 al)))).toNat == s.dpRead (a + x.ioff + n) 8 al

/-- The numbers of the saved commands and cell operations of some casts. -/
def savedNums (xs : List SavedCast) : List Nat := xs.flatMap (fun x => x.cmds.map MxCmd.id ++ x.mxws.map PendMxw.seq)

/-- Restores saved casts in order, with fresh numbers in the old order. -/
def State.restoreCasts (s : State) (xs : List SavedCast) : State :=
  let base := s.nextReq
  let shift := base + xs.length
  let s : State := { s with nextReq := base + shift + 1 }
  (((List.range xs.length).zip xs).foldl (fun s (i, x) => s.restoreCast (base + i) shift (savedNums xs) x) s).restored xs

/-- A saved cast whose image does not match fails (R392). -/
def State.failImage (s : State) (a : Nat) (x : SavedCast) : State :=
  let s := s.record (threadRec s x.cast 0 none .memerr 1 0 (BitVec.ofNat 64 (a + x.ioff)) .none)
  (s.addClamps x.cast).countFail x.cast .memerr

/-- The first saved casts of some whose images do not match fail, as far as there is room for their records (R392, R420): the state, and
the casts that are left. -/
def State.failImages (s : State) (a : Nat) : List SavedCast → State × List SavedCast
  | [] => (s, [])
  | x :: r =>
    if s.imageOk a x || s.recFull then
      let (t, l) := s.failImages a r
      (t, x :: l)
    else (s.failImage a x).failImages a r

/-- Whether every plot can take the saved casts again (R392). -/
def State.canRestore (s : State) : List SavedCast → Bool
  | [] => true
  | x :: r => s.canTake x.cast.plot x.cast.scene x.cast.desc && (s.restoreCast 0 0 [] x).canRestore r

/-- Gives a plot its saved turn back (R355); where the holder's cast is not restored, the turn passes from where it stood. -/
def State.restoreTurn (s : State) (p : Nat) (t : TurnSt) : State :=
  s.onPlot p (fun q => { q with turn := if t.holder.all (fun h => (look s.casts h.1).isSome) then t else { last := t.last } })

/-- CONTEXT_RESTORE (R392): its queue has a ready scene or saved casts, and the plots can take them. A context whose only work is a graph
that runs, with no saved cast and no started firing that waits, is not restored (R339). (Log 94, DESIGN CHOICE.) -/
def execContextRestore (al qn : Nat) (s : State) : Out :=
  .next (match (look s.allots al).bind (fun a => a.saved.find? (fun v => v.qn == qn)) with
    | none => s
    | some v =>
      let ready := s.scenes.any (fun (_, x) => x.al == al && x.qn == qn && x.queued && s.readyButContext x)
      if (s.queue al qn).ctxst = 2 ∧ (!v.casts.isEmpty || ready) ∧ s.canRestore v.casts then
        let (s, l) := s.failImages (s.savea al qn) v.casts
        let s := s.onAllot al (fun a => { a with saved := a.saved.map (fun w => if w.qn = qn then { w with casts := l } else w) })
        if !l.all (s.imageOk (s.savea al qn)) then s
        else
          let s := s.onAllot al (fun a => { a with saved := a.saved.filter (fun v => v.qn != qn) })
          let s := (s.onQueue al qn (fun x => { x with since := s.dieClk.toNat, candAt := s.dieClk.toNat })).setCtxst al qn 1
          let s := s.restoreCasts l
          let s := v.turns.foldl (fun s (p, t) => s.restoreTurn p t) s
          s.idle al qn
      else s)

/-! ### Paging (R393) -/

/-- The key that an allotment's key slot holds (R412). -/
def State.slotKey (s : State) (al : Nat) : Nat := (look s.keys (acbKey (s.acb al))).getD 0

/-- PAGE_OUT (R393): the save area goes to the allotment's NVMe namespace, encrypted under the allotment's key; CTXST is 3. Its lines are
transferred for the allotment, which owns them (R427).
(Log 34, DEDUCED.) -/
def execPageOut (al qn : Nat) (s : State) : Out :=
  .next (match (look s.allots al).bind (fun a => a.saved.find? (fun v => v.qn == qn)) with
    | none => s
    | some v =>
      if (s.queue al qn).ctxst = 2 then
        let a := s.savea al qn
        let bs := (List.range v.size).map (fun i => BitVec.ofNat 8 (s.dpRead (a + i) 1 al))
        let s := s.onAllot al (fun x =>
          { x with saved := x.saved.map (fun w => if w.qn = qn then { w with nvme := some (bs, s.slotKey al) } else w) })
        let s := s.charge (memArb a) (.move al) ((v.size + 127) / 128)
        (s.onQueue al qn (fun x => { x with recalled := false })).setCtxst al qn 3
      else s)

/-- The bytes that a save area's read from the NVMe namespace gives: what was written, where the slot still holds the key; under another
key the spec states no value, and each byte is a free one (log 3, DESIGN CHOICE). -/
def State.pageIn (s : State) (al : Nat) (v : Option (List Byte × Nat)) : State × List Byte :=
  match v with
  | none => (s, [])
  | some (bs, k) =>
    if k = s.slotKey al then (s, bs)
    else ({ s with freeCtr := s.freeCtr + bs.length },
      (List.range bs.length).map (fun i => BitVec.ofNat 8 (Config.freeValue (s.freeCtr + i))))

/-- CONTEXT_RECALL (R393): a write of TAIL or RESV has asked for the context; the save area is read back to SAVEA, and CTXST
goes to 4 and then to 2. -/
def execContextRecall (al qn : Nat) (s : State) : Out :=
  .next (match (look s.allots al).bind (fun a => a.saved.find? (fun v => v.qn == qn)) with
    | none => s
    | some v =>
      if (s.queue al qn).ctxst = 3 ∧ (s.queue al qn).recalled then
        let s := s.setCtxst al qn 4
        let (s, bs) := s.pageIn al v.nvme
        let s := s.dpBytes al (s.savea al qn) bs
        let s := s.onAllot al (fun x => { x with saved := x.saved.map (fun w => if w.qn = qn then { w with nvme := none } else w) })
        (s.setCtxst al qn 2).idle al qn
      else s)

end Sys2Proof.Machine
end

