-- ==== Sys2Proof/Machine/Window.lean ====
section
/-!
DEFINITION. The memory-system window (spec/18 R404 to R414): frame commands and scrubbing, invalidation of translations,
page migration, and key slots. A write to a command register while its BUSY is 1 waits (R411):
the event then does not happen yet, and the state stays.
-/

namespace Sys2Proof.Machine

open Sys2Proof

/-- Whether the memory-system window can be reached: from stage 6 of bring-up on (R456), until a shutdown. -/
def State.windowUp (s : State) : Bool := decide (6 ≤ s.mg.stage) && !s.mg.failed && !s.mg.down

/-- What a write to a command register does: nothing while the window cannot be reached or the command's BUSY is 1 (R411).
(Log 10, DESIGN CHOICE.) -/
def State.command (s : State) (busy : Bool) (f : State → State) : State := if s.windowUp && !busy then f s else s

/-! ### Frame commands (R407 to R409) -/

/-- A frame that FCMD accepts (R407): populated, and not one of those that hold ownership entries. -/
def frameOk (f : Nat) : Bool := populated (f * 65536) && !tableFrame f

/-- Ends a frame command with a result; ENTRY is the entry after it. -/
def State.frameResult (s : State) (r : BitVec 2) (f : Nat) : State :=
  { s with win := { s.win with fresult := r, fentry := (s.frame f).bits } }

/-- Runs a frame command that is over at once: where FSTAT is busy it waits; RESULT 2 for a bad frame (R407). -/
def State.frameCmd (s : State) (f : Nat) (act : FrameEnt → Option FrameEnt) : State :=
  s.command s.win.fbusy fun s =>
    if !frameOk f then { s with win := { s.win with fresult := 2 } }
    else match act (s.frame f) with
      | none => s.frameResult 1 f
      | some e => (s.setFrame f e).frameResult 0 f

/-- ASSIGN (R407): from free, with an OWNER other than 0xFFF; ZERO is unchanged. -/
def execAssign (f : BitVec 28) (o k : BitVec 12) (s : State) : Out :=
  .next (s.frameCmd f.toNat (fun e => if e.st = 0 ∧ o ≠ 0xFFF then some { e with owner := o, key := k, st := 2 } else none))

/-- A share group's identifier (R404). -/
def isGroup (o : BitVec 12) : Bool := decide (0x800 ≤ o.toNat) && decide (o.toNat ≤ 0xFFE)

/-- SHARE (R407): from owned, with OWNER a share group. -/
def execShare (f : BitVec 28) (o : BitVec 12) (s : State) : Out :=
  .next (s.frameCmd f.toNat (fun e => if e.st = 2 ∧ isGroup o then some { e with owner := o, st := 3 } else none))

/-- FREE step 1 (R408): STATE := scrubbing, ZERO := 1. BUSY stays 1 until the scrub completes. Lines that a slice holds keep their data
(R409); those of a frame whose zeros were not real leave it. No location of the frame holds an earlier store any more (R65). -/
def State.startScrub (s : State) (f : Nat) : State :=
  let s : State := if (s.frame f).zero then { s with slines := s.slines.filter (fun l => l.n / 512 != f) } else s
  let s := s.setFrame f { s.frame f with st := 1, zero := true }
  let s : State := { s with owns := s.owns.filter (fun o => o.pa / 65536 != f) }
  { s with win := { s.win with fresult := 0, fentry := (s.frame f).bits, fbusy := true, scrub := some f } }

/-- FREE (R407, R408, R409): from owned or shared-read. -/
def execFree (f : BitVec 28) (s : State) : Out :=
  .next (s.command s.win.fbusy fun s =>
    if !frameOk f.toNat then { s with win := { s.win with fresult := 2 } }
    else if 2 ≤ (s.frame f.toNat).st.toNat then s.startScrub f.toNat
    else s.frameResult 1 f.toNat)

/-- Removes every line of a frame from a plot's caches, its dirty data discarded (R408). -/
def Plot.dropFrame (f : Nat) (p : Plot) : Plot :=
  let off (l : Line) : Bool := l.n / 512 != f
  { p with cache := p.cache.filter off, roc := p.roc.filter off, ic := p.ic.filter off }

/-- Steps 2 to 4 of the scrub sequence (R408). -/
def State.finishScrub (s : State) (f : Nat) : State :=
  let s : State := { s with
    plots := s.plots.map (fun (n, p) => (n, p.dropFrame f))
    slines := s.slines.filter (fun l => l.n / 512 != f)
    owns := s.owns.filter (fun o => o.pa / 65536 != f)
    lostLines := s.lostLines.filter (fun l => l / 512 != f) }
  s.setFrame f { owner := 0xFFF, st := 0, key := 0, zero := true }

/-- SCRUB_COMPLETE (R408): the scrub that FREE started ends; the frame is free and BUSY clears. -/
def execScrubComplete (s : State) : Out :=
  .next (match s.win.scrub with
    | none => s
    | some f =>
      let s := s.finishScrub f
      { s with win := { s.win with fentry := (s.frame f).bits, fbusy := false, scrub := none } })

/-- QUERY (R407): ENTRY := the entry. -/
def execQuery (f : BitVec 28) (s : State) : Out := .next (s.frameCmd f.toNat some)

/-! ### Invalidation of translations (R410) -/

/-- XINV_PAGE (R410, KIND 0): starts the invalidation of one page. -/
def execXinvPage (al : BitVec 12) (vpn : BitVec 32) (s : State) : Out :=
  .next (s.command s.win.xbusy fun s => { s with win := { s.win with xbusy := true, xinv := some (al.toNat, some vpn.toNat) } })

/-- XINV_ALLOTMENT (R410, KIND 1): starts the invalidation of an allotment. -/
def execXinvAllotment (al : BitVec 12) (s : State) : Out :=
  .next (s.command s.win.xbusy fun s => { s with win := { s.win with xbusy := true, xinv := some (al.toNat, none) } })

/-- Drops every cached translation of an allotment (R410). -/
def State.dropAllTlb (s : State) (al : Nat) : State :=
  { s with
    plots := s.plots.map (fun (n, p) => (n, { p with tlb := p.tlb.filter (fun t => t.al != al) }))
    mtlb := s.mtlb.filter (fun t => t.al != al) }

/-- A thread whose WAITA lies in a page that a test picks: its registration is made anew, at the word's location then (R237, R402). -/
def Thread.rouse (dev : BitVec 11) (f : Nat → Bool) (t : Thread) : Thread :=
  match t.st with
  | .blocked (.waita w) =>
    match classify dev w.addr with
    | .glob va => if f (va / 65536) then { t with st := .blocked (.waita { w with woken := true }) } else t
    | _ => t
  | _ => t

/-- The registrations of an allotment's waiters in pages whose translations have gone are made anew. -/
def State.rouse (s : State) (al : Nat) (f : Nat → Bool) : State :=
  { s with casts := s.casts.map (fun (n, c) =>
      (n, if c.al = al then { c with threads := c.threads.map (fun (i, t) => (i, t.rouse s.devnum f)) } else c)) }

/-- XINV_COMPLETE (R410): the matching translations are dropped everywhere, and BUSY clears. -/
def execXinvComplete (s : State) : Out :=
  .next (match s.win.xinv with
    | none => s
    | some (al, v) =>
      let s : State := { s with win := { s.win with xbusy := false, xinv := none } }
      match v with
      | some vpn => (s.dropTlb al vpn).rouse al (fun n => n == vpn)
      | none => (s.dropAllTlb al).rouse al (fun _ => true))

/-! ### Migration (R413, R414) -/

/-- How the tables map MIGVA's page: its leaf and the leaf's address, or the MSTAT code 1 or 2 (R413). -/
def migWalk (s : State) (al va : Nat) : Except Nat (DWord × Nat) :=
  let entry (a : Nat) : DWord := BitVec.ofNat 64 (s.dpRead a 8)
  let l1 := entry (acbRoot (s.acb al) + 8 * (va / 2 ^ 37 % 2048))
  if bitsN l1 0 2 ≠ 1 then .error 1
  else
    let l2 := entry (bitsN l1 14 30 * 16384 + 8 * (va / 2 ^ 26 % 2048))
    if bitsN l2 0 2 = 3 then .error 2
    else if bitsN l2 0 2 ≠ 1 then .error 1
    else
      let e3 := bitsN l2 14 30 * 16384 + 8 * (va / 2 ^ 16 % 1024)
      let l3 := entry e3
      if bitsN l3 0 2 ≠ 3 then .error 1 else .ok (l3, e3)

/-- How MIGVA's page is mapped, as the migration engine sees it: by the translation that it caches, where it holds one (R402). -/
def migLeaf (s : State) (al va : Nat) : Except Nat (DWord × Nat) :=
  match s.mtlb.find? (fun t => t.al == al && t.vpn == va / 65536) with
  | some t => .ok (t.leaf, t.ea)
  | none => migWalk s al va

/-- The migration engine keeps the translation of a page, of an active allotment, that it has found (R402). -/
def State.migKeep (s : State) (al va : Nat) : State :=
  if (look s.allots al).isNone then s
  else match migLeaf s al va with
    | .error _ => s
    | .ok (l, ea) =>
      if bitsN l 13 1 = 1 ∨ s.mtlb.any (fun t => t.al == al && t.vpn == va / 65536) then s
      else { s with mtlb := { eng := .mig, al := al, vpn := va / 65536, leaf := l, ea := ea, block := false } :: s.mtlb }

/-- The checks of step 1 of a migration, in the order of the MSTAT codes (R413); the leaf and its address. The page's owner is
the allotment; a source frame of neither the allotment nor a share group fails check 3 (log 61, DEDUCED). -/
def State.migCheck (s : State) (al va df : Nat) : Except Nat (DWord × Nat) :=
  if (look s.allots al).isNone then .error 1
  else match migLeaf s al va with
    | .error r => .error r
    | .ok (l, ea) =>
      let sf := bitsN l 16 28
      let src := s.frame sf
      let dst := s.frame df
      if dst.owner.toNat ≠ al ∨ (src.owner.toNat ≠ al ∧ !isGroup src.owner) then .error 3
      else if bitsN l 13 1 = 1 then .error 4
      else if dst.key ≠ src.key then .error 5
      else if dst.st ≠ 2 then .error 6
      else if !frameOk df ∨ (decide (df < 2 ^ 23)) = (decide (sf < 2 ^ 23)) then .error 7
      else if isGroup src.owner then .error 8
      else .ok (l, ea)

/-- Writes back the dirty lines of a frame from every plot (R414, step 4). -/
def State.flushFrame (s : State) (f : Nat) : State :=
  s.plots.foldl (fun s (p, _) => s.writeBackIf p (fun l => l.isDirty && l.n / 512 == f)) s

/-- M of a leaf: set by an atomic OR at the leaf's home slice (R414, step 2). -/
def leafM (l : DWord) : DWord := l ||| (1#64 <<< 13)

/-- MIGDST (R414, steps 1 to 4): the checks; M is set in the leaf, the page's translations are dropped, and its dirty lines are
written back. -/
def execMigdst (f : BitVec 28) (s : State) : Out :=
  .next (s.command s.win.mbusy fun s =>
      let al := s.win.migal.toNat
      let va := s.win.migvpn.toNat * 65536
      match s.migCheck al va f.toNat with
      | .error r => { s.migKeep al va with win := { s.win with migdst := f, mresult := BitVec.ofNat 4 r } }
      | .ok (l, ea) =>
        let s := s.leafStep ea leafM
        let s := (s.dropTlb al (va / 65536)).flushFrame (bitsN l 16 28)
        { s with win := { s.win with migdst := f, mresult := 0, mbusy := true, migEa := ea, migSrc := bitsN l 16 28, migLeft := none } })

/-- The record of a line that the migration engine cannot read (R421): it names no cast and no thread. -/
def migRec (al : Nat) : FaultRec := { sceneRec al 0 0 .memerr 1 0 0 .none with agent := true }

/-- A line that the migration engine cannot read: no data is returned, and the spec states no value that the destination then holds: each
byte is a free one; a record reports it (log 85, DESIGN CHOICE). -/
def State.migLost (s : State) (al df : Nat) (l : Nat) : State :=
  let a := df * 65536 + l % 512 * 128
  let n := s.freeCtr
  let s : State := { s with
    freeCtr := n + 128
    mem := (List.range 128).foldl (fun m i => Memory.setByte m (a + i) (BitVec.ofNat 8 (Config.freeValue (n + i)))) s.mem }
  s.record (migRec al)

/-- The lines of a frame that cannot be read (R421). -/
def State.badIn (s : State) (f : Nat) : List Nat :=
  ((s.errLines ++ s.lostLines).filter (fun l => l / 512 == f && s.lineBad (l * 128) false)).eraseDups

/-- Step 5 of a migration (R414): the 64 KiB from the source frame to the destination, whose lines are all written then (R446); nothing
where the source is all-zero. The destination then reads as the source does. Each of the 512 lines is one transfer at either
controller, charged to the page's owner (R427). (Log 51, DEDUCED.) -/
def State.copyFrame (s : State) (al sf df : Nat) : State :=
  if (s.frame sf).zero then s
  else
    let bytes := (s.mem.filter (fun c => decide (sf * 65536 ≤ c.1) && decide (c.1 < (sf + 1) * 65536)))
    let s := s.setFrame df { s.frame df with zero := false }
    let s : State := { s with
      mem := bytes.foldl (fun m c => Memory.setByte m (c.1 - sf * 65536 + df * 65536) c.2) (Memory.clear s.mem (df * 65536) 65536)
      errLines := s.errLines.filter (fun l => l / 512 != df) }
    (s.charge (memArb (sf * 65536)) (.move al) 512).charge (memArb (df * 65536)) (.move al) 512

/-- Stores of a frame that READONLY loads do not observe are those of the frame that it has moved to (R65, R296). -/
def State.moveOwns (s : State) (sf df : Nat) : State :=
  { s with owns := s.owns.map (fun o => if o.pa / 65536 = sf then { o with pa := df * 65536 + o.pa % 65536 } else o) }

/-- Reports the first lines of some that the migration engine could not read, as far as there is room for their records (R420, R421): the
state, and the lines that are left. -/
def State.migReport (s : State) (al df : Nat) : List Nat → State × List Nat
  | [] => (s, [])
  | l :: r => if s.recFull then (s, l :: r) else (s.migLost al df l).migReport al df r

/-- The copy of a migration, once, and the report of the lines that it could not read: whether that is over. -/
def State.migCopy (s : State) (al sf df : Nat) : State × Bool :=
  let (s, left) : State × List Nat := match s.win.migLeft with
    | some l => (s, l)
    | none => ((s.copyFrame al sf df).moveOwns sf df, if (s.frame sf).zero then [] else s.badIn sf)
  let (s, left) := s.migReport al df left
  ({ s with win := { s.win with migLeft := some left } }, left.isEmpty)

/-- What follows the ends of an allotment's firings, where a page under migration has held it up (R334, R414). -/
def State.afterFirings (s : State) (al : Nat) : State :=
  (List.range (((look s.allots al).map Allot.graphs).getD []).length).foldl (fun s g => s.afterFiring al g) s

/-- The leaf after a migration (R414, step 6): FRAME, TIER and M. -/
def migratedLeaf (l : DWord) (df : Nat) : DWord :=
  BitVec.ofNat 64 (l.toNat - bitsN l 13 1 * 2 ^ 13 - bitsN l 14 2 * 2 ^ 14 - bitsN l 16 28 * 2 ^ 16 +
    (if df < 2 ^ 23 then 0 else 2 ^ 14) + df % 2 ^ 28 * 2 ^ 16)

/-- MIGRATION_COMPLETE (R414, steps 5 to 7): the copy, the leaf, and FREE of the source frame, which waits while FSTAT is busy; records of
lines that cannot be read wait for room (R420). Walks that waited for M go on, as do the writes of graphs' ends, and waiters register
again. (Log 51, DEDUCED.) -/
def execMigrationComplete (s : State) : Out :=
  .next (
    let ea := s.win.migEa
    let al := s.win.migal.toNat
    let vpn := s.win.migvpn.toNat
    let sf := s.win.migSrc
    let df := s.win.migdst.toNat
    if !s.win.mbusy then s
    else
      let (s, done) := s.migCopy al sf df
      if !done || s.win.fbusy then s
      else
        let s := s.leafStep ea (fun l => migratedLeaf l df)
        let s := (s.startScrub sf).rouse al (fun n => n == vpn)
        let s : State := { s with win := { s.win with mbusy := false, migLeft := none } }
        (((s.plots.foldl (fun s (p, _) => s.replayPage al p vpn) s).payOwed al).afterFirings al).retryAll)

/-! ### Key slots (R412) -/

/-- Whether some frame's KEY names a slot (R412). The frames that the state lists are those that differ from the frames after
bring-up. -/
def State.keyUsed (s : State) (k : BitVec 12) : Bool := s.frames.any (fun (_, e) => e.key == k)

/-- KGEN (R412): a fresh key in a slot; slot 0 or 1 gives RESULT 2, a slot in use RESULT 1. (Log 53, DESIGN CHOICE.) -/
def execKgen (k : BitVec 12) (s : State) : Out :=
  .next (s.command s.win.kbusy fun s =>
    if k.toNat < 2 then { s with win := { s.win with kresult := 2 } }
    else if s.keyUsed k then { s with win := { s.win with kresult := 1 } }
    else { s with keys := put s.keys k.toNat s.nextKey, nextKey := s.nextKey + 1, win := { s.win with kresult := 0 } })

end Sys2Proof.Machine
end

