-- ==== Sys2Proof/Machine/Mgmt.lean ====
section
/-!
DEFINITION. The management island (spec/20 R441 to R456): the event log, lifetime counters, the repair map, sensors and
operating points, firmware slots and attestation, the requests of R455, power and bring-up.
-/

namespace Sys2Proof.Machine

open Sys2Proof

/-! ### The event log (R448, R449) -/

/-- Changes the management island's state. -/
def State.onMg (s : State) (f : Mgmt → Mgmt) : State := { s with mg := f s.mg }

/-- Records an event: an entry of the log, which keeps 65,536, and an in-band interrupt for class 2 or 3 (R448, R455). -/
def State.event (s : State) (code cls isl : Nat) (data : Nat) : State :=
  let m := s.mg
  let e : EventEnt := { seq := m.eseq, bootn := m.life.bootn, usec := m.usec, cls := BitVec.ofNat 8 cls, code := BitVec.ofNat 8 code
                        isl := BitVec.ofNat 16 isl, data := BitVec.ofNat 96 data }
  let s := s.onMg (fun m => { m with eseq := m.eseq + 1, events := (if 65536 ≤ m.events.length then m.events.drop 1 else m.events) ++ [e] })
  if 2 ≤ cls then s.send (.interrupt e.seq) else s

/-- An event-log entry as bytes (R448). -/
def EventEnt.bytes (e : EventEnt) : List Byte :=
  natBytes 32 (packN [(e.seq.toNat, 4), (e.bootn.toNat, 4), (e.usec.toNat, 8), (e.cls.toNat, 1), (e.code.toNat, 1), (e.isl.toNat, 2), (e.data.toNat, 12)])

/-! ### Lifetime counters (R447) -/

/-- A saturating 16-bit increment. -/
def satInc16 (a : BitVec 16) : BitVec 16 := if a = BitVec.allOnes 16 then a else a + 1

/-- Changes the lifetime counters of an island. -/
def State.onLife (s : State) (i : Nat) (f : LifeIsl → LifeIsl) : State :=
  s.onMg (fun m => { m with life := { m.life with isl := put m.life.isl i (f ((look m.life.isl i).getD {})) } })

/-- A corrected error of an island. -/
def LifeIsl.corrected (l : LifeIsl) : LifeIsl := { l with cec := satAdd32 l.cec 1 }
/-- An uncorrectable error of an island. -/
def LifeIsl.uncorrected (l : LifeIsl) : LifeIsl := { l with uec := satAdd32 l.uec 1 }
/-- A repair within an island. -/
def LifeIsl.repaired (l : LifeIsl) : LifeIsl := { l with repairs := satInc16 l.repairs }
/-- A link retrain of a fabric port group island. -/
def LifeIsl.retrained (l : LifeIsl) : LifeIsl := { l with retrain := satInc16 l.retrain }

/-- The bin of a supply voltage in mV (R447). -/
def vbinOf (mv : Nat) : Nat := if mv < 600 then 0 else min 7 ((mv - 600) / 25)

/-- The bin of a junction temperature in 1/8 °C (R447): the edges are 25, 45, 65, 75, 85, 95 and 105 °C. -/
def tbinOf (t : BitVec 16) : Nat := ([25, 45, 65, 75, 85, 95, 105].filter (fun (e : Int) => decide (8 * e ≤ t.toInt))).length

/-- Adds seconds to a counter of a vector of eight. -/
def addBin (v : Vector Word 8) (i n : Nat) : Vector Word 8 := v.setIfInBounds i (satAdd32 (v.toList.getD i 0) n)

/-- `n` seconds of an island at its voltage and temperature. -/
def LifeIsl.seconds (l : LifeIsl) (x : IslSt) (n : Nat) : LifeIsl :=
  { l with vbin := addBin l.vbin (vbinOf x.mv.toNat) n, tbin := addBin l.tbin (tbinOf x.temp) n }

/-- The management island's clock goes on while it has power (R447, R448): whole seconds count for every island, whole hours for the
package. -/
def State.mgClock (s : State) (us : Nat) : State :=
  let a := s.mg.usec.toNat
  let b := a + us
  if s.mg.stage = 0 then s
  else
  let s := s.onMg (fun m => { m with usec := BitVec.ofNat 64 b, life := { m.life with hours := satAdd32 m.life.hours (b / 3600000000 - a / 3600000000) } })
  let n := b / 1000000 - a / 1000000
  if n = 0 then s else (List.range 512).foldl (fun s i => s.onLife i (fun l => l.seconds (s.island i) n)) s

/-- An island's record as a number of 80 bytes (R447). -/
def LifeIsl.bytes (l : LifeIsl) : Nat :=
  packN (l.vbin.toList.map (fun v => (v.toNat, 4)) ++ l.tbin.toList.map (fun v => (v.toNat, 4)) ++
    [(l.cec.toNat, 4), (l.uec.toNat, 4), (l.retrain.toNat, 2), (l.repairs.toNat, 2), (0, 4)])

/-- The lifetime record after its header (R447), up to the 2 MiB of a copy. -/
def LifeRec.body (r : LifeRec) : List Byte :=
  let l := (List.range 512).flatMap (fun i => natBytes 80 ((look r.isl i).getD {}).bytes) ++
    r.macros.flatMap (fun (m, n) => natBytes 8 (m % 2 ^ 24 + n.toNat * 2 ^ 32))
  l ++ List.replicate (2097152 - 64 - l.length) 0

/-- The lifetime record as bytes: the header's fields in the order of R447 (log 66, DEDUCED), then the rest. -/
def LifeRec.bytes (r : LifeRec) : List Byte :=
  natBytes 64 (packN [(r.gen, 4), (r.bootn.toNat, 4), (r.hours.toNat, 4), (0, 4), ((crc64 r.body).toNat, 8)]) ++ r.body

/-- Writes the lifetime record to the older copy (R447). -/
def Mgmt.save (m : Mgmt) : Mgmt :=
  let r := { m.life with gen := max m.saveA.gen m.saveB.gen + 1 }
  if m.saveA.gen ≤ m.saveB.gen then { m with life := r, saveA := r } else { m with life := r, saveB := r }

/-- The newer copy of the lifetime record. -/
def Mgmt.saved (m : Mgmt) : LifeRec := if m.saveA.gen ≤ m.saveB.gen then m.saveB else m.saveA

/-- LIFETIME_RECORD_SAVE (R447): the hourly save. -/
def execLifetimeRecordSave (s : State) : Out := .next (s.onMg Mgmt.save)

/-! ### The repair map (R442) -/

/-- A repair-map entry as a doubleword (R442). -/
def RepairEnt.bits (e : RepairEnt) : Nat := e.kind.toNat + e.die.toNat * 16 + (if e.field then 128 else 0) + e.loc.toNat * 256

/-- The part that an entry names (R442). -/
def RepairEnt.part (e : RepairEnt) : Nat × Nat × Nat := (e.kind.toNat, e.die.toNat, e.loc.toNat)

/-- A copy of the map as bytes (R442): its header with the CRC-64 of the entries, then the entries. -/
def MapCopy.bytes (c : MapCopy) : List Byte :=
  let es := c.ents.flatMap (fun e => natBytes 8 e.bits)
  natBytes 16 (packN [(c.gen, 4), (c.ents.length, 4), ((crc64 es).toNat, 8)]) ++ es

/-- Writes the map to the copy with the older generation (R442). -/
def Mgmt.saveMap (m : Mgmt) : Mgmt :=
  let c : MapCopy := { gen := max m.mapA.gen m.mapB.gen + 1, ents := m.repairs }
  if m.mapA.gen ≤ m.mapB.gen then { m with mapA := c } else { m with mapB := c }

/-- The valid copy of the map with the higher generation (R442); none where neither is valid. -/
def Mgmt.readMap (m : Mgmt) : Option (List RepairEnt) :=
  if m.mapA.ok && (!m.mapB.ok || decide (m.mapB.gen < m.mapA.gen)) then some m.mapA.ents
  else if m.mapB.ok then some m.mapB.ents
  else none

/-- Every part that the current boot replaces: those of the map, and those that the full map does not hold (R442). -/
def Mgmt.parts (m : Mgmt) : List RepairEnt := m.repairs ++ m.extra

/-- Adds an entry to the map (R442): where it is full, the entry is applied for the current boot, and event 0x0C carries it. -/
def State.addRepair (s : State) (e : RepairEnt) : State :=
  if 16382 ≤ s.mg.repairs.length then (s.onMg (fun m => { m with extra := m.extra ++ [e] })).event 0x0C 2 e.isl e.bits
  else s.onMg (fun m => ({ m with repairs := m.repairs ++ [e] } : Mgmt).saveMap)

/-- Counts a repair within an island (R447), where an island is named. -/
def State.countRepair (s : State) (i : Nat) : State := if i < 512 then s.onLife i LifeIsl.repaired else s

/-- The die of an island, for a repair entry: 4 is the I/O die (R4, R442). -/
def islDie (i : Nat) : Nat := if i < 384 then i / 96 else if i < 496 then (i - 384) / 28 else 4

/-- The entry for an SRAM row in an island. -/
def sramEnt (isl m row : Nat) : RepairEnt :=
  { kind := 0, die := BitVec.ofNat 3 (islDie isl), field := true, loc := BitVec.ofNat 48 (m % 2 ^ 24 + row % 2 ^ 24 * 2 ^ 24), isl := isl }

/-- The entry for a failing SRAM word of an island: the next two choices are its macro and its row (log 67, DESIGN CHOICE). -/
def State.sramRow (s : State) (isl : Nat) : RepairEnt × State :=
  let (m, s) := s.choose
  let (r, s) := s.choose
  (sramEnt isl m r, s)

/-! ### Sensors and operating points (R454) -/

/-- Changes an island's state. -/
def State.onIsl (s : State) (i : Nat) (f : IslSt → IslSt) : State := s.onMg (fun m => { m with isl := put m.isl i (f ((look m.isl i).getD {})) })

/-- The granted point: the lowest of the requested point and the two limits (R454). -/
def IslSt.grant (x : IslSt) : IslSt := { x with point := BitVec.ofNat 3 (min x.req.toNat (min x.thermal.toNat x.power.toNat)) }

/-- Whether a limit throttles an island. -/
def IslSt.throttled (x : IslSt) : Bool := decide (min x.thermal.toNat x.power.toNat < 5)

/-- One sample's effect on the thermal limit (R454). -/
def IslSt.heat (x : IslSt) (t : BitVec 16) : IslSt :=
  if 840 ≤ t.toInt then { x with temp := t, cool := 0, thermal := BitVec.ofNat 3 (max 2 (x.thermal.toNat - 1)) }
  else if t.toInt < 800 then
    (if 9 ≤ x.cool then { x with temp := t, cool := 0, thermal := BitVec.ofNat 3 (min 5 (x.thermal.toNat + 1)) }
    else { x with temp := t, cool := x.cool + 1 })
  else { x with temp := t, cool := 0 }

/-- One sample's effect on the power limit of a core island, judged every tenth sample (R454). (Log 40, DEDUCED.) -/
def IslSt.load (x : IslSt) (core : Bool) (pcap power : Nat) : IslSt :=
  if x.ticks < 9 then { x with ticks := x.ticks + 1 }
  else if !core then { x with ticks := 0 }
  else if pcap < power then { x with ticks := 0, power := BitVec.ofNat 3 (max 2 (x.power.toNat - 1)) }
  else if 100 * power < 95 * pcap then { x with ticks := 0, power := BitVec.ofNat 3 (min 5 (x.power.toNat + 1)) }
  else { x with ticks := 0 }

/-- What is left when every island but the management island has lost its state: the management island. (Log 42, DEDUCED.) -/
def State.lost (s : State) : State :=
  { State.reset with mg := s.mg, sent := s.sent, agenda := s.agenda, oracle := s.oracle, freeCtr := s.freeCtr, nextKey := s.nextKey }

/-- Every island but the management island goes to point 0, where it has no state and no clock (R454, R456). -/
def Mgmt.allOff (m : Mgmt) : Mgmt :=
  { m with entry := none, isl := (List.range 512).map (fun j => (j, { (look m.isl j).getD {} with point := 0, req := 0 })) }

/-- Critical shutdown (R454): every island but the management island goes to point 0, and the Ethernet links drop. -/
def State.critical (s : State) (i : Nat) (t : BitVec 16) : State :=
  (s.event 0x07 3 i t.toNat).lost.onMg (fun m => { m.allOff with down := true })

/-- THERMAL_SAMPLE (R454): a 1 ms sensor reading of an island, with the package power averaged over 10 ms. The next choice, where it is
not 0, is the voltage that the island's supply sensor reads then. (Log 60, DESIGN CHOICE.) -/
def execThermalSample (isl : Nat) (t : BitVec 16) (pw : Nat) (s : State) : Out :=
  .next (if 512 ≤ isl then s
    else
      let (v, s) := s.choose
      let s := if v = 0 then s else s.onIsl isl (fun x => { x with mv := BitVec.ofNat 16 v })
      let s := s.onMg (fun m => { m with power := pw })
      if s.mg.down || s.mg.failed || s.mg.stage == 0 then s.onIsl isl (fun x => { x with temp := t })
      else
        let x := s.island isl
        let y := ((x.heat t).load (decide (isl < 384)) s.mg.pcap.toNat pw).grant
        let s := s.onIsl isl (fun _ => y)
        let s := if y.throttled && !x.throttled then s.event 0x05 1 isl t.toNat
          else if x.throttled && !y.throttled then s.event 0x06 0 isl t.toNat else s
        if 920 ≤ t.toInt then s.critical isl t else s)

/-! ### Requests (R455) -/

/-- The status of a response: the stage and the failed bit (R456). -/
def Mgmt.status (m : Mgmt) : BitVec 4 := BitVec.ofNat 4 (m.stage % 8 + (if m.failed then 8 else 0))

/-- Eight doublewords' bytes as MDATA holds them. -/
def mdataOf (d : List Byte) : List DWord :=
  (List.range 7).map (fun i => BitVec.ofNat 64 (packN (((d.drop (8 * i)).take 8).map (fun b => (b.toNat, 1)))))

/-- The bytes that MDATA holds (R455). -/
def Window.box (w : Window) : List Byte := natBytes 56 (packN (((w.mdata ++ List.replicate 7 0).take 7).map (fun (v : DWord) => (v.toNat, 8))))

/-- Whether the mailbox holds a request with an operation code: it is served before one of the sideband (R455). -/
def State.boxed (s : State) (op : Nat) : Bool := s.windowUp && s.win.mcBusy && s.win.mcOp.toNat == op

/-- Bytes `o` to `o + n - 1` of a request's arguments: of MDATA for a request of the mailbox, else as the sideband's request has them.
The arguments stand one after another in the order of R455's table (log 65, DEDUCED). -/
def State.argBytes (s : State) (op o n : Nat) (d : List Byte) : List Byte := if s.boxed op then (s.win.box.drop o).take n else d

/-- A numeric argument of a request. -/
def State.arg (s : State) (op o n v : Nat) : Nat := if s.boxed op then bytesNat ((s.win.box.drop o).take n) else v

/-- Answers a request (R455): one of the mailbox leaves its result, its tag and its data there, and BUSY clears; one of the sideband is
answered with the status byte. (Log 65, DEDUCED.) -/
def State.respond (s : State) (op : Nat) (r : BitVec 4) (d : List Byte) : State :=
  if s.boxed op then
    { s with win := { s.win with mcBusy := false, mcResult := r, mcTag := s.win.mcNew, mdata := if d.isEmpty then s.win.mdata else mdataOf d } }
  else s.send (.response op r s.mg.status d)

/-- SENSOR (R455): temperature, voltage and package power. -/
def execSensor (isl : BitVec 16) (s : State) : Out :=
  let i := s.arg 0x01 0 2 isl.toNat
  let x := s.island i
  .next (if 512 ≤ i then s.respond 0x01 1 []
    else s.respond 0x01 0 (natBytes 2 x.temp.toNat ++ natBytes 2 x.mv.toNat ++ natBytes 2 s.mg.power))

/-- The island of a commons bank: a commons group holds sixteen banks (R4). (Log 39, DEDUCED.) -/
def bankIsland (b : Nat) : Nat := 384 + 28 * (b / 64) + 8 + b % 64 / 16

/-- The commons banks that allotments hold (R422). -/
def State.claimedBanks (s : State) : List Nat :=
  s.allots.flatMap (fun (_, a) => (List.range (acbCmnb a.acb)).map (fun i => s.dpRead (byteN a.acb 40 8 + i) 1 (acbOwner a.acb)))

/-- Whether an island may not go to point 0 or 1 (R454): it holds a resident cast, a claimed bank, or the home of a dirty line.
The dirty lines of a core's own caches count too (log 63, DEDUCED). -/
def State.islandBusy (s : State) (i : Nat) : Bool :=
  s.casts.any (fun (_, c) => c.plot / 4 == i && c.st != .listWait) ||
  s.plots.any (fun (p, q) => (p / 4 == i && (q.roles.toList.any (fun r => r != 0) || q.cache.any Line.isDirty)) ||
    q.cache.any (fun l => l.isDirty && homeIsland (l.n * 128) == i)) ||
  s.slines.any (fun l => l.dirty && homeIsland (l.n * 128) == i) ||
  s.claimedBanks.any (fun b => bankIsland b == i)

/-- The die whose synchronisation engine an island is (R4). -/
def syncDie (isl : Nat) : Option Nat := if 384 ≤ isl ∧ isl < 496 ∧ (isl - 384) % 28 = 22 then some ((isl - 384) / 28) else none

/-- The die that holds a registration (R240): none for a SCRATCH word, whose plot registers it again. -/
def Loc.syncDie (l : Loc) : Option Nat :=
  match l with
  | .home pa => some (homeDie pa)
  | .bank a => some (a / 2 ^ 26)
  | _ => none

/-- Whether a thread's registration lies in a die's engine. -/
def registered (d : Nat) (t : Thread) : Bool :=
  match t.st with
  | .blocked (.waita w) => w.loc.syncDie == some d
  | _ => false

/-- A thread whose registration has been lost with its engine's state. -/
def Thread.unregister (d : Nat) (t : Thread) : Thread :=
  match t.st with
  | .blocked (.waita w) => if registered d t then { t with st := .blocked (.waita { w with lost := true }) } else t
  | _ => t

/-- What an island that goes to point 0 loses (R454): a core's plots, a slice group's lines, the bytes of a commons group's banks, a port
group's link state, the registrations of a synchronisation engine, and of the I/O die, whose first island stands for its clock, the
registers of the memory-system window (R403) and the records that it holds (R420). The other islands hold no state that the spec
describes. (Log 41, DEDUCED.) -/
def State.powerOff (s : State) (i : Nat) : State :=
  let s : State := { s with
    plots := s.plots.map (fun (p, q) => (p, if p / 4 = i then {} else q))
    slines := s.slines.filter (fun l => homeIsland (l.n * 128) != i)
    cmn := s.cmn.filter (fun c => bankIsland (c.1 / 2 ^ 26 * 64 + c.1 / 2 ^ 20 % 64) != i)
    ports := s.ports.map (fun (p, v) => (p, if portIsland p = i then { lane0 := v.lane0, lane1 := v.lane1 } else v)) }
  let s : State := if i = 496 then { s with win := {}, faultQ := [], resolv := [] } else s
  match syncDie i with
  | none => s
  | some d => { s with casts := s.casts.map (fun (n, c) => (n, { c with threads := c.threads.map (fun (j, t) => (j, t.unregister d)) })) }

/-- SETOP (R454, R455): the requested point, and the granted one as the result. -/
def execSetop (isl : BitVec 16) (pt : BitVec 8) (s : State) : Out :=
  let i := s.arg 0x02 0 2 isl.toNat
  let n := s.arg 0x02 2 1 pt.toNat
  .next (if 512 ≤ i ∨ 5 < n then s.respond 0x02 1 []
    else if s.mg.down ∨ s.mg.failed ∨ (n < 2 ∧ s.islandBusy i) then s.respond 0x02 2 []
    else
      let s := s.onIsl i (fun x => ({ x with req := BitVec.ofNat 3 n } : IslSt).grant)
      let s := s.respond 0x02 0 (natBytes 1 (s.island i).point.toNat)
      if n = 0 then s.powerOff i else s)

/-- PCAP (R455): 400 to 2,200 W. -/
def execPcap (w : BitVec 16) (s : State) : Out :=
  let w := s.arg 0x03 0 2 w.toNat
  .next (if w < 400 ∨ 2200 < w then s.respond 0x03 1 []
    else (s.onMg (fun m => { m with pcap := BitVec.ofNat 16 w })).respond 0x03 0 [])

/-- EVREAD (R455): the entry with a sequence number; RESULT 1 where the log does not hold it. -/
def execEvread (sq : BitVec 32) (s : State) : Out :=
  let n := s.arg 0x04 0 4 sq.toNat
  .next (match s.mg.events.find? (fun e => e.seq.toNat == n) with
    | some e => s.respond 0x04 0 e.bytes
    | none => s.respond 0x04 1 [])

/-- LIFEREAD (R455): 48 bytes of the lifetime record. -/
def execLiferead (off : BitVec 32) (s : State) : Out :=
  let o := s.arg 0x05 0 4 off.toNat
  .next (if 2097152 < o + 48 then s.respond 0x05 1 []
    else s.respond 0x05 0 ((s.mg.life.bytes.drop o).take 48))

/-! ### Firmware (R450 to R452) -/

/-- A slot by its number: 0 is A, 1 is B. -/
def Mgmt.slot (m : Mgmt) (b : Bool) : FwSlot := if b then m.slotB else m.slotA
/-- Changes a slot. -/
def Mgmt.onSlot (m : Mgmt) (b : Bool) (f : FwSlot → FwSlot) : Mgmt := if b then { m with slotB := f m.slotB } else { m with slotA := f m.slotA }
/-- A field of a slot's header (R450). -/
def FwSlot.field (x : FwSlot) (o n : Nat) : Nat := Memory.read x.img o n
/-- SVN of a slot. -/
def FwSlot.svn (x : FwSlot) : Nat := x.field 8 1 % 128
/-- VERSION of a slot. -/
def FwSlot.version (x : FwSlot) : Nat := x.field 4 4
/-- The digest that the signature covers, which is the slot's measurement (R450). -/
def FwSlot.digest (x : FwSlot) : BitVec 512 :=
  Config.sha3 (Memory.readList x.img 0 64 ++ Memory.readList x.img 8192 (x.field 12 4 + x.field 16 4))

/-- Whether a slot verifies (R450). -/
def FwSlot.verifies (x : FwSlot) : Bool :=
  x.field 0 4 == 0x53465731 && x.field 8 1 / 128 == 0 && x.field 9 3 == 0 && x.field 20 4 == 0 && x.field 40 24 == 0 &&
  decide (8192 + x.field 12 4 + x.field 16 4 ≤ 2 ^ 24) &&
  Config.sha3 (Memory.readList x.img 4736 2592) == Config.fusedKeyHash &&
  Config.mldsaValid (Memory.readList x.img 64 4627) (Memory.readList x.img 4736 2592) x.digest

/-- FWWRITE (R452, R455): 40 bytes to a slot that does not run, whose state becomes empty. -/
def execFwwrite (sl : BitVec 8) (off : BitVec 32) (d : List (BitVec 8)) (s : State) : Out :=
  let n := s.arg 0x06 0 1 sl.toNat
  let o := s.arg 0x06 1 4 off.toNat
  let d := s.argBytes 0x06 5 40 d
  let b := n == 1
  .next (if 1 < n ∨ 2 ^ 24 < o + 40 ∨ d.length ≠ 40 then s.respond 0x06 1 []
    else if some b = s.mg.running then s.respond 0x06 2 []
    else (s.onMg (fun m => m.onSlot b (fun x => { st := 0, img := Memory.writeList x.img o d }))).respond 0x06 0 [])

/-- FWSEAL (R452, R455): a slot that does not run is verified and becomes pending. -/
def execFwseal (sl : BitVec 8) (s : State) : Out :=
  let n := s.arg 0x07 0 1 sl.toNat
  let b := n == 1
  .next (if 1 < n then s.respond 0x07 1 []
    else if some b = s.mg.running then s.respond 0x07 2 []
    else if (s.mg.slot b).verifies then (s.onMg (fun m => m.onSlot b (fun x => { x with st := 1 }))).respond 0x07 0 []
    else (s.event 0x08 2 0xFFFF n).respond 0x07 3 [])

/-- What is left without power: the flash and the fuses (R441, R447). -/
def State.unpowered (s : State) : State :=
  let s := s.lost
  s.onMg (fun m => { ({ m with isl := [] } : Mgmt).allOff with
                            stage := 0, failed := false, down := false, usec := 0, running := none, secretOpen := false, layer := none
                            life := m.saved, recent := [], repairs := [], extra := [], pcap := 2200, power := 0
                            i3cAddr := 0, report := [], phys := [] })

/-- FWCOMMIT (R452, R455): the running slot becomes good; argument 1 raises F to its SVN. A second one changes nothing. Where fuses are
blown, the next choice, where it is not 0, says that power fails after one fuse fewer. (Log 43, DEDUCED.) -/
def execFwcommit (x : BitVec 8) (s : State) : Out :=
  let v := s.arg 0x08 0 1 x.toNat
  .next (if 1 < v then s.respond 0x08 1 []
    else match s.mg.running with
    | none => s.respond 0x08 2 []
    | some b =>
      if (s.mg.slot b).st = 3 then s.respond 0x08 0 []
      else
        let s := s.onMg (fun m => m.onSlot b (fun y => { y with st := 3 }))
        let f := max s.mg.fuses (s.mg.slot b).svn
        let (n, s) := if v = 1 ∧ s.mg.fuses < f then s.choose else (0, s)
        if 0 < n then (s.onMg (fun m => { m with fuses := min f (m.fuses + (n - 1)) })).unpowered
        else
          let s := if v = 1 then s.onMg (fun m => { m with fuses := f }) else s
          (s.event 0x0B 0 0xFFFF (if b then 1 else 0)).respond 0x08 0 [])

/-! ### Identity and attestation (R453) -/

/-- A key seed: the first 32 bytes of a hash (R453). -/
def keySeed (b : List Byte) : BitVec 256 := (Config.sha3 b).setWidth 256

/-- The device secret's bytes (R453). -/
def secretBytes : List Byte := natBytes 32 Config.deviceSecret.toNat

/-- The DeviceID key: the secret followed by "DEVICEID" (R453). -/
def deviceIdSeed : BitVec 256 := keySeed (secretBytes ++ [0x44, 0x45, 0x56, 0x49, 0x43, 0x45, 0x49, 0x44])

/-- The slot that a layer was made from. -/
def Dice.slot (x : Dice) : FwSlot := { img := x.img }

/-- CDI: the secret followed by the measurement (R453). -/
def Dice.cdi (x : Dice) : BitVec 512 := Config.sha3 (secretBytes ++ natBytes 64 x.slot.digest.toNat)

/-- The Alias key: CDI followed by "ALIAS" (R453). -/
def Dice.aliasSeed (x : Dice) : BitVec 256 := keySeed (natBytes 64 x.cdi.toNat ++ [0x41, 0x4C, 0x49, 0x41, 0x53])

/-- What the Alias certificate carries (R453): the Alias public key, the measurement, VERSION, SVN and F. -/
def Dice.certBody (x : Dice) : List Byte :=
  Config.mldsaPublic x.aliasSeed ++ natBytes 64 x.slot.digest.toNat ++ natBytes 4 x.slot.version ++ natBytes 1 x.slot.svn ++ natBytes 1 x.fuses

/-- The Alias certificate: its contents and the DeviceID key's signature (R453). (Log 53, DESIGN CHOICE.) -/
def Dice.cert (x : Dice) : List Byte := x.certBody ++ Config.mldsaSign deviceIdSeed x.certBody

/-- The certificates of the device: the DeviceID one of the flash (R441), and the Alias one of the boot (R453). -/
def Mgmt.certs (m : Mgmt) : List (List Byte) := Config.deviceIdCert :: (m.layer.map Dice.cert).toList

/-- What a report signs (R453), its fields in the rule's order (log 66, DEDUCED). -/
def State.claims (s : State) (x : FwSlot) (nonce : BitVec 256) (al : Nat) : List Byte :=
  let a := if (look s.allots al).isSome then s.acb al else 0
  natBytes 32 nonce.toNat ++ natBytes 64 x.digest.toNat ++ natBytes 4 x.version ++ natBytes 1 x.svn ++ natBytes 1 s.mg.fuses ++
    natBytes 2 s.devnum.toNat ++ natBytes 4 s.mg.life.bootn.toNat ++ natBytes 2 (acbOwner a) ++ natBytes 2 (acbKey a) ++
    natBytes 1 (acbCeil a) ++ natBytes 2 (bitsN a (8 * 12) 11)

/-- The report: the claims and a signature of 4,627 bytes by the Alias key. -/
def State.report (s : State) (x : Dice) (nonce : BitVec 256) (al : Nat) : List Byte :=
  let c := s.claims x.slot nonce al
  c ++ (Config.mldsaSign x.aliasSeed c ++ List.replicate 4627 0).take 4627

/-- ATTEST (R453, R455): the report is made; its length is the result. It is refused where no firmware runs. -/
def execAttest (nonce : BitVec 256) (al : BitVec 12) (s : State) : Out :=
  let n : BitVec 256 := BitVec.ofNat 256 (s.arg 0x09 0 32 nonce.toNat)
  let a := s.arg 0x09 32 2 al.toNat
  .next (match s.mg.layer with
    | none => s.respond 0x09 2 []
    | some x =>
      let r := s.report x n a
      (s.onMg (fun m => { m with report := r })).respond 0x09 0 (natBytes 4 r.length))

/-- ATREAD (R455): 48 bytes of the report. -/
def execAtread (off : BitVec 32) (s : State) : Out :=
  let o := s.arg 0x0A 0 4 off.toNat
  .next (if s.mg.report.length ≤ o then s.respond 0x0A 1 []
    else s.respond 0x0A 0 (((s.mg.report.drop o) ++ List.replicate 48 0).take 48))

/-! ### Bring-up (R451, R456) -/

/-- A slot in state trying becomes failed (R451). -/
def FwSlot.giveUp (x : FwSlot) : FwSlot := if x.st = 2 then { x with st := 4 } else x

/-- Whether a slot is a candidate, with the event of R451 where it is not. -/
def State.candidateSlot (s : State) (b : Bool) : Bool × State :=
  let x := s.mg.slot b
  let n := if b then 1 else 0
  if !x.verifies then (false, s.event 0x08 2 0xFFFF n)
  else if x.svn < s.mg.fuses then (false, s.event 0x09 2 0xFFFF n)
  else (true, s)

/-- Slot choice (R451): the slot to boot; none: stage 2 fails. -/
def State.slotChoice (s : State) : Option Bool × State :=
  let (ca, s) := s.candidateSlot false
  let (cb, s) := s.candidateSlot true
  let try_ (b : Bool) : Option Bool × State := (some b, s.onMg (fun m => (m.onSlot b (fun x => { x with st := 2 }))))
  if s.mg.slotA.st = 1 ∧ ca then try_ false
  else if s.mg.slotB.st = 1 ∧ cb then try_ true
  else
    let s := s.onMg (fun m => { m with slotA := m.slotA.giveUp, slotB := m.slotB.giveUp })
    let ga := ca && s.mg.slotA.st == 3
    let gb := cb && s.mg.slotB.st == 3
    if ga && (!gb || decide (s.mg.slotB.version ≤ s.mg.slotA.version)) then (some false, s)
    else if gb then (some true, s)
    else (none, s)

/-- A stage that fails halts the package with only the management island running (R456). -/
def State.stageFails (s : State) (n : Nat) : State :=
  ((s.onMg (fun m => { m.allOff with stage := n, failed := true })).event 0x0A 3 0xFFFF n)

/-- The island of a physical core (R4): of the core that it is behind by default; none for a spare. -/
def physIsland (p : Nat) : Nat := if p % 104 < 96 then 96 * (p / 104) + p % 104 else 0xFFFF

/-- A part that self-test finds failing (R456, stage 5), of kind `k`, from two numbers. -/
def foundPart (k a b : Nat) : RepairEnt :=
  match k with
  | 0 => { sramEnt (a % 512) (a / 512) b with field := false }
  | 1 => { sramEnt (a % 512) (a / 512) b with kind := 1, field := false }
  | 2 => { kind := 2, die := BitVec.ofNat 3 (a % 416 / 104), field := false, loc := BitVec.ofNat 48 (a % 416), isl := physIsland (a % 416) }
  | 3 => { kind := 3, die := BitVec.ofNat 3 (a % 8 / 2), field := false, loc := BitVec.ofNat 48 (a % 8 + b % 2 ^ 37 * 8)
           isl := 384 + 28 * (a % 8 / 2) + 20 + a % 2 }
  | _ => { kind := 4, die := BitVec.ofNat 3 (a % 128 / 32), field := false, loc := BitVec.ofNat 48 (a % 128 + b % 2 * 128)
           isl := portIsland (a % 128) }

/-- Repairs that self-test finds (R456, stage 5): `n` of them, each kind and place from the next three choices (log 67, DESIGN CHOICE). A
part that is listed already is not listed again; a lane's retirement is recorded (R449). -/
def State.findings (s : State) : Nat → State
  | 0 => s
  | n + 1 =>
    let (k, s) := s.choose
    let (a, s) := s.choose
    let (b, s) := s.choose
    let e := foundPart (k % 5) a b
    if s.mg.parts.any (fun x => x.part == e.part) then s.findings n
    else
      let s := s.addRepair e
      (if k % 5 = 4 then s.event 0x04 1 e.isl e.bits else s).findings n

/-- The physical cores of a die that the map lists as failing. -/
def Mgmt.badCores (m : Mgmt) (d : Nat) : List Nat :=
  (m.parts.filterMap (fun e => if e.kind = 2 ∧ e.loc.toNat % 512 / 104 = d then some (e.loc.toNat % 512) else none)).eraseDups

/-- The enabled cores of a die whose default physical core is failing, behind the spares that are good, in order. -/
def Mgmt.replaced (m : Mgmt) (d : Nat) : List (Nat × Nat) :=
  let bad := m.badCores d
  let cores := (List.range 96).filter (fun c => bad.contains (104 * d + c))
  let spares := ((List.range 8).map (fun j => 104 * d + 96 + j)).filter (fun p => !bad.contains p)
  (cores.map (fun c => 96 * d + c)).zip spares

/-- The spares left on a die. -/
def Mgmt.sparesOf (m : Mgmt) (d : Nat) : Nat :=
  ((List.range 8).filter (fun j => !(m.badCores d).contains (104 * d + 96 + j))).length - (m.replaced d).length

/-- The lanes that the map lists: port and lane. -/
def Mgmt.badLanes (m : Mgmt) : List (Nat × Bool) :=
  (m.parts.filterMap (fun e => if e.kind = 4 then some (e.loc.toNat % 128, e.loc.toNat / 128 % 2 == 1) else none)).eraseDups

/-- A port one of whose lanes is lost. -/
def Port.loseLane (p : Port) (l : Bool) : Port := if l then { p with lane1 := false } else { p with lane0 := false }

/-- Retires a lane at bring-up: a spare of its group takes its place, where one is left (R439, R440). -/
def State.retireAtBoot (s : State) (x : Nat × Bool) : State :=
  let g := x.1 / 16
  let n := s.spareLanes.toList.getD g 0
  if 0 < n then { s with spareLanes := s.spareLanes.setIfInBounds g (n - 1) }
  else { s with ports := put s.ports x.1 (((look s.ports x.1).getD {}).loseLane x.2) }

/-- Frames of the control-core image: the system's, owner 0 (R404, R456). (Log 44, DEDUCED.) -/
def State.systemFrames (s : State) (a n : Nat) : State :=
  (List.range ((a % 65536 + n + 65535) / 65536)).foldl
    (fun s i => s.setFrame (a / 65536 + i) { owner := 0, st := 2, key := 1, zero := false }) s

/-- The repairs that this boot is the first to apply count in REPAIRS (R447): those in the field of cores and lanes have counted there.
(Log 45, DEDUCED.) -/
def State.applyRepairs (s : State) : State :=
  let l := (s.mg.repairs.drop s.mg.counted).filter (fun e => !(e.field && (e.kind == 2 || e.kind == 4))) ++ s.mg.extra
  (l.foldl (fun s e => s.countRepair e.isl) s).onMg (fun m => { m with counted := m.repairs.length })

/-- Stage 6: the control-core image at LOADPA, the control cores at ENTRYPA, and every Reset value (R10, R456). -/
def State.stage6 (s : State) (b : Bool) : State :=
  let x := s.mg.slot b
  let a := x.field 24 8
  let n := x.field 16 4
  let s := s.systemFrames a n
  { s with
    mem := Memory.writeList s.mem a (Memory.readList x.img (8192 + x.field 12 4) n)
    devnum := s.mg.cfgDev
    mg := { s.mg with stage := 6, entry := some (BitVec.ofNat 64 (x.field 32 8)) } }

/-- Stage 5 (R456): self-test, spare cores and lanes, frames and fresh keys. The next choice is the number of new findings. -/
def State.stage5 (s : State) : State :=
  let (n, s) := s.choose
  let s := (s.findings n).applyRepairs
  let m := s.mg
  let s := s.onMg (fun m => { m with phys := (List.range 4).flatMap m.replaced
                                     spares := #v[m.sparesOf 0, m.sparesOf 1, m.sparesOf 2, m.sparesOf 3] })
  let s : State := { s with keys := [(0, s.nextKey), (1, s.nextKey + 1)], nextKey := s.nextKey + 2 }
  m.badLanes.foldl State.retireAtBoot s

/-- What bring-up may find amiss in the flash: choice 1, the configuration; 2, both copies of the repair map. -/
def Mgmt.spoil (m : Mgmt) (n : Nat) : Mgmt :=
  match n with
  | 1 => { m with cfgOk := false }
  | 2 => { m with mapA := { m.mapA with ok := false }, mapB := { m.mapB with ok := false } }
  | _ => m

/-- The repair map as bring-up reads it (R442): empty, with event 0x0C, where neither copy is valid. -/
def State.loadMap (s : State) : State :=
  match s.mg.readMap with
  | some l => s.onMg (fun m => { m with repairs := l, extra := [] })
  | none => (s.onMg (fun m => { m with repairs := [], extra := [], counted := 0 })).event 0x0C 2 0xFFFF 0

/-- Bring-up from stage 1 (R456). The next choice says what fails: 1 the configuration, 2 the copies of the repair map, 3 the supply,
4 the memory training, 5 the self-test (log 67, DESIGN CHOICE). -/
def State.bringUp (s : State) : State :=
  let s := s.lost
  let (f, s) := s.choose
  let s := s.onMg (fun m => { m.spoil f with stage := 1, failed := false, down := false, running := none, secretOpen := true, layer := none
                                             entry := none, isl := [], pcap := 2200, report := [] })
  if !s.mg.cfgOk then s.stageFails 1
  else
    match s.loadMap.slotChoice with
    | (none, s) => (s.onMg (fun m => { m with secretOpen := false })).stageFails 2
    | (some b, s) =>
      let s := s.onMg (fun m => { m with running := some b, secretOpen := false
                                         layer := some { img := (m.slot b).img, fuses := m.fuses } })
      if f = 3 ∨ f = 4 then s.stageFails f
      else
        let s := s.stage5
        if f = 5 ∨ (List.range 4).any (fun d => decide (8 < (s.mg.badCores d).length)) then s.stageFails 5
        else s.stage6 b

/-- The boot count rises (R447). -/
def State.newBoot (s : State) : State := s.onMg (fun m => { m with life := { m.life with bootn := satAdd32 m.life.bootn 1 } })

/-- RESET (R455, R456): the package restarts at stage 1; the management island keeps its power, and its clock (R448). -/
def execReset (s : State) : Out := .next (s.respond 0x0B 0 []).newBoot.bringUp

/-- POWER_ON (R456): from power-off, the stages in order. -/
def execPowerOn (s : State) : Out := .next (if s.mg.stage = 0 then s.newBoot.bringUp else s)

/-- POWER_LOSS (R447): what was counted since the last save is lost. -/
def execPowerLoss (s : State) : Out := .next s.unpowered

/-- ORDERLY_SHUTDOWN (R447): the lifetime record is written first. -/
def execOrderlyShutdown (s : State) : Out := .next (s.onMg Mgmt.save).unpowered

/-- I3C_DYNAMIC_ADDRESS (R455): the target takes the address. -/
def execI3cDynamicAddress (a : BitVec 7) (s : State) : Out := .next (s.onMg (fun m => { m with i3cAddr := a }))

/-- ETHERNET_OPEN (R456, stage 7): both ports link up. -/
def execEthernetOpen (s : State) : Out :=
  .next (if s.windowUp ∧ s.mg.stage = 6 then { s.onMg (fun m => { m with stage := 7 }) with ethOpen := true } else s)

end Sys2Proof.Machine
end

