-- ==== Sys2Proof/Machine/Allots.lean ====
section
/-!
DEFINITION. Allotments (spec/19 R422 to R428, R437) and spare cores (spec/20 R443, R444): CREATE, UPDATE, DESTROY, the
routing table, the plain register writes (R9, R411), core repair, and one window of an arbiter.
-/

namespace Sys2Proof.Machine

open Sys2Proof

/-! ### The control block (R422, R425) -/

/-- FGUAR (R422). -/
def acbFguar (a : BitVec 1024) : Nat := bitsN a (8 * 4) 9
/-- FCAP (R422). -/
def acbFcap (a : BitVec 1024) : Nat := bitsN a (8 * 6) 9
/-- MGUAR (R422). -/
def acbMguar (a : BitVec 1024) : Nat := bitsN a (8 * 8) 9
/-- MCAP (R422). -/
def acbMcap (a : BitVec 1024) : Nat := bitsN a (8 * 10) 9
/-- NPLOT (R422). -/
def acbNplot (a : BitVec 1024) : Nat := bitsN a (8 * 12) 11

/-- A share group entry (R422). -/
def groupOk (h : Nat) : Bool := h / 2 ^ 12 % 8 == 0 && (h < 2 ^ 15 || isGroup (BitVec.ofNat 12 (h % 4096)))

/-- A physical address of 44 bits at an alignment. -/
def physOk (a al : Nat) : Bool := decide (a < 2 ^ 44) && a % al == 0

/-- The fields' ranges, reserved bits, alignments and share group entries (R425, RESULT 1). -/
def acbOk (a : BitVec 1024) : Bool :=
  decide (1 ≤ acbOwner a) && decide (acbOwner a ≤ 0x7FF) && bitsN a 12 4 == 0 && decide (2 ≤ acbKey a) &&
  decide (3 ≤ acbCeil a) && decide (acbCeil a ≤ 5) &&
  decide (acbFguar a ≤ 256) && bitsN a (8 * 4 + 9) 7 == 0 &&
  decide (1 ≤ acbFcap a) && decide (acbFcap a ≤ 256) && bitsN a (8 * 6 + 9) 7 == 0 &&
  decide (acbMguar a ≤ 256) && bitsN a (8 * 8 + 9) 7 == 0 &&
  decide (1 ≤ acbMcap a) && decide (acbMcap a ≤ 256) && bitsN a (8 * 10 + 9) 7 == 0 &&
  decide (1 ≤ acbNplot a) && decide (acbNplot a ≤ 1536) && bitsN a (8 * 12 + 11) 5 == 0 &&
  decide (acbCmnb a ≤ 256) && bitsN a (8 * 14 + 9) 7 == 0 &&
  physOk (acbRoot a) 16384 && physOk (acbQtab a) 64 && physOk (byteN a 32 8) 2 && physOk (byteN a 40 8) 1 && physOk (byteN a 48 8) 8 &&
  decide (bitsN a (8 * 0x38) 12 ≤ 2048) && bitsN a (8 * 0x38 + 12) 4 == 0 && byteN a 0x3A 6 == 0 &&
  physOk (byteN a 0x40 8) 64 && decide (4 ≤ acbFrlog a) && decide (acbFrlog a ≤ 20) && bitsN a (8 * 0x48 + 5) 3 == 0 && byteN a 0x49 3 == 0 &&
  (List.range 8).all (fun i => groupOk (byteN a (0x58 + 2 * i) 2)) &&
  physOk (byteN a 0x68 8) 4096 && decide (16 ≤ byteN a 0x70 4) && byteN a 0x74 12 == 0

/-- The control block at an address, where it may be read: 64-byte aligned in a frame of owner 0 (R422). -/
def State.readAcb (s : State) (a : Nat) : Option (BitVec 1024) :=
  if a % 64 ≠ 0 ∨ !populated a ∨ (s.frame (a / 65536)).owner ≠ 0 then none
  else
    let v : BitVec 1024 := BitVec.ofNat 1024 (s.dpRead a 128)
    if acbOk v then some v else none

/-- Ends an allotment command with a result. -/
def State.acmd (s : State) (r : BitVec 4) : State := { s with win := { s.win with aresult := r } }

/-- The plot map of a control block (R423). -/
def State.plotMap (s : State) (a : BitVec 1024) : List Nat := (List.range (acbNplot a)).map (fun i => s.dpRead (byteN a 32 8 + 2 * i) 2 (acbOwner a))

/-- Whether a plot map may be taken (R425, RESULT 3). -/
def State.mapOk (s : State) (l : List Nat) : Bool :=
  l.all (fun p => decide (p < 1536)) && decide l.Nodup && !s.allots.any (fun (_, x) => l.any (fun p => x.plots.contains p))

/-- Whether the guarantees fit (R425, RESULT 4), with the allotments other than `al`. -/
def State.sharesOk (s : State) (al : Nat) (a : BitVec 1024) : Bool :=
  let o := s.allots.filter (fun (n, _) => n != al)
  decide ((o.map (fun (_, x) => acbFguar x.acb)).sum + acbFguar a ≤ 256) && decide ((o.map (fun (_, x) => acbMguar x.acb)).sum + acbMguar a ≤ 256) &&
    decide (acbFguar a ≤ acbFcap a) && decide (acbMguar a ≤ acbMcap a)

/-- A queue as CREATE finds it: HEAD and CQTAIL as its control block in memory holds them, idle (log 58, DEDUCED). -/
def State.newQueue (s : State) (a : BitVec 1024) (q : Nat) : QState :=
  let w (o n : Nat) : Nat := s.dpRead (acbQtab a + 64 * q + o) n (acbOwner a)
  { head := BitVec.ofNat 32 (w 20 4), cqtail := BitVec.ofNat 32 (w 36 4), err := w 16 4 / 2 ^ 17 % 2 == 1, stall := w 16 4 / 2 ^ 17 % 2 == 1 }

/-- CREATE (R425). -/
def State.create (s : State) (a : Nat) (v : BitVec 1024) : State :=
  let al := acbOwner v
  let ps := s.plotMap v
  let x : Allot :=
    { acb := v, acbA := a, plots := ps, clamps := 0, frtail := 0
      queues := Vector.ofFn (fun (i : Fin 64) => s.newQueue v i), rrQ := 0, nAcc := 0, nSet := 0, graphs := [], saved := [], owed := [] }
  let s : State := { s with allots := put s.allots al x }
  let s := (s.dpWrite (a + 0x4C) 4 0 al).dpWrite (a + 0x54) 4 0 al
  (List.range 64).foldl (fun s q => s.setQcb al q 44 4 0) s

/-- CREATE (R424, R425): the checks in their order, then the allotment. -/
def execCreate (a : BitVec 44) (s : State) : Out :=
  .next (s.command s.win.abusy fun s =>
    match s.readAcb a.toNat with
    | none => s.acmd 1
    | some v =>
      if (look s.allots (acbOwner v)).isSome then s.acmd 2
      else if !s.mapOk (s.plotMap v) then s.acmd 3
      else if !s.sharesOk (acbOwner v) v then s.acmd 4
      else (s.create a.toNat v).acmd 0)

/-- The bytes of a control block that UPDATE may change, and those that the device or software writes at any time (R422,
R425). -/
def acbMutable : BitVec 1024 :=
  let f (o n w : Nat) : Nat := (2 ^ n - 1) * 2 ^ (8 * o + w)
  BitVec.ofNat 1024 (f 2 4 12 ||| f 4 9 0 ||| f 6 9 0 ||| f 8 9 0 ||| f 10 9 0 ||| f 0x38 12 0 ||| f 0x30 64 0 ||| f 0x58 128 0 ||| f 0x40 64 0 |||
    f 0x48 5 0 ||| f 0x4C 96 0)

/-- UPDATE (R424, R425). -/
def execUpdate (a : BitVec 44) (s : State) : Out :=
  .next (s.command s.win.abusy fun s =>
    match s.readAcb a.toNat with
    | none => s.acmd 1
    | some v =>
      match look s.allots (acbOwner v) with
      | none => s.acmd 2
      | some x =>
        if (v &&& ~~~acbMutable) ≠ (x.acb &&& ~~~acbMutable) then s.acmd 1
        else if !s.sharesOk (acbOwner v) v then s.acmd 4
        else (s.onAllot (acbOwner v) (fun x => { x with acb := v, acbA := a.toNat })).acmd 0)

/-- DESTROY (R424, R425): every queue idle and no accepted scene; the translations go, the plots are free. -/
def execDestroy (a : BitVec 44) (s : State) : Out :=
  .next (s.command s.win.abusy fun s =>
    match s.readAcb a.toNat with
    | none => s.acmd 1
    | some v =>
      let al := acbOwner v
      if (look s.allots al).isNone then s.acmd 2
      else if (List.range 64).any (fun q => (s.queue al q).ctxst != 0) || s.scenes.any (fun (_, x) => x.al == al) then s.acmd 5
      else (({ s with allots := del s.allots al } : State).dropAllTlb al).acmd 0)

/-! ### Plain registers (R9, R84, R411, R424, R455) -/

/-- A request that is written to MCMD (R455): BUSY is 1 until the management island serves it; one whose OP names none is a bad argument at
once (log 65, DEDUCED). -/
def State.mailbox (s : State) (v : BitVec 64) : State :=
  let o := bitsN v 0 8
  let tag : BitVec 16 := BitVec.ofNat 16 (bitsN v 16 16)
  if 1 ≤ o ∧ o ≤ 11 then { s with win := { s.win with mcBusy := true, mcOp := BitVec.ofNat 8 o, mcNew := tag } }
  else { s with win := { s.win with mcResult := 1, mcTag := tag } }

/-- The BUSY that a write to a register waits for (R411, R424, R455). -/
def Window.waits (w : Window) (r : WindowReg) : Bool :=
  match r with
  | .migva => w.mbusy
  | .mcmd => w.mcBusy
  | .acmdReserved => w.abusy
  | _ => false

/-- REGISTER_WRITE (R9): the register's RW or W field takes the written bits; its other bits are reserved. A
write of ACMD with OP 3 acts on nothing and leaves the result of R425. -/
def execRegisterWrite (r : WindowReg) (v : BitVec 64) (s : State) : Out :=
  .next (s.command (s.win.waits r) fun s => match r with
    | .mcmd => s.mailbox v
    | .sfrBase => { s with win := { s.win with sfrbase := BitVec.ofNat 44 (bitsN v 6 38 * 64) } }
    | .sfrLog => { s with win := { s.win with sfrlog := BitVec.ofNat 5 (bitsN v 0 5) } }
    | .sfrHead => { s with win := { s.win with sfrhead := BitVec.ofNat 32 (bitsN v 0 32) } }
    | .migva => { s with win := { s.win with migvpn := BitVec.ofNat 32 (bitsN v 0 32), migal := BitVec.ofNat 12 (bitsN v 32 12) } }
    | .rtBase => { s with win := { s.win with rtbase := BitVec.ofNat 44 (bitsN v 6 38 * 64) } }
    | .mdata i =>
      if i < 7 then
        { s with win := { s.win with mdata := ((s.win.mdata ++ List.replicate 7 0).take 7).set i v } }
      else s
    | .wpmask d i => if d < 4 ∧ i < 8 then { s with wpmask := put s.wpmask (8 * d + i) (BitVec.ofNat 16 (bitsN v 0 16)) } else s
    | .acmdReserved => s.acmd (if (s.readAcb (bitsN v 6 38 * 64)).isSome then 2 else 1))

/-! ### The routing table (R437) -/

/-- RTSYNC (R437): the table at RTBASE applies to every port. (Log 36, DESIGN CHOICE.) -/
def execRtsync (s : State) : Out :=
  .next (s.command false fun s =>
    { s with routes := ((List.range 2048).map (fun d => (d, BitVec.ofNat 128 (s.dpRead (s.win.rtbase.toNat + 16 * d) 16)))).filter (fun e => e.2 != 0) })

/-! ### Spare cores (R443, R444) -/

/-- The casts that a repair in progress saves (R443, step 2): those on the core's plots, and every cast of their COHORT scenes. -/
def State.repairCasts (s : State) : List (Nat × Cast) := s.casts.filter (fun (_, c) => s.repairing c)

/-- A plot on the spare core: RSEQ, PROMS and MXSEQ are carried over, and what the failing core's caches and tiles held is gone (R443). -/
def Plot.onSpare (p : Plot) : Plot :=
  { p with cache := [], roc := [], ic := [], tlb := [], slates := [], log := [], wfmt := 0, wrows := [], tiles := [] }

/-- The physical core behind a core number (R395). (Log 45, DEDUCED.) -/
def State.physOf (s : State) (c : Nat) : Nat := (look s.mg.phys c).getD (104 * (c / 96) + c % 96)

/-- Takes a saved cast off its plot for a repair: its lease stays (R443). -/
def State.lift (s : State) (x : SavedCast) : State :=
  { s.onPlot x.cast.plot (fun p => p.dropCast x.cid x.cast) with casts := del s.casts x.cid }

/-- The state, the lease and the buckets of a cast that a repair restores are those it had (R443). -/
def State.putBack (s : State) (x : SavedCast) : State :=
  s.onCast x.cid (fun c => { c with st := x.cast.st, lease := x.cast.lease, leased := x.cast.leased })

/-- Puts a spare of the core's die behind its number (R443, step 3): PHYS, SPARES, the cycle counter, and an entry of the repair map. -/
def State.useSpare (s : State) (core : Nat) : State :=
  let d := core / 96
  let old := s.physOf core
  let left := s.mg.spares.toList.getD d 0
  let used := (List.range 8).filter (fun j => !s.mg.phys.any (fun e => e.2 == 104 * d + 96 + j) && !(s.mg.badCores d).contains (104 * d + 96 + j))
  let s := s.onMg (fun m => { m with phys := put m.phys core (104 * d + 96 + used.headD 0), spares := m.spares.setIfInBounds d (left - 1) })
  let s : State := { s with clks := put s.clks core 0 }
  let e : RepairEnt := { kind := 2, die := BitVec.ofNat 3 d, field := true, loc := BitVec.ofNat 48 old, isl := core }
  ((s.addRepair e).countRepair core).event 0x03 1 core e.bits

/-- Steps 2 to 4 of a repair, after what was issued has completed (R443): the casts are saved to their contexts' save areas, the spare
takes the core's number, and they are restored together, with the turns of their plots (R355). -/
def State.replaceCore (s : State) (core : Nat) (cs : List (Nat × Cast)) : State :=
  let qs := (cs.map (fun (_, c) => (c.al, c.qn))).eraseDups
  let ids (al q : Nat) := (cs.filter (fun (_, c) => c.al == al && c.qn == q)).map Prod.fst
  let (s, saved) := qs.foldl (fun (r : State × List (Nat × Nat × List SavedCast)) (al, q) =>
    let (s, xs, _) := r.1.saveCasts al q (ids al q)
    (s, r.2 ++ [(al, q, xs)])) (s, [])
  let all := saved.flatMap (fun e => e.2.2)
  let turns := ((all.filter (fun x => descDet x.cast.desc == 1)).map (fun x => x.cast.plot)).eraseDups.map (fun p => (p, (s.plot p).turn))
  let s := all.foldl State.lift s
  let s := (List.range 4).foldl (fun s i => (s.flushPlot (4 * core + i)).onPlot (4 * core + i) Plot.onSpare) s
  let s := (s.useSpare core)
  let s := saved.foldl (fun s (_, _, xs) => s.restoreCasts xs) s
  let s := all.foldl State.putBack s
  turns.foldl (fun s (p, t) => s.restoreTurn p t) s

/-- A core repair in progress goes on (R443): its casts come to rest, as far as they can; once none waits, the core is replaced, and BUSY
clears. A fault of a cast meanwhile is MEMERR (R443). (Log 45, DEDUCED.) -/
def State.repairGo (s : State) : State :=
  match s.win.crep with
  | none => s
  | some core =>
    if s.repairWaits then s
    else
      let ids (s : State) : List Nat := s.repairCasts.map Prod.fst
      let s := s.drainAll (ids s)
      let s := if (ids s).any s.draining then s else s.failUnsaved (ids s)
      if (ids s).any s.draining || s.unsaved (ids s) then s
      else
        let s := s.replaceCore core s.repairCasts
        { s with win := { s.win with crep := none, cresult := 0 } }

/-- CREPAIR (R443, R444): RESULT 2 for a bad core number, 1 where no spare is left, 3 for the core under repair; a write for another core
waits while BUSY is 1 (R411). The repair then goes on by itself. (Log 45, DEDUCED.) -/
def execCrepair (core : BitVec 9) (s : State) : Out :=
  let r (s : State) (v : BitVec 2) : State := { s with win := { s.win with cresult := v } }
  .next (if s.win.crep = some core.toNat then s.command false (fun s => r s 3)
    else s.command s.win.crep.isSome fun s =>
      if 384 ≤ core.toNat then r s 2
      else if s.mg.spares.toList.getD (core.toNat / 96) 0 = 0 then r s 1
      else { s with win := { s.win with crep := some core.toNat } })

/-! ### Bandwidth shares (R427, R428) -/

/-- An allotment at an arbiter: number, floor and ceiling in units. -/
structure Share where
  al : Nat
  floor : Nat
  cap : Nat
  got : Nat
  deriving DecidableEq, Repr

/-- One round of the equal split (R428): every share below its cap takes an equal quantum, at most up to its cap. -/
def splitRound (left : Nat) (l : List Share) : Nat × List Share :=
  let n := (l.filter (fun x => decide (x.got < x.cap))).length
  let q := if n = 0 then 0 else left / n
  l.foldr (fun x (r : Nat × List Share) =>
    let t := min q (x.cap - x.got)
    (r.1 - t, { x with got := x.got + t } :: r.2)) (left, [])

/-- One unit each for the first shares below their caps, where an equal split leaves a remainder (R428). -/
def splitRest : Nat → List Share → List Share
  | 0, l => l
  | _, [] => []
  | n + 1, x :: r => if x.got < x.cap then { x with got := x.got + 1 } :: splitRest n r else x :: splitRest (n + 1) r

/-- The split of what the guarantees leave (R428): at most one round per allotment, then the remainder. -/
def splitAll : Nat → Nat → List Share → List Share
  | 0, left, l => splitRest left l
  | n + 1, left, l =>
    let (left, l) := splitRound left l
    splitAll n left l

/-- The service of one window of 4,096 units (R428): `sys` units of system traffic first, then each allotment (number, guarantee, cap, and
units that wait) its guarantee less its share of them, then the rest in equal quanta. -/
def window (sys : Nat) (l : List (Nat × Nat × Nat × Nat)) : List (Nat × Nat) :=
  let sh := l.map (fun (al, g, c, n) =>
    ({ al := al, floor := 16 * g - (sys * g + 255) / 256, cap := min (16 * c) n, got := min (16 * g - (sys * g + 255) / 256) (min (16 * c) n) } : Share))
  let left := 4096 - sys - (sh.map Share.got).sum
  (splitAll sh.length left sh).map (fun x => (x.al, x.got))

/-- Whether an arbiter serves: numbers 0 to 255 are the fabric ports' directions, and a port that is down serves nothing (R440). -/
def State.serves (s : State) (arb : Nat) : Bool := decide (256 ≤ arb) || s.portUp (arb / 2)

/-- ARBITRATION_WINDOW (R427, R428): one window of an arbiter, a fabric port's direction or a memory controller. The system's requests are
served first, up to 1/16 of it; what is not served goes on waiting. On a degraded port the units are those of its remaining capacity.
(Log 68, DESIGN CHOICE.) -/
def execArbitrationWindow (arb : Nat) (s : State) : Out :=
  .next (if !s.serves arb then { s with arb := s.arb.filter (fun e => e.1 / 4096 != arb) }
    else
      let here := s.pend.filter (fun e => e.1 == arb)
      let sys := min 256 ((here.filter (fun e => e.2.1.isNone)).map (fun e => e.2.2)).sum
      let l := here.filterMap (fun e => e.2.1.bind (fun al => (look s.allots al).map (fun a =>
        if arb < 256 then (al, acbFguar a.acb, acbFcap a.acb, e.2.2) else (al, acbMguar a.acb, acbMcap a.acb, e.2.2))))
      let got := window sys l
      let left (e : Nat × Option Nat × Nat) : Nat × Option Nat × Nat :=
        match e.2.1 with
        | none => (e.1, none, e.2.2 - sys)
        | some al => (e.1, some al, e.2.2 - ((got.find? (fun g => g.1 == al)).map Prod.snd).getD 0)
      { s with
        pend := (s.pend.map (fun e => if e.1 = arb then left e else e)).filter (fun e => decide (0 < e.2.2))
        arb := got.foldl (fun a (al, n) => put a (arb * 4096 + al) n) (s.arb.filter (fun e => e.1 / 4096 != arb)) })

end Sys2Proof.Machine
end

