-- ==== Sys2Proof/Machine/Errors.lean ====
section
/-!
DEFINITION. Errors in storage (spec/18 R421, spec/20 R445, R446, spec/07 R239): uncorrectable and corrected errors, and the
patrol scrubber.
-/

namespace Sys2Proof.Machine

open Sys2Proof

/-- The island of the controller behind a line: an HBM controller of its die, one per stack; 0xFFFF for the LPDDR tier, whose
controllers' islands the spec does not number (R4, R82). (Log 39, DEDUCED.) -/
def memIsland (l : Nat) : Nat :=
  let st := l * 128 / 2 ^ 36
  if st < 8 then 384 + 28 * (st / 2) + 20 + st % 2 else 0xFFFF

/-- Counts for an island, where one is named. -/
def State.onLife? (s : State) (i : Nat) (f : LifeIsl → LifeIsl) : State := if i < 512 then s.onLife i f else s

/-- The entry for the HBM row of a line (R442, R446). -/
def hbmEnt (l : Nat) : RepairEnt :=
  let st := l * 128 / 2 ^ 36
  { kind := 3, die := BitVec.ofNat 3 (st / 2), field := true, loc := BitVec.ofNat 48 (st + Config.hbmRow l * 8)
    isl := memIsland l }

/-- Adds the HBM row of a line to the repair map (R446); the LPDDR tier has no entries. -/
def State.repairRow (s : State) (l : Nat) : State := if l < 2 ^ 32 then s.addRepair (hbmEnt l) else s

/-- An uncorrectable error in a line of memory: the line keeps failing, and its row is added (R421, R446). -/
def State.badLine (s : State) (l : Nat) : State :=
  let s : State := { s with errLines := if s.errLines.contains l then s.errLines else s.errLines ++ [l] }
  let s := (s.onLife? (memIsland l) LifeIsl.uncorrected).repairRow l
  s.event 0x02 2 (memIsland l) (if l < 2 ^ 32 then (hbmEnt l).bits else 0)

/-- An uncorrectable error in an SRAM of an island: counted, its row added at once, and recorded (R421, R445). -/
def State.badSram (s : State) (isl : Nat) : State :=
  let (e, s) := s.sramRow isl
  ((s.onLife isl LifeIsl.uncorrected).addRepair e).event 0x02 2 isl e.bits

/-- Drops a plot's copy of a line without writing it back. -/
def Plot.dropLine (l : Nat) (p : Plot) : Plot := { p with cache := p.cache.filter (fun x => x.n != l) }

/-- The record of a lost dirty line (R421): it names no cast and no thread; its allotment is the frame's owner.
(Log 37, DEDUCED.) -/
def State.lossRec (s : State) (l : Nat) (p : Option Nat) : FaultRec :=
  let al := (s.frame (l / 512)).owner.toNat
  { sceneRec al 0 0 .memerr 1 0 0 .none with
    plot := match p with
      | some p => BitVec.ofNat 16 (s.relPlot al p)
      | none => 0xFFFF }

/-- A dirty line that is lost (R421): its tag keeps an error flag, and a record reports it. -/
def State.loseLine (s : State) (l : Nat) (p : Option Nat) : State :=
  let s : State := { s with lostLines := if s.lostLines.contains l then s.lostLines else s.lostLines ++ [l] }
  s.record (s.lossRec l p)

/-- Drops one entry of a plot's translation and slate caches, which the next choice picks; a later number is the loop
buffer's (R421). (Log 38, DEDUCED.) -/
def Plot.dropEntry (n : Nat) (p : Plot) : Plot :=
  if n < p.tlb.length then { p with tlb := p.tlb.eraseIdx n }
  else { p with slates := p.slates.eraseIdx (n - p.tlb.length) }

/-- UNCORRECTABLE_ERROR (R421), by the place where it is found; one whose record cannot be held waits (R420). An error in a cast's own
storage shows when the cast next reads the word. (Log 37, DEDUCED.) (Log 86, DESIGN CHOICE.) -/
def execUncorrectableError (w : ErrPlace) (s : State) : Out :=
  .next (match w with
    | .memoryLine l => s.badLine l
    | .cleanLine p l =>
      if (s.plot p).cache.any (fun x => x.n == l && !x.isDirty) then (s.onPlot p (Plot.dropLine l)).badSram (p / 4) else s
    | .cleanShared l =>
      if s.slines.any (fun x => x.n == l && !x.dirty) then
        { s with slines := s.slines.filter (fun x => x.n != l) }.badSram (homeIsland (l * 128))
      else s
    | .roLine p l =>
      if (s.plot p).roc.any (fun x => x.n == l) then
        (s.onPlot p (fun q => { q with roc := q.roc.filter (fun x => x.n != l) })).badSram (p / 4)
      else s
    | .codeLine p l =>
      if (s.plot p).ic.any (fun x => x.n == l) then
        (s.onPlot p (fun q => { q with ic := q.ic.filter (fun x => x.n != l) })).badSram (p / 4)
      else s
    | .dirtyShared l => if s.recFull then s else (s.loseLine l none).badSram (homeIsland (l * 128))
    | .dirtyPlot p l =>
      if (s.plot p).cache.any (fun x => x.n == l && x.isDirty) && !s.recFull then
        ((s.onPlot p (Plot.dropLine l)).loseLine l (some p)).badSram (p / 4)
      else s
    | .castStorage c =>
      match look s.casts c with
      | none => s
      | some k => (s.setCast c { k with bad := true }).badSram (k.plot / 4)
    | .plotCaches p =>
      let (n, s) := s.choose
      (s.onPlot p (Plot.dropEntry n)).badSram (p / 4))

/-- Counts a correction of a key and answers how many lie within 24 hours of the management island's clock. -/
def State.recentCount (s : State) (key : Nat) : Nat × State :=
  let now := s.mg.usec.toNat
  let l := s.mg.recent.filter (fun e => decide (now < e.2 + 86400000000)) ++ [(key, now)]
  ((l.filter (fun e => e.1 == key)).length, s.onMg (fun m => { m with recent := l }))

/-- A threshold that is crossed: event 0x01 and the entry; the key's count starts again (R445, R446). (Log 38, DEDUCED.) -/
def State.threshold (s : State) (key isl : Nat) (e : RepairEnt) : State :=
  let s := s.onMg (fun m => { m with recent := m.recent.filter (fun x => x.1 != key) })
  (s.event 0x01 1 isl e.bits).addRepair e

/-- A macro's corrected count (R447). -/
def LifeRec.countMacro (r : LifeRec) (m : Nat) : LifeRec :=
  match look r.macros m with
  | some n => { r with macros := put r.macros m (satAdd32 n 1) }
  | none => if r.macros.length < 16384 then { r with macros := r.macros ++ [(m, 1)] } else r

/-- A spurious event for a thread's registration (R239): ORDERED casts read the word again, and do not return for it. -/
def spuriousOf (c : Cast) (t : Thread) : Thread :=
  match t.st with
  | .blocked (.waita w) =>
    if descDet c.desc = 1 then { t with st := .blocked (.waita { w with woken := true }) }
    else { t with st := .blocked (.waita { w with spurious := true }) }
  | _ => t

/-- A corrected error in the record of registration `n` of a die, counting from 1; 0 is no registration's record (R239).
(Log 17, DESIGN CHOICE.) -/
def State.spurious (s : State) (d n : Nat) : State :=
  let l := s.casts.flatMap (fun (i, c) => (c.threads.filter (fun (_, t) => registered d t)).map (fun (j, _) => (i, j)))
  match l[n - 1]? with
  | some (i, j) =>
    if n = 0 then s
    else s.onCast i (fun c => { c with threads := c.threads.map (fun (k, t) => (k, if k = j then spuriousOf c t else t)) })
  | none => s

/-- CORRECTED_ERROR (R445): written back corrected, counted, and at the threshold repaired; in a synchronisation engine it may
meet a registration (R239). -/
def execCorrectedError (isl m row : Nat) (s : State) : Out :=
  .next (
    let s := (s.onLife? isl LifeIsl.corrected).onMg (fun g => { g with life := g.life.countMacro m })
    let (n, s) := s.recentCount (2 * m)
    let s := if 16 ≤ n then s.threshold (2 * m) isl (sramEnt isl m row) else s
    match syncDie isl with
    | none => s
    | some d =>
      let (n, s) := s.choose
      s.spurious d n)

/-- A line transfer of the patrol: owner-0 traffic (R427, R446). -/
def State.patrolRead (s : State) (l : Nat) : State := s.charge (memArb (l * 128)) .system 1

/-- PATROL_SCRUB (R446): what the patrol's read of a line finds; a line that it corrects is written back. -/
def execPatrolScrub (l : Nat) (h : ScrubFinding) (s : State) : Out :=
  .next (match h with
    | .clean => s.patrolRead l
    | .corrected =>
      let s := (s.patrolRead l).patrolRead l
      let s := s.onLife? (memIsland l) LifeIsl.corrected
      if l < 2 ^ 32 then
        let key := 2 * (hbmEnt l).loc.toNat + 1
        let (n, s) := s.recentCount key
        if 4 ≤ n then s.threshold key (memIsland l) (hbmEnt l) else s
      else s
    | .uncorrectable => (s.patrolRead l).badLine l)

end Sys2Proof.Machine
end

