-- ==== Sys2Proof/Machine/IntAlu.lean ====
section
/-!
DEFINITION. IALU and the immediate forms (spec/05 R147 to R155).
-/

namespace Sys2Proof.Machine

open Sys2Proof

/-- ADD (R147): wraps modulo 2^32. -/
def execAdd (q : Bool) (d a b : BitVec 6) (s : State) : Out :=
  aluOp 4 q [a, b] d (fun t => t.getX a + t.getX b) s

/-- SUB (R147): wraps modulo 2^32. -/
def execSub (q : Bool) (d a b : BitVec 6) (s : State) : Out :=
  aluOp 4 q [a, b] d (fun t => t.getX a - t.getX b) s

/-- AND (R147): bitwise. -/
def execAnd (q : Bool) (d a b : BitVec 6) (s : State) : Out :=
  aluOp 4 q [a, b] d (fun t => t.getX a &&& t.getX b) s

/-- OR (R147): bitwise. -/
def execOr (q : Bool) (d a b : BitVec 6) (s : State) : Out :=
  aluOp 4 q [a, b] d (fun t => t.getX a ||| t.getX b) s

/-- XOR (R147): bitwise. -/
def execXor (q : Bool) (d a b : BitVec 6) (s : State) : Out :=
  aluOp 4 q [a, b] d (fun t => t.getX a ^^^ t.getX b) s

/-- ANDN (R147): x[a] AND NOT x[b]. -/
def execAndn (q : Bool) (d a b : BitVec 6) (s : State) : Out :=
  aluOp 4 q [a, b] d (fun t => t.getX a &&& ~~~(t.getX b)) s

/-- SHL (R147): amount modulo 32 (R148). -/
def execShl (q : Bool) (d a b : BitVec 6) (s : State) : Out :=
  aluOp 4 q [a, b] d (fun t => t.getX a <<< amt (t.getX b)) s

/-- SHR (R147): zeros enter. -/
def execShr (q : Bool) (d a b : BitVec 6) (s : State) : Out :=
  aluOp 4 q [a, b] d (fun t => t.getX a >>> amt (t.getX b)) s

/-- SRA (R147): copies of bit 31 enter. -/
def execSra (q : Bool) (d a b : BitVec 6) (s : State) : Out :=
  aluOp 4 q [a, b] d (fun t => (t.getX a).sshiftRight (amt (t.getX b))) s

/-- ROR (R147): rotated right. -/
def execRor (q : Bool) (d a b : BitVec 6) (s : State) : Out :=
  aluOp 4 q [a, b] d (fun t => (t.getX a).rotateRight (amt (t.getX b))) s

/-- MUL (R147): low 32 bits of the product. -/
def execMul (q : Bool) (d a b : BitVec 6) (s : State) : Out :=
  aluOp 4 q [a, b] d (fun t => t.getX a * t.getX b) s

/-- MULH (R147): high word, signed by signed. -/
def execMulh (q : Bool) (d a b : BitVec 6) (s : State) : Out :=
  aluOp 4 q [a, b] d (fun t => hiWord ((t.getX a).toInt * (t.getX b).toInt)) s

/-- MULHU (R147): high word, unsigned. -/
def execMulhu (q : Bool) (d a b : BitVec 6) (s : State) : Out :=
  aluOp 4 q [a, b] d (fun t => hiWord (((t.getX a).toNat * (t.getX b).toNat : Nat) : Int)) s

/-- MULHSU (R147): high word, signed by unsigned. -/
def execMulhsu (q : Bool) (d a b : BitVec 6) (s : State) : Out :=
  aluOp 4 q [a, b] d (fun t => hiWord ((t.getX a).toInt * ((t.getX b).toNat : Int))) s

/-- MIN (R147): signed minimum. -/
def execMin (q : Bool) (d a b : BitVec 6) (s : State) : Out :=
  aluOp 4 q [a, b] d (fun t => if (t.getX a).toInt ≤ (t.getX b).toInt then t.getX a else t.getX b) s

/-- MAX (R147): signed maximum. -/
def execMax (q : Bool) (d a b : BitVec 6) (s : State) : Out :=
  aluOp 4 q [a, b] d (fun t => if (t.getX b).toInt ≤ (t.getX a).toInt then t.getX a else t.getX b) s

/-- MINU (R147): unsigned minimum. -/
def execMinu (q : Bool) (d a b : BitVec 6) (s : State) : Out :=
  aluOp 4 q [a, b] d (fun t => if (t.getX a).toNat ≤ (t.getX b).toNat then t.getX a else t.getX b) s

/-- MAXU (R147): unsigned maximum. -/
def execMaxu (q : Bool) (d a b : BitVec 6) (s : State) : Out :=
  aluOp 4 q [a, b] d (fun t => if (t.getX b).toNat ≤ (t.getX a).toNat then t.getX a else t.getX b) s

/-- SLT (R147): 1 where x[a] < x[b], signed. -/
def execSlt (q : Bool) (d a b : BitVec 6) (s : State) : Out :=
  aluOp 4 q [a, b] d (fun t => if (t.getX a).toInt < (t.getX b).toInt then 1 else 0) s

/-- SLTU (R147): 1 where x[a] < x[b], unsigned. -/
def execSltu (q : Bool) (d a b : BitVec 6) (s : State) : Out :=
  aluOp 4 q [a, b] d (fun t => if (t.getX a).toNat < (t.getX b).toNat then 1 else 0) s

/-- CLZ (R147). -/
def execClz (q : Bool) (d a : BitVec 6) (s : State) : Out :=
  aluOp 4 q [a] d (fun t => BitVec.ofNat 32 (clz (t.getX a))) s

/-- POPC (R147). -/
def execPopc (q : Bool) (d a : BitVec 6) (s : State) : Out :=
  aluOp 4 q [a] d (fun t => BitVec.ofNat 32 (popc (t.getX a) 32)) s

/-- BREV (R147). -/
def execBrev (q : Bool) (d a : BitVec 6) (s : State) : Out :=
  aluOp 4 q [a] d (fun t => (t.getX a).reverse) s

/-- DIV (R149): its result is pending (R50). -/
def execDiv (q : Bool) (d a b : BitVec 6) (s : State) : Out :=
  pendOp q [.x a, .x b] [.x d] (fun k => { dst := [(.x d, divS (k.t.getX a) (k.t.getX b))] }) s

/-- DIVU (R149): its result is pending (R50). -/
def execDivu (q : Bool) (d a b : BitVec 6) (s : State) : Out :=
  pendOp q [.x a, .x b] [.x d] (fun k => { dst := [(.x d, divU (k.t.getX a) (k.t.getX b))] }) s

/-- REM (R149): its result is pending (R50). -/
def execRem (q : Bool) (d a b : BitVec 6) (s : State) : Out :=
  pendOp q [.x a, .x b] [.x d] (fun k => { dst := [(.x d, remS (k.t.getX a) (k.t.getX b))] }) s

/-- REMU (R149): its result is pending (R50). -/
def execRemu (q : Bool) (d a b : BitVec 6) (s : State) : Out :=
  pendOp q [.x a, .x b] [.x d] (fun k => { dst := [(.x d, remU (k.t.getX a) (k.t.getX b))] }) s

/-- ADDI (R151): imm12 sign-extended. -/
def execAddi (q : Bool) (d a : BitVec 6) (im : BitVec 12) (s : State) : Out :=
  aluOp 4 q [a] d (fun t => t.getX a + simm im) s

/-- ANDI (R151): imm12 zero-extended. -/
def execAndi (q : Bool) (d a : BitVec 6) (im : BitVec 12) (s : State) : Out :=
  aluOp 4 q [a] d (fun t => t.getX a &&& uimm im) s

/-- ORI (R151): imm12 zero-extended. -/
def execOri (q : Bool) (d a : BitVec 6) (im : BitVec 12) (s : State) : Out :=
  aluOp 4 q [a] d (fun t => t.getX a ||| uimm im) s

/-- XORI (R151): imm12 zero-extended. -/
def execXori (q : Bool) (d a : BitVec 6) (im : BitVec 12) (s : State) : Out :=
  aluOp 4 q [a] d (fun t => t.getX a ^^^ uimm im) s

/-- SHLI (R152). -/
def execShli (q : Bool) (d a : BitVec 6) (n : BitVec 5) (s : State) : Out :=
  aluOp 4 q [a] d (fun t => t.getX a <<< n.toNat) s

/-- SHRI (R152). -/
def execShri (q : Bool) (d a : BitVec 6) (n : BitVec 5) (s : State) : Out :=
  aluOp 4 q [a] d (fun t => t.getX a >>> n.toNat) s

/-- SRAI (R152). -/
def execSrai (q : Bool) (d a : BitVec 6) (n : BitVec 5) (s : State) : Out :=
  aluOp 4 q [a] d (fun t => (t.getX a).sshiftRight n.toNat) s

/-- RORI (R152). -/
def execRori (q : Bool) (d a : BitVec 6) (n : BitVec 5) (s : State) : Out :=
  aluOp 4 q [a] d (fun t => (t.getX a).rotateRight n.toNat) s

/-- LUI, mode 0 (R153). -/
def execLui (q : Bool) (d : BitVec 6) (v : BitVec 16) (s : State) : Out :=
  aluOp 4 q [] d (fun _ => uimm v <<< 16) s

/-- LUI.Z, mode 1 (R153). -/
def execLuiZ (q : Bool) (d : BitVec 6) (v : BitVec 16) (s : State) : Out :=
  aluOp 4 q [] d (fun _ => uimm v) s

/-- LUI.LO, mode 2 (R153): it reads x[d]. -/
def execLuiLo (q : Bool) (d : BitVec 6) (v : BitVec 16) (s : State) : Out :=
  aluOp 4 q [d] d (fun t => (t.getX d &&& 0xFFFF0000) ||| uimm v) s

/-- LUI.S, mode 3 (R153). -/
def execLuiS (q : Bool) (d : BitVec 6) (v : BitVec 16) (s : State) : Out :=
  aluOp 4 q [] d (fun _ => simm v) s

/-- BFX (R154): lsb + width above 32 raises ILL. -/
def execBfx (q : Bool) (d a : BitVec 6) (l w : BitVec 5) (s : State) : Out :=
  modeOp (!(Instr.bfx q d a l w).wf) 4 q [.x a] [.x d] (fun _ t => (t.setX d (bfx false (t.getX a) l.toNat (w.toNat + 1)), 0)) s

/-- BFXS (R154): lsb + width above 32 raises ILL. -/
def execBfxS (q : Bool) (d a : BitVec 6) (l w : BitVec 5) (s : State) : Out :=
  modeOp (!(Instr.bfxS q d a l w).wf) 4 q [.x a] [.x d] (fun _ t => (t.setX d (bfx true (t.getX a) l.toNat (w.toNat + 1)), 0)) s

/-- BFI (R155): lsb + width above 32 raises ILL. -/
def execBfi (q : Bool) (d a : BitVec 6) (l w : BitVec 5) (s : State) : Out :=
  modeOp (!(Instr.bfi q d a l w).wf) 4 q [.x d, .x a] [.x d] (fun _ t => (t.setX d (bfi (t.getX d) (t.getX a) l.toNat (w.toNat + 1)), 0)) s

end Sys2Proof.Machine
end

