-- ==== Sys2Proof/Machine/Link.lean ====
section
/-!
DEFINITION. The host link and the scale-up fabric (spec/19 R429 to R440): RDMA requests of queue pairs, congestion and flow
control, requests of other devices, flits, and the lanes of the ports.
-/

namespace Sys2Proof.Machine

open Sys2Proof

/-! ### The host link (R429 to R431) -/

/-- A queue pair that can take a request: both ports are open, and it is not in the error state (R429, R456). -/
def State.qpair (s : State) (qp : Nat) : Option QPair :=
  if s.ethOpen then (look s.qps qp).bind (fun q => if q.err then none else some q) else none

/-- Changes a queue pair. -/
def State.onPair (s : State) (qp : Nat) (f : QPair → QPair) : State :=
  match look s.qps qp with
  | some q => { s with qps := put s.qps qp (f q) }
  | none => s

/-- The resident operating system creates a queue pair (R430): at most 16,384, on one of the two ports, with a path MTU that is supported
(R429), for an active allotment. The spec gives the creation no register (log 46, DEDUCED). -/
def State.newPair (s : State) (qp : Nat) (q : QPair) : State :=
  if s.windowUp && (look s.qps qp).isNone && decide (s.qps.length < 16384) && decide (q.port < 2) && [1024, 2048, 4096].contains q.mtu &&
      (look s.allots q.al).isSome then
    { s with qps := put s.qps qp { q with err := false, wait := [] } }
  else s

/-- The UDP destination port of RoCE version 2 (R429). -/
def roceUdp : BitVec 16 := 4791

/-- Sends a packet of a queue pair, by its peer's version of IP to UDP destination port 4791: it waits where flow control holds its port's
priority back (R429). -/
def State.ethSend (s : State) (qp : Nat) (x : Sent) : State :=
  match look s.qps qp with
  | none => s
  | some q =>
    let x := Sent.roce q.ip6 roceUdp x
    if s.pfc.contains (q.port, q.prio) then { s with ethQ := s.ethQ ++ [(q.port, q.prio, x)] } else s.send x

/-- Puts a queue pair in the error state (R429, R430): what waits in it is not performed. -/
def State.qpError (s : State) (qp : Nat) : State := s.onPair qp (fun q => { q with err := true, wait := [] })

/-- A NAK for a remote access error, and the error state (R430). -/
def State.nakAccess (s : State) (qp : Nat) : State := (s.ethSend qp (.nakAccess qp)).qpError qp

/-- A NAK for an invalid request, and the error state (R429). -/
def State.nakInvalid (s : State) (qp : Nat) : State := (s.ethSend qp (.nakInvalid qp)).qpError qp

/-- A request that fails its checks (R430): the NAK, and a class 3 record of code XLATE, PROT or FOWN. (Log 46, DEDUCED.) -/
def State.rdmaFails (s : State) (qp al va : Nat) (e : Stop) (k : Acck) : State :=
  let s := s.seesTo al va 1
  let rec_ (code : FCode) (info : Nat) : State := s.record (sceneRec al 0 0 code 3 info (BitVec.ofNat 64 va) k)
  (match e with
    | .xlate kind _ => rec_ .xlate kind
    | .fatal .memerr _ _ _ => s
    | .fatal code _ info _ => rec_ code info
    | .migrating _ => s).nakAccess qp

/-- Writes bytes for an allotment at their homes, line by line, each as an allotment-scope release that wakes waiters (R431).
A whole line is written without being read (R446). What went before a failing line stays written. (Log 46, DEDUCED.) -/
def State.putLines (s : State) (al va : Nat) (d : List Byte) : Nat → Except (State × Stop) State
  | 0 => .ok s
  | n + 1 =>
    if d.isEmpty then .ok s
    else
      let m := 128 - va % 128
      let piece := d.take m
      let s1 : State := if piece.length = 128 then
          (match walk s al va with
            | .leaf l _ b => { s with errLines := s.errLines.filter (fun x => x != leafPa l b va / 128) }
            | _ => s)
        else s
      match agentAccess s1 al va .write with
      | .error e => .error (s, e)
      | .ok (s1, pa, _) => (s1.deviceWrite (.home pa) piece.length (bytesNat piece)).putLines al (va + m) (d.drop m) n

/-- Reads bytes for an allotment at their homes, line by line (R431). -/
def State.getLines (s : State) (al va n : Nat) : Nat → Except (State × Stop) (State × List Byte)
  | 0 => .ok (s, [])
  | fuel + 1 =>
    if n = 0 then .ok (s, [])
    else
      let m := min n (128 - va % 128)
      match agentAccess s al va .read with
      | .error e => .error (s, e)
      | .ok (s, pa, z) =>
        match s.getLines al (va + m) (n - m) fuel with
        | .error e => .error e
        | .ok (t, l) => .ok (t, natBytes m (if z then 0 else s.homeRead pa m) ++ l)

/-- The ACCK of a request's record (R430). -/
def RdmaOp.acck (o : RdmaOp) : Acck :=
  match o with
  | .write _ => .store
  | .read _ => .load
  | .atomic _ => .atomic
  | .invalid => .none

/-- A request that is no supported operation (R429): an atomic that is not aligned counts as one (log 47, DEDUCED). -/
def RdmaReq.bad (r : RdmaReq) : Bool :=
  match r.op with
  | .invalid => true
  | .atomic _ => r.va.toNat % 8 != 0
  | _ => false

/-- Sends a read's data in packets of the path MTU (R429). -/
def State.sendData (s : State) (qp mtu : Nat) (d : List Byte) : State :=
  (List.range (max 1 ((d.length + mtu - 1) / mtu))).foldl (fun s i => s.ethSend qp (.readData qp ((d.drop (mtu * i)).take mtu))) s

/-- Performs a request of a queue pair (R431). An atomic acts on the low word of its doubleword; the response carries the old low word, and
the high word as the same step reads it. -/
def State.rdmaDo (s : State) (qp : Nat) (q : QPair) (r : RdmaReq) : Except (State × Stop) State :=
  match r.op with
  | .write d => (s.putLines q.al r.va.toNat d (d.length + 1)).map (fun s => s.ethSend qp (.writeAck qp))
  | .read n => (s.getLines q.al r.va.toNat n (n + 1)).map (fun (s, d) => s.sendData qp q.mtu d)
  | .atomic u =>
    match agentAccess s q.al r.va.toNat .write with
    | .error e => .error (s, e)
    | .ok (s, pa, _) =>
      let (s, old) := s.update 0 .home (.home pa) false u
      .ok (s.ethSend qp (.atomicOld qp (BitVec.ofNat 64 (old.toNat + s.homeRead (pa + 4) 4 * 2 ^ 32))))
  | .invalid => .ok s

/-- How many bytes a request reaches. -/
def RdmaOp.size (o : RdmaOp) : Nat :=
  match o with
  | .write d => d.length
  | .read n => n
  | .atomic _ => 8
  | .invalid => 0

/-- Serves a request of a queue pair (R429, R430): a NAK for a request that is invalid, has another R_Key, has high address bits or runs on to
an address that has them, or fails its checks. None: its page is under migration, or its record has no room, and it waits (R414, R420). -/
def State.rdmaServe (s : State) (qp : Nat) (q : QPair) (r : RdmaReq) : Option State :=
  if r.bad then some (s.nakInvalid qp)
  else if q.rkey ≠ r.rk ∨ bitsN r.va 48 16 ≠ 0 ∨ 2 ^ 48 < r.va.toNat + r.op.size then some (s.nakAccess qp)
  else match s.rdmaDo qp q r with
    | .ok s => some s
    | .error (_, .migrating _) => none
    | .error (t, e) => if s.recFull then none else some (t.rdmaFails qp q.al r.va.toNat e r.op.acck)

/-- A request arrives at a queue pair: it is served in the order posted, behind those that wait (R431). -/
def State.rdma (s : State) (qp : Nat) (r : RdmaReq) : State :=
  match s.qpair qp with
  | none => s
  | some q =>
    match (if q.wait.isEmpty then s.rdmaServe qp q r else none) with
    | some s => s
    | none => s.onPair qp (fun q => { q with wait := q.wait ++ [r] })

/-- The requests that wait in a queue pair are served, as far as they can be, at most `n`. -/
def State.rdmaGo (qp : Nat) : Nat → State → State
  | 0, s => s
  | n + 1, s =>
    match (s.qpair qp).bind (fun q => q.wait.head?.bind (fun r => s.rdmaServe qp q r)) with
    | some s => State.rdmaGo qp n (s.onPair qp (fun q => { q with wait := q.wait.drop 1 }))
    | none => s

/-- The requests that wait in the queue pairs go on. -/
def State.rdmaRetry (s : State) : State := s.qps.foldl (fun s (n, q) => State.rdmaGo n q.wait.length s) s

/-- A packet arrives over Ethernet (R429): one of IPv4 or IPv6 to UDP destination port 4791 brings its request to the queue pair whose peer
is reached so; the device supports no other, and drops it. -/
def State.packet (s : State) (ip udp qp : Nat) (r : RdmaReq) : State :=
  match s.qpair qp with
  | none => s
  | some q => if udp = roceUdp.toNat ∧ ip = (if q.ip6 then 6 else 4) then s.rdma qp r else s

/-- RDMA_WRITE (R430, R431). -/
def execRdmaWrite (qp : Nat) (rk : BitVec 32) (va : BitVec 64) (d : List (BitVec 8)) (s : State) : Out :=
  .next (s.rdma qp { rk := rk, va := va, op := .write d })

/-- RDMA_READ (R430, R431). -/
def execRdmaRead (qp : Nat) (rk : BitVec 32) (va : BitVec 64) (n : Nat) (s : State) : Out :=
  .next (s.rdma qp { rk := rk, va := va, op := .read n })

/-- ATOMIC_FETCH_AND_ADD (R431): one ATOM ADD on the low 32 bits. -/
def execAtomicFetchAndAdd (qp : Nat) (rk : BitVec 32) (va x : BitVec 64) (s : State) : Out :=
  .next (s.rdma qp { rk := rk, va := va, op := .atomic (.op 0 (x.setWidth 32) 0) })

/-- ATOMIC_COMPARE_AND_SWAP (R431): one ATOM CAS on the low 32 bits, comparing `x` and swapping `y`. -/
def execAtomicCompareAndSwap (qp : Nat) (rk : BitVec 32) (va x y : BitVec 64) (s : State) : Out :=
  .next (s.rdma qp { rk := rk, va := va, op := .atomic (.op 10 (x.setWidth 32) (y.setWidth 32)) })

/-- INVALID_REQUEST_NAK (R429): a request for an operation that is not supported. -/
def execInvalidRequestNak (qp : Nat) (s : State) : Out := .next (s.rdma qp { rk := 0, va := 0, op := .invalid })

/-- ECN_MARKED_PACKET (R429): a congestion notification packet. -/
def execEcnMarkedPacket (qp : Nat) (s : State) : Out := .next (if (s.qpair qp).isSome then s.ethSend qp (.cnp qp) else s)

/-- PRIORITY_FLOW_CONTROL_FRAME (R429): a port stops or resumes what it sends at a priority; what has waited goes then, in order. -/
def execPriorityFlowControlFrame (port : Nat) (prio : BitVec 3) (pause : Bool) (s : State) : Out :=
  .next (if s.ethOpen ∧ port < 2 then
      let l := s.pfc.filter (fun e => e != (port, prio))
      let here (e : Nat × BitVec 3 × Sent) : Bool := e.1 == port && e.2.1 == prio
      if pause then { s with pfc := l ++ [(port, prio)] }
      else { s with pfc := l, ethQ := s.ethQ.filter (fun e => !here e), sent := s.sent ++ (s.ethQ.filter here).map (fun e => e.2.2) }
    else s)

/-! ### Ports and flits (R432, R433, R437 to R440) -/

/-- The other end has refused a flit: the port sends again from its number on (R438). -/
def State.resend (s : State) (port : Nat) (q : BitVec 12) : State :=
  if s.portUp port && !(s.port port).retrain then
    (((s.port port).replay.dropWhile (fun e => e.1 != q)).foldl (fun s (n, p) => s.putFlit port n p) s)
  else s

/-- The messages that wait at a port go: by the port where it is up, else by another port of their mask (R439, R440). -/
def State.flushPort (s : State) (port : Nat) : State :=
  (s.port port).wait.foldl (fun s p =>
    if (s.routePort p.dest.toNat p.line).isSome then s.fabricSend p
    else s.setPort port { s.port port with wait := (s.port port).wait ++ [p] }) (s.setPort port { s.port port with wait := [] })

/-- A flit as it arrives (R433): its header and its payload. -/
structure Flit where
  dest : Nat
  src : Nat
  peer : Nat
  reqa : Nat
  rsv : Nat
  lseq : Nat
  nmsg : Nat
  /-- PAYLOAD, bytes 8 to 247 -/
  payload : Nat
  /-- FEC, bytes 248 to 255 -/
  fec : Nat

/-- The fields of a flit's 256 bytes (R433). -/
def Flit.read (v : BitVec 2048) : Flit :=
  { dest := bitsN v 0 11, src := bitsN v 11 11, peer := bitsN v 22 12, reqa := bitsN v 34 12, rsv := bitsN v 46 2
    lseq := bitsN v 48 12, nmsg := bitsN v 60 4, payload := bitsN v 64 1920, fec := bitsN v 1984 64 }

/-- The messages that an accepted flit brings: all share its SRC, PEER and REQA (R433). A flit for another device, or with a reserved bit
set, brings none (log 49, DEDUCED). -/
def Flit.messages (dev : BitVec 11) (f : Flit) : List (BitVec 11 × BitVec 12 × BitVec 12) :=
  if f.dest = dev.toNat ∧ f.rsv = 0 then
    List.replicate f.nmsg (BitVec.ofNat 11 f.src, BitVec.ofNat 12 f.peer, BitVec.ofNat 12 f.reqa)
  else []

/-- FLIT_RECEIVE (R438): `v` are the bytes as they are received or corrected, `ok` says whether FEC could correct them. A flit that cannot be
corrected is refused, and its sender resends from the expected LSEQ on; a good one in order moves the sequence on, and brings its messages.
Flits are held during a retrain (R439). (Log 49, DEDUCED.) -/
def execFlitReceive (port : Nat) (v : BitVec 2048) (ok : Bool) (s : State) : Out :=
  .next (
    let p := s.port port
    let f := Flit.read v
    if 128 ≤ port ∨ !s.portUp port ∨ p.retrain then s
    else if !ok then s.send (.linkRetry port p.lseq)
    else if f.lseq = p.lseq.toNat then { s.setPort port { p with lseq := p.lseq + 1 } with rx := s.rx ++ f.messages s.devnum }.charge (portArb port true)
        (.remoteIn f.peer) 1
    else s)

/-! ### Requests of other devices (R434 to R436) -/

/-- Whether this device accepts a request (R434): PEER is active, and its peer table holds a valid entry for the source device
and the requesting allotment. -/
def State.accepts (s : State) (r : FabricRequest) : Bool :=
  let a := s.acb r.peer.toNat
  (look s.allots r.peer.toNat).isSome &&
    (List.range (bitsN a (8 * 0x38) 12)).any (fun i =>
      let e := s.dpRead (byteN a 0x30 8 + 8 * i) 8 r.peer.toNat
      e % 2048 == r.src.toNat && e / 2048 % 2 == 1 && e / 4096 % 16 == 0 && e / 2 ^ 28 == 0 && e / 65536 % 4096 == r.reqa.toNat)

/-- Where a request lands (R434): the peer allotment's GLOBAL address, translated and checked, or its commons window. -/
def State.remoteTarget (s : State) (r : FabricRequest) (w : Want) : Except Stop (State × Loc × Bool) :=
  let al := r.peer.toNat
  match classify s.devnum r.addr with
  | .glob va => (agentAccess s al va w).map (fun (s, pa, z) => (s, .home pa, z))
  | .cmn off =>
    if off < acbCmnb (s.acb al) * 2 ^ 20 then .ok (s, .bank (commonsAddr s al off), false) else .error (.fatal .path 0 0 false)
  | _ => .error (.fatal .path 0 0 false)

/-- What the walk of a refused request leaves behind: A of the leaf (R401). -/
def State.remoteSees (s : State) (r : FabricRequest) : State :=
  match classify s.devnum r.addr with
  | .glob va => s.sees r.peer.toNat va
  | _ => s

/-- Reads at a home or a bank. -/
def State.homeAt (s : State) (l : Loc) (z : Bool) (n : Nat) : Nat :=
  match l with
  | .home pa => if z then 0 else s.homeRead pa n
  | .bank a => Memory.read s.cmn a n
  | _ => 0

/-- Answers a request (R435): the flit names the two allotments as the request does (log 48, DEDUCED). -/
def State.answer (s : State) (r : FabricRequest) (m : FabricMsg) : State :=
  s.fabricSend { dest := r.src, peer := r.peer, reqa := r.reqa, line := r.addr.toNat / 128, msg := m }

/-- Performs an accepted request at its place (R435, R77), with the answer to the source. -/
def State.serveRemote (s : State) (r : FabricRequest) (l : Loc) (z : Bool) : State :=
  match r.op with
  | .load n => s.answer r (.data (natBytes n (s.homeAt l z n)))
  | .store d rel => ((if rel then s.deviceWrite l d.length (bytesNat d) else s.quietWrite l d.length (bytesNat d))).answer r .ack
  | .atomic o x y =>
    let (s, old) := s.update 0 .home l z (.op o.toNat x y)
    s.answer r (.data (natBytes 4 old.toNat))
  | .atomt x lim =>
    let (s, old) := s.update 0 .home l z (.thresh x lim)
    s.answer r (.data (natBytes 4 old.toNat))

/-- REMOTE_REQUEST (R434, R435): a message of an accepted flit (R438) is refused where no agreement holds or the address does not translate;
a page under migration makes it wait (R414), as does a source that no port leads to. (Log 48, DEDUCED.) -/
def execRemoteRequest (r : FabricRequest) (s : State) : Out :=
  .next (if !s.windowUp ∨ !s.rx.contains (r.src, r.peer, r.reqa) ∨ (s.routePort r.src.toNat (r.addr.toNat / 128)).isNone then s
    else
      let t : State := { s with rx := s.rx.erase (r.src, r.peer, r.reqa) }
      if !t.accepts r then t.answer r .refuse
      else match t.remoteTarget r (match r.op with | .load _ => .read | _ => .write) with
        | .ok (t, l, z) => t.serveRemote r l z
        | .error (.migrating _) => s
        | .error _ => (t.remoteSees r).answer r .refuse)

/-! ### Lanes (R439, R440) -/

/-- Retires a lane (R439): a spare of its sparing group takes its place after a retrain; event 0x04 and the repair map's entry. -/
def State.retireLane (s : State) (port : Nat) (lane : Bool) : State :=
  let e : RepairEnt :=
    { kind := 4, die := BitVec.ofNat 3 (port / 32), field := true, loc := BitVec.ofNat 48 (port + (if lane then 128 else 0)), isl := portIsland port }
  let s : State := { s with spareLanes := s.spareLanes.setIfInBounds (port / 16) (s.spareLanes.toList.getD (port / 16) 0 - 1) }
  let s := s.setPort port { s.port port with retrain := true }
  ((s.event 0x04 1 (portIsland port) e.bits).addRepair e).countRepair (portIsland port)

/-- A lane that is lost with no spare left (R440): what waits at a port that is down goes by another. -/
def State.loseLane (s : State) (port : Nat) (lane : Bool) : State :=
  let s := s.setPort port ((s.port port).loseLane lane)
  if (s.port port).up then s else s.flushPort port

/-- Whether a lane is up. -/
def Port.laneUp (p : Port) (l : Bool) : Bool := if l then p.lane1 else p.lane0

/-- What becomes of a lane that fails or must be retired (R439, R440). (Log 50, DEDUCED.) -/
def State.laneGone (s : State) (port : Nat) (lane : Bool) : State :=
  if 128 ≤ port ∨ !(s.port port).laneUp lane then s
  else if 0 < s.spareLanes.toList.getD (port / 16) 0 then s.retireLane port lane
  else s.loseLane port lane

/-- LANE_RETIRE (R439): the corrected error count has exceeded its threshold, or the lane does not train. -/
def execLaneRetire (port : Nat) (lane : Bool) (s : State) : Out := .next (s.laneGone port lane)

/-- LANE_FAILURE (R440): a lane fails. -/
def execLaneFailure (port : Nat) (lane : Bool) (s : State) : Out := .next (s.laneGone port lane)

/-- LANE_RETRAIN_COMPLETE (R439): held flits go on, and the retrain is counted (R447). -/
def execLaneRetrainComplete (port : Nat) (s : State) : Out :=
  .next (if (s.port port).retrain then
      ((s.setPort port { s.port port with retrain := false }).flushPort port).onLife (portIsland port) LifeIsl.retrained
    else s)

end Sys2Proof.Machine
end

