-- ==== Sys2Proof/Machine/Narrow.lean ====
section
/-!
DEFINITION. The sixteen narrow operations (spec/04 R127, R128): x[d] := x[d] op x[a], never a cue point.
-/

namespace Sys2Proof.Machine

open Sys2Proof

/-- Narrow MOV (R128): x[d] := x[a]. -/
def execMov (d a : BitVec 5) (s : State) : Out :=
  aluOp 2 false [wideReg a] (wideReg d) (fun t => t.getX (wideReg a)) s

/-- Narrow ADD (R128): wraps modulo 2^32. -/
def execAddN (d a : BitVec 5) (s : State) : Out :=
  aluOp 2 false [wideReg d, wideReg a] (wideReg d) (fun t => t.getX (wideReg d) + t.getX (wideReg a)) s

/-- Narrow SUB (R128): wraps. -/
def execSubN (d a : BitVec 5) (s : State) : Out :=
  aluOp 2 false [wideReg d, wideReg a] (wideReg d) (fun t => t.getX (wideReg d) - t.getX (wideReg a)) s

/-- Narrow AND (R128): bitwise. -/
def execAndN (d a : BitVec 5) (s : State) : Out :=
  aluOp 2 false [wideReg d, wideReg a] (wideReg d) (fun t => t.getX (wideReg d) &&& t.getX (wideReg a)) s

/-- Narrow OR (R128): bitwise. -/
def execOrN (d a : BitVec 5) (s : State) : Out :=
  aluOp 2 false [wideReg d, wideReg a] (wideReg d) (fun t => t.getX (wideReg d) ||| t.getX (wideReg a)) s

/-- Narrow XOR (R128): bitwise. -/
def execXorN (d a : BitVec 5) (s : State) : Out :=
  aluOp 2 false [wideReg d, wideReg a] (wideReg d) (fun t => t.getX (wideReg d) ^^^ t.getX (wideReg a)) s

/-- Narrow SHL (R128): amount modulo 32. -/
def execShlN (d a : BitVec 5) (s : State) : Out :=
  aluOp 2 false [wideReg d, wideReg a] (wideReg d) (fun t => t.getX (wideReg d) <<< amt (t.getX (wideReg a))) s

/-- Narrow SHR (R128): zeros enter. -/
def execShrN (d a : BitVec 5) (s : State) : Out :=
  aluOp 2 false [wideReg d, wideReg a] (wideReg d) (fun t => t.getX (wideReg d) >>> amt (t.getX (wideReg a))) s

/-- Narrow MUL (R128): low 32 bits. -/
def execMulN (d a : BitVec 5) (s : State) : Out :=
  aluOp 2 false [wideReg d, wideReg a] (wideReg d) (fun t => t.getX (wideReg d) * t.getX (wideReg a)) s

/-- ADDI5 (R128): adds a signed 5-bit immediate. -/
def execAddi5 (d im : BitVec 5) (s : State) : Out :=
  aluOp 2 false [wideReg d] (wideReg d) (fun t => t.getX (wideReg d) + simm im) s

/-- MOVI5 (R128): a signed 5-bit immediate. -/
def execMovi5 (d im : BitVec 5) (s : State) : Out :=
  aluOp 2 false [] (wideReg d) (fun _ => simm im) s

/-- Narrow FADD (R128, R187): FP32, rounded once by MODE. -/
def execFaddN (d a : BitVec 5) (s : State) : Out :=
  fpOp 2 false [wideReg d, wideReg a] (wideReg d)
    (fun m t => w32 (fp32.addOp (modeF32 m) (t.getX (wideReg d)).toNat (t.getX (wideReg a)).toNat)) s

/-- Narrow FSUB (R128, R187): FP32, rounded once by MODE. -/
def execFsubN (d a : BitVec 5) (s : State) : Out :=
  fpOp 2 false [wideReg d, wideReg a] (wideReg d)
    (fun m t => w32 (fp32.subOp (modeF32 m) (t.getX (wideReg d)).toNat (t.getX (wideReg a)).toNat)) s

/-- Narrow FMUL (R128, R187): FP32, rounded once by MODE. -/
def execFmulN (d a : BitVec 5) (s : State) : Out :=
  fpOp 2 false [wideReg d, wideReg a] (wideReg d)
    (fun m t => w32 (fp32.mulOp (modeF32 m) (t.getX (wideReg d)).toNat (t.getX (wideReg a)).toNat)) s

/-- Narrow FMIN (R89, R128). -/
def execFminN (d a : BitVec 5) (s : State) : Out :=
  fpOp 2 false [wideReg d, wideReg a] (wideReg d)
    (fun m t => w32 (fp32.minMax (modeSubn m) false (t.getX (wideReg d)).toNat (t.getX (wideReg a)).toNat)) s

/-- Narrow FMAX (R89, R128). -/
def execFmaxN (d a : BitVec 5) (s : State) : Out :=
  fpOp 2 false [wideReg d, wideReg a] (wideReg d)
    (fun m t => w32 (fp32.minMax (modeSubn m) true (t.getX (wideReg d)).toNat (t.getX (wideReg a)).toNat)) s

end Sys2Proof.Machine
end

