-- ==== Sys2Proof/Machine/Pred.lean ====
section
/-!
DEFINITION. Predicates and address arithmetic (spec/05 R156 to R161).
-/

namespace Sys2Proof.Machine

open Sys2Proof

/-- The eight predicates as KPACK packs them (R159). -/
def Thread.packK (t : Thread) : Word :=
  BitVec.ofNat 32 (((List.range 8).map (fun i => if t.getK (BitVec.ofNat 3 i) then 2 ^ i else 0)).sum)

/-- The predicates as KUNPK writes them (R159); k0 discards its bit. -/
def Thread.unpackK (t : Thread) (v : Word) : Thread :=
  (List.range 8).foldl (fun t i => t.setK (BitVec.ofNat 3 i) (v.getLsbD i)) t

/-- CMP (R156): codes 6 and 7 raise ILL. -/
def execCmp (q : Bool) (kd : BitVec 3) (a b : BitVec 6) (c : BitVec 3) (s : State) : Out :=
  modeOp (!((Instr.cmp q kd a b c).wf)) 4 q [.x a, .x b] [.k kd]
    (fun _ t => (t.setK kd (condHolds c.toNat (t.getX a) (t.getX b)), 0)) s

/-- CMPI (R157): the sign-extended immediate, then compared signed or unsigned. -/
def execCmpi (q : Bool) (kd c : BitVec 3) (a : BitVec 6) (im : BitVec 12) (s : State) : Out :=
  modeOp (!((Instr.cmpi q kd c a im).wf)) 4 q [.x a] [.k kd]
    (fun _ t => (t.setK kd (condHolds c.toNat (t.getX a) (simm im)), 0)) s

/-- SEL (R158): both sources are checked for PEND. -/
def execSel (q : Bool) (d a b : BitVec 6) (p : BitVec 3) (s : State) : Out :=
  threadOp 4 q [.k p, .x a, .x b] [.x d] (fun t => t.setX d (if t.getK p then t.getX a else t.getX b)) s

/-- KAND (R159). -/
def execKand (q : Bool) (d a b : BitVec 3) (s : State) : Out :=
  predOp q [.k a, .k b] d (fun t => t.getK a && t.getK b) s

/-- KOR (R159). -/
def execKor (q : Bool) (d a b : BitVec 3) (s : State) : Out :=
  predOp q [.k a, .k b] d (fun t => t.getK a || t.getK b) s

/-- KXOR (R159). -/
def execKxor (q : Bool) (d a b : BitVec 3) (s : State) : Out :=
  predOp q [.k a, .k b] d (fun t => t.getK a != t.getK b) s

/-- KANDN (R159). -/
def execKandn (q : Bool) (d a b : BitVec 3) (s : State) : Out :=
  predOp q [.k a, .k b] d (fun t => t.getK a && !t.getK b) s

/-- KORN (R159). -/
def execKorn (q : Bool) (d a b : BitVec 3) (s : State) : Out :=
  predOp q [.k a, .k b] d (fun t => t.getK a || !t.getK b) s

/-- KNOT (R159). -/
def execKnot (q : Bool) (d a : BitVec 3) (s : State) : Out :=
  predOp q [.k a] d (fun t => !t.getK a) s

/-- KTOX (R159): the predicate, zero-extended. -/
def execKtox (q : Bool) (d : BitVec 6) (a : BitVec 3) (s : State) : Out :=
  threadOp 4 q [.k a] [.x d] (fun t => t.setX d (if t.getK a then 1 else 0)) s

/-- XTOK (R159). -/
def execXtok (q : Bool) (d : BitVec 3) (a : BitVec 6) (s : State) : Out :=
  predOp q [.x a] d (fun t => t.getX a != 0) s

/-- KPACK (R159): bit i is k[i], bit 0 is 1. -/
def execKpack (q : Bool) (d : BitVec 6) (s : State) : Out :=
  threadOp 4 q ((List.range 8).map (fun i => Dst.k (BitVec.ofNat 3 i))) [.x d] (fun t => t.setX d t.packK) s

/-- KUNPK (R159): k[i] := x[a] bit i for i in 1..7. -/
def execKunpk (q : Bool) (a : BitVec 6) (s : State) : Out :=
  threadOp 4 q [.x a] ((List.range 8).map (fun i => Dst.k (BitVec.ofNat 3 i))) (fun t => t.unpackK (t.getX a)) s

/-- ADDA (R160): the pair plus the sign-extended index, shifted. -/
def execAdda (q : Bool) (d a : BitVec 5) (b : BitVec 6) (sh : BitVec 2) (s : State) : Out :=
  threadOp 4 q (pairDst a ++ [.x b]) (pairDst d)
    (fun t => t.setA d (t.getA a + ((t.getX b).signExtend 64 <<< sh.toNat))) s

/-- ADDAI (R161): the pair plus a sign-extended byte count. -/
def execAddai (q : Bool) (d a : BitVec 5) (im : BitVec 12) (s : State) : Out :=
  threadOp 4 q (pairDst a) (pairDst d) (fun t => t.setA d (t.getA a + im.signExtend 64)) s

end Sys2Proof.Machine
end

