-- ==== Sys2Proof/Machine/Sfu.lean ====
section
/-!
DEFINITION. The special functions (spec/06 R194, spec/03 R118, R119). The spec bounds a result and leaves open which
value inside the bound it is: the unit's own answer is `Config.sfuRaw`, taken where it lies inside the bound, and
the nearest value where it does not (log 20, DESIGN CHOICE). The bound is decided with fixed-point arithmetic at scale 2^320, whose
error lies below the distance of every FP32 value from the bound: results that come nearer to a bound than that scale (TANH of a small
operand, EXP2 of a very negative one) keep the side on which the exact result lies.
-/

namespace Sys2Proof.Machine

open Sys2Proof

/-! ### Fixed-point arithmetic -/

/-- The scale. -/
def fxOne : Nat := 2 ^ 320

/-- A finite value at the scale (an exponent below −320 does not occur in FP32). -/
def fxVal (neg : Bool) (m : Nat) (e : Int) : Int :=
  let v : Int := (m * 2 ^ (320 + e).toNat : Nat)
  if neg then -v else v

/-- The integer square root of `n`, from bit `b` down. -/
def isqrt (n r : Nat) : Nat → Nat
  | 0 => r
  | b + 1 => if (r + 2 ^ b) * (r + 2 ^ b) ≤ n then isqrt n (r + 2 ^ b) b else isqrt n r b

/-- A sum of k terms 1/(i × 2^i), from i on: ln 2. -/
def fxLn2From (i : Nat) : Nat → Nat
  | 0 => 0
  | k + 1 => fxOne / (i * 2 ^ i) + fxLn2From (i + 1) k

/-- ln 2. -/
def fxLn2 : Nat := fxLn2From 1 330

/-- The exponential series: `term` is the current term, `i` the next index. -/
def fxExpFrom (y term i : Nat) : Nat → Nat
  | 0 => term
  | k + 1 => term + fxExpFrom y (term * y / (fxOne * i)) (i + 1) k

/-- e^y for y from 0 to 1. -/
def fxExp (y : Nat) : Nat := fxExpFrom y fxOne 1 90

/-- The series of artanh: `p` is z^i. -/
def fxAtanhFrom (z2 p i : Nat) : Nat → Nat
  | 0 => 0
  | k + 1 => p / i + fxAtanhFrom z2 (p * z2 / fxOne) (i + 2) k

/-- ln v for v from 1 to 2. -/
def fxLn (v : Nat) : Nat :=
  let z := (v - fxOne) * fxOne / (v + fxOne)
  2 * fxAtanhFrom (z * z / fxOne) z 1 110

/-- The series of arctan(1/n): alternating terms. -/
def fxAtanInv (n p i : Nat) (neg : Bool) : Nat → Int
  | 0 => 0
  | k + 1 => (if neg then -((p / i : Nat) : Int) else ((p / i : Nat) : Int)) + fxAtanInv n (p / (n * n)) (i + 2) (!neg) k

/-- π. -/
def fxPi : Int := 16 * fxAtanInv 5 (fxOne / 5) 1 false 75 - 4 * fxAtanInv 239 (fxOne / 239) 1 false 25

/-- The series of sine and cosine: alternating terms, `term` the current one and `i` the next factor. -/
def fxTrigFrom (r2 term i : Nat) (neg : Bool) : Nat → Int
  | 0 => 0
  | k + 1 =>
    (if neg then -(term : Int) else (term : Int)) +
      fxTrigFrom r2 (term * r2 / (fxOne * (i * (i + 1)))) (i + 2) (!neg) k

/-- sin r for r from 0 to 2π. -/
def fxSin (r : Nat) : Int := fxTrigFrom (r * r / fxOne) r 2 false 60
/-- cos r for r from 0 to 2π. -/
def fxCos (r : Nat) : Int := fxTrigFrom (r * r / fxOne) fxOne 1 false 60

/-- 2^x for a scaled x below 2^128; one that lies far below every FP32 value is the least positive number of the scale. -/
def fxExp2 (x : Int) : Nat :=
  let n := x / (fxOne : Int)
  let f := (x % (fxOne : Int)).toNat
  let v := fxExp (f * fxLn2 / fxOne)
  if 0 ≤ n then v * 2 ^ n.toNat else if n < -300 then 1 else v / 2 ^ (-n).toNat

/-- log₂ of m × 2^e. -/
def fxLog2 (m : Nat) (e : Int) : Int :=
  let b := Nat.log2 m
  let v := m * 2 ^ (320 - b)
  (e + b) * (fxOne : Int) + ((fxLn v * fxOne / fxLn2 : Nat) : Int)

/-- tanh of a scaled magnitude: x − x³/3 where that is small, and below x in any case. -/
def fxTanh (x : Nat) : Nat :=
  if 64 * fxOne ≤ x then fxOne - 1
  else if x < 2 ^ 270 then x - max 1 (x * x / fxOne * x / fxOne / 3)
  else
    let h := fxExp (2 * x / 128)
    let sq (v : Nat) : Nat := v * v / fxOne
    let e := sq (sq (sq (sq (sq (sq (sq h))))))
    (e - fxOne) * fxOne / (e + fxOne)

/-! ### The functions -/

/-- The eight functions by their code (R194). -/
inductive Sfu where
  | rcp | rsq | sqrt | exp2 | log2 | tanh | sin | cos
  deriving DecidableEq, Repr

/-- The function code (R194). -/
def Sfu.code : Sfu → Nat
  | .rcp => 0 | .rsq => 1 | .sqrt => 2 | .exp2 => 3 | .log2 => 4 | .tanh => 5 | .sin => 6 | .cos => 7

/-- A result that R119 states, with its flags. -/
def sfuSpecial (f : Sfu) (x : FpVal) : Option (Nat × Word) :=
  match f, x with
  | _, .nan sg => some (fp32.nan, flagIf sg fNV)
  | .rcp, .fin n 0 _ => some (fp32.inf n, fDZ)
  | .rcp, .inf n => some (fp32.zero n, 0)
  | .rsq, .fin n 0 _ => some (fp32.inf n, fDZ)
  | .rsq, .inf false => some (0, 0)
  | .rsq, .inf true => some (fp32.nan, fNV)
  | .rsq, .fin true _ _ => some (fp32.nan, fNV)
  | .sqrt, .fin n 0 _ => some (fp32.zero n, 0)
  | .sqrt, .inf false => some (fp32.inf false, 0)
  | .sqrt, .inf true => some (fp32.nan, fNV)
  | .sqrt, .fin true _ _ => some (fp32.nan, fNV)
  | .log2, .fin _ 0 _ => some (fp32.inf true, fDZ)
  | .log2, .inf false => some (fp32.inf false, 0)
  | .log2, .inf true => some (fp32.nan, fNV)
  | .log2, .fin true _ _ => some (fp32.nan, fNV)
  | .log2, .fin false m e => if m = 2 ^ Nat.log2 m ∧ e + Nat.log2 m = 0 then some (0, 0) else none
  | .exp2, .inf true => some (0, 0)
  | .exp2, .inf false => some (fp32.inf false, 0)
  | .tanh, .fin n 0 _ => some (fp32.zero n, 0)
  | .tanh, .inf n => some (if n then 0xBF800000 else 0x3F800000, 0)
  | .sin, .fin n 0 _ => some (fp32.zero n, 0)
  | .sin, .inf _ => some (fp32.nan, fNV)
  | .cos, .fin _ 0 _ => some (0x3F800000, 0)
  | .cos, .inf _ => some (fp32.nan, fNV)
  | _, _ => none

/-- The function's value at the scale, for a finite operand that R119 does not cover. -/
def sfuApprox (f : Sfu) (neg : Bool) (m : Nat) (e : Int) : Int :=
  let x := fxVal neg m e
  let a := x.natAbs
  match f with
  | .rcp => if neg then -((fxOne * fxOne / a : Nat) : Int) else ((fxOne * fxOne / a : Nat) : Int)
  | .rsq => (isqrt (fxOne * fxOne * fxOne / a) 0 500 : Nat)
  | .sqrt => (isqrt (a * fxOne) 0 500 : Nat)
  | .exp2 => (fxExp2 x : Nat)
  | .log2 => fxLog2 m e
  | .tanh => if neg then -((fxTanh a : Nat) : Int) else ((fxTanh a : Nat) : Int)
  | .sin => let s := fxSin ((a : Int) % (2 * fxPi)).toNat; if neg then -s else s
  | .cos => fxCos ((a : Int) % (2 * fxPi)).toNat

/-- The bound of R118 at the scale: `y` is the function's value there, `x` the operand's. -/
def sfuBound (f : Sfu) (x y : Int) : Nat :=
  let ulp := 2 ^ (320 + max ((Nat.log2 y.natAbs : Int) - 320) (-126) - 23).toNat
  match f with
  | .rcp | .rsq | .sqrt => ulp
  | .exp2 | .log2 | .tanh => 2 * ulp
  | .sin | .cos =>
    if (x.natAbs : Int) ≤ 100 * fxPi then 2 ^ 298 else if x.natAbs < 2 ^ 344 then 2 ^ 302 else 2 ^ 308

/-- Whether the exact value is a word's value `r` at the scale: rational cases are decided exactly; every other
value of the functions is irrational or transcendental, and is no FP32 value. -/
def sfuExact (f : Sfu) (x y r : Int) : Bool :=
  match f with
  | .rcp => r * x == (fxOne * fxOne : Nat)
  | .rsq => r * r * x == (fxOne * fxOne * fxOne : Nat)
  | .sqrt => r * r == x * (fxOne : Nat)
  | .exp2 => decide (-149 * (fxOne : Int) ≤ x) && x % (fxOne : Nat) == 0 && r == y
  | .log2 => y % (fxOne : Nat) == 0 && r == y
  | _ => false

/-- Whether a word's value lies within the bound. -/
def sfuWithin (f : Sfu) (x y : Int) (w : Nat) : Bool :=
  match fp32.read false w with
  | .fin n m e => decide ((fxVal n m e - y).natAbs ≤ sfuBound f x y)
  | _ => false

/-- A special function's result and flags under MODE (R118, R119, R105, R91). -/
def sfu (f : Sfu) (mode : Word) (w : Word) : Word × Word :=
  let r := modeF32 mode
  let x := fp32.read r.subn w.toNat
  match sfuSpecial f x with
  | some v => w32 v
  | none =>
    match x with
    | .fin neg m e =>
      let xs := fxVal neg m e
      if f = .exp2 ∧ 128 * (fxOne : Int) ≤ xs then w32 (fp32.round r false 1 128)
      else
        let y := sfuApprox f neg m e
        if (2 : Int) ^ 448 ≤ y.natAbs then w32 (fp32.round r (decide (y < 0)) 1 128)
        else
          let raw := (Config.sfuRaw f.code w).toNat
          let near := (fp32.round { nearest with sat := true } (decide (y < 0)) y.natAbs (-320)).1
          let v := if sfuWithin f xs y raw then raw else near
          match fp32.read false v with
          | .fin n vm ve =>
            let nx := !sfuExact f xs y (fxVal n vm ve)
            let tiny := decide (v % 2 ^ 31 < 2 ^ 23)
            if r.subn && tiny && vm != 0 then w32 (fp32.zero n, fUF ||| fNX)
            else w32 (v, flagIf nx fNX ||| flagIf (nx && tiny) fUF)
          | _ => w32 (v, 0)
    | _ => w32 (fp32.nan, 0)

/-- An SFU instruction: its result is pending, its flags come with it (R108, R194). -/
def sfuOp (f : Sfu) (q : Bool) (d a : BitVec 6) (s : State) : Out :=
  pendOp q [.x a] [.x d]
    (fun k => let r := sfu f k.crew.mode (k.t.getX a); { dst := [(.x d, r.1)], flags := r.2 }) s

/-- RCP (R194). -/
def execRcp (q : Bool) (d a : BitVec 6) (s : State) : Out := sfuOp .rcp q d a s
/-- RSQ (R194). -/
def execRsq (q : Bool) (d a : BitVec 6) (s : State) : Out := sfuOp .rsq q d a s
/-- SQRT (R194). -/
def execSqrt (q : Bool) (d a : BitVec 6) (s : State) : Out := sfuOp .sqrt q d a s
/-- EXP2 (R194). -/
def execExp2 (q : Bool) (d a : BitVec 6) (s : State) : Out := sfuOp .exp2 q d a s
/-- LOG2 (R194). -/
def execLog2 (q : Bool) (d a : BitVec 6) (s : State) : Out := sfuOp .log2 q d a s
/-- TANH (R194). -/
def execTanh (q : Bool) (d a : BitVec 6) (s : State) : Out := sfuOp .tanh q d a s
/-- SIN (R194): radians. -/
def execSin (q : Bool) (d a : BitVec 6) (s : State) : Out := sfuOp .sin q d a s
/-- COS (R194): radians. -/
def execCos (q : Bool) (d a : BitVec 6) (s : State) : Out := sfuOp .cos q d a s

end Sys2Proof.Machine
end

