-- ==== Sys2Proof/Machine/Dispatch.lean ====
section
/-!
DEFINITION. The meaning of every instruction word and event: one arm per constructor of Instr.
-/

namespace Sys2Proof.Machine

open Sys2Proof

/-- What an instruction word does for the current thread, and what an event row does (spec/opcode_table.json). -/
def exec (i : Instr) (s : State) : Host.Outcome State Fault Refusal :=
  match i with
  | .mov d a => Sys2Proof.Machine.execMov d a s
  | .addN d a => Sys2Proof.Machine.execAddN d a s
  | .subN d a => Sys2Proof.Machine.execSubN d a s
  | .andN d a => Sys2Proof.Machine.execAndN d a s
  | .orN d a => Sys2Proof.Machine.execOrN d a s
  | .xorN d a => Sys2Proof.Machine.execXorN d a s
  | .shlN d a => Sys2Proof.Machine.execShlN d a s
  | .shrN d a => Sys2Proof.Machine.execShrN d a s
  | .addi5 d im => Sys2Proof.Machine.execAddi5 d im s
  | .faddN d a => Sys2Proof.Machine.execFaddN d a s
  | .fsubN d a => Sys2Proof.Machine.execFsubN d a s
  | .fmulN d a => Sys2Proof.Machine.execFmulN d a s
  | .fminN d a => Sys2Proof.Machine.execFminN d a s
  | .fmaxN d a => Sys2Proof.Machine.execFmaxN d a s
  | .movi5 d im => Sys2Proof.Machine.execMovi5 d im s
  | .mulN d a => Sys2Proof.Machine.execMulN d a s
  | .ill q u => Sys2Proof.Machine.execIll q u s
  | .add q d a b => Sys2Proof.Machine.execAdd q d a b s
  | .sub q d a b => Sys2Proof.Machine.execSub q d a b s
  | .and q d a b => Sys2Proof.Machine.execAnd q d a b s
  | .or q d a b => Sys2Proof.Machine.execOr q d a b s
  | .xor q d a b => Sys2Proof.Machine.execXor q d a b s
  | .andn q d a b => Sys2Proof.Machine.execAndn q d a b s
  | .shl q d a b => Sys2Proof.Machine.execShl q d a b s
  | .shr q d a b => Sys2Proof.Machine.execShr q d a b s
  | .sra q d a b => Sys2Proof.Machine.execSra q d a b s
  | .ror q d a b => Sys2Proof.Machine.execRor q d a b s
  | .mul q d a b => Sys2Proof.Machine.execMul q d a b s
  | .mulh q d a b => Sys2Proof.Machine.execMulh q d a b s
  | .mulhu q d a b => Sys2Proof.Machine.execMulhu q d a b s
  | .mulhsu q d a b => Sys2Proof.Machine.execMulhsu q d a b s
  | .div q d a b => Sys2Proof.Machine.execDiv q d a b s
  | .divu q d a b => Sys2Proof.Machine.execDivu q d a b s
  | .rem q d a b => Sys2Proof.Machine.execRem q d a b s
  | .remu q d a b => Sys2Proof.Machine.execRemu q d a b s
  | .min q d a b => Sys2Proof.Machine.execMin q d a b s
  | .max q d a b => Sys2Proof.Machine.execMax q d a b s
  | .minu q d a b => Sys2Proof.Machine.execMinu q d a b s
  | .maxu q d a b => Sys2Proof.Machine.execMaxu q d a b s
  | .clz q d a => Sys2Proof.Machine.execClz q d a s
  | .popc q d a => Sys2Proof.Machine.execPopc q d a s
  | .brev q d a => Sys2Proof.Machine.execBrev q d a s
  | .slt q d a b => Sys2Proof.Machine.execSlt q d a b s
  | .sltu q d a b => Sys2Proof.Machine.execSltu q d a b s
  | .addi q d a im => Sys2Proof.Machine.execAddi q d a im s
  | .andi q d a im => Sys2Proof.Machine.execAndi q d a im s
  | .ori q d a im => Sys2Proof.Machine.execOri q d a im s
  | .xori q d a im => Sys2Proof.Machine.execXori q d a im s
  | .shli q d a n => Sys2Proof.Machine.execShli q d a n s
  | .shri q d a n => Sys2Proof.Machine.execShri q d a n s
  | .srai q d a n => Sys2Proof.Machine.execSrai q d a n s
  | .rori q d a n => Sys2Proof.Machine.execRori q d a n s
  | .lui q d v => Sys2Proof.Machine.execLui q d v s
  | .luiZ q d v => Sys2Proof.Machine.execLuiZ q d v s
  | .luiLo q d v => Sys2Proof.Machine.execLuiLo q d v s
  | .luiS q d v => Sys2Proof.Machine.execLuiS q d v s
  | .bfx q d a l w => Sys2Proof.Machine.execBfx q d a l w s
  | .bfxS q d a l w => Sys2Proof.Machine.execBfxS q d a l w s
  | .bfi q d a l w => Sys2Proof.Machine.execBfi q d a l w s
  | .cmp q k a b c => Sys2Proof.Machine.execCmp q k a b c s
  | .cmpi q k c a im => Sys2Proof.Machine.execCmpi q k c a im s
  | .sel q d a b p => Sys2Proof.Machine.execSel q d a b p s
  | .kand q d a b => Sys2Proof.Machine.execKand q d a b s
  | .kor q d a b => Sys2Proof.Machine.execKor q d a b s
  | .kxor q d a b => Sys2Proof.Machine.execKxor q d a b s
  | .kandn q d a b => Sys2Proof.Machine.execKandn q d a b s
  | .korn q d a b => Sys2Proof.Machine.execKorn q d a b s
  | .knot q d a => Sys2Proof.Machine.execKnot q d a s
  | .ktox q d a => Sys2Proof.Machine.execKtox q d a s
  | .xtok q d a => Sys2Proof.Machine.execXtok q d a s
  | .kpack q d => Sys2Proof.Machine.execKpack q d s
  | .kunpk q a => Sys2Proof.Machine.execKunpk q a s
  | .adda q d a b sx => Sys2Proof.Machine.execAdda q d a b sx s
  | .addai q d a im => Sys2Proof.Machine.execAddai q d a im s
  | .br q k n o => Sys2Proof.Machine.execBr q k n o s
  | .jmp q o => Sys2Proof.Machine.execJmp q o s
  | .call q o => Sys2Proof.Machine.execCall q o s
  | .jr q a => Sys2Proof.Machine.execJr q a s
  | .callr q a => Sys2Proof.Machine.execCallr q a s
  | .ret q => Sys2Proof.Machine.execRet q s
  | .become q d a => Sys2Proof.Machine.execBecome q d a s
  | .meet q o => Sys2Proof.Machine.execMeet q o s
  | .yield q => Sys2Proof.Machine.execYield q s
  | .loop q n a l => Sys2Proof.Machine.execLoop q n a l s
  | .nop q => Sys2Proof.Machine.execNop q s
  | .trap q c => Sys2Proof.Machine.execTrap q c s
  | .brk q c => Sys2Proof.Machine.execBrk q c s
  | .mfs q d sx => Sys2Proof.Machine.execMfs q d sx s
  | .mts q a sx => Sys2Proof.Machine.execMts q a sx s
  | .fadd q d a b => Sys2Proof.Machine.execFadd q d a b s
  | .fsub q d a b => Sys2Proof.Machine.execFsub q d a b s
  | .fmul q d a b => Sys2Proof.Machine.execFmul q d a b s
  | .fmin q d a b => Sys2Proof.Machine.execFmin q d a b s
  | .fmax q d a b => Sys2Proof.Machine.execFmax q d a b s
  | .fabs q d a => Sys2Proof.Machine.execFabs q d a s
  | .fneg q d a => Sys2Proof.Machine.execFneg q d a s
  | .fsgnj q d a b => Sys2Proof.Machine.execFsgnj q d a b s
  | .ffma q d a b c => Sys2Proof.Machine.execFfma q d a b c s
  | .ffms q d a b c => Sys2Proof.Machine.execFfms q d a b c s
  | .fnma q d a b c => Sys2Proof.Machine.execFnma q d a b c s
  | .hadd2 q d a b => Sys2Proof.Machine.execHadd2 q d a b s
  | .hsub2 q d a b => Sys2Proof.Machine.execHsub2 q d a b s
  | .hmul2 q d a b => Sys2Proof.Machine.execHmul2 q d a b s
  | .hmin2 q d a b => Sys2Proof.Machine.execHmin2 q d a b s
  | .hmax2 q d a b => Sys2Proof.Machine.execHmax2 q d a b s
  | .badd2 q d a b => Sys2Proof.Machine.execBadd2 q d a b s
  | .bsub2 q d a b => Sys2Proof.Machine.execBsub2 q d a b s
  | .bmul2 q d a b => Sys2Proof.Machine.execBmul2 q d a b s
  | .bmin2 q d a b => Sys2Proof.Machine.execBmin2 q d a b s
  | .bmax2 q d a b => Sys2Proof.Machine.execBmax2 q d a b s
  | .hfma2 q d a b c => Sys2Proof.Machine.execHfma2 q d a b c s
  | .bfma2 q d a b c => Sys2Proof.Machine.execBfma2 q d a b c s
  | .fcmp q k a b c => Sys2Proof.Machine.execFcmp q k a b c s
  | .fcvt q d a t sx h => Sys2Proof.Machine.execFcvt q d a t sx h s
  | .rcp q d a => Sys2Proof.Machine.execRcp q d a s
  | .rsq q d a => Sys2Proof.Machine.execRsq q d a s
  | .sqrt q d a => Sys2Proof.Machine.execSqrt q d a s
  | .exp2 q d a => Sys2Proof.Machine.execExp2 q d a s
  | .log2 q d a => Sys2Proof.Machine.execLog2 q d a s
  | .tanh q d a => Sys2Proof.Machine.execTanh q d a s
  | .sin q d a => Sys2Proof.Machine.execSin q d a s
  | .cos q d a => Sys2Proof.Machine.execCos q d a s
  | .faddE q d a b => Sys2Proof.Machine.execFaddE q d a b s
  | .fmulE q d a b => Sys2Proof.Machine.execFmulE q d a b s
  | .ffmaE q d a b => Sys2Proof.Machine.execFfmaE q d a b s
  | .eadd q d a b => Sys2Proof.Machine.execEadd q d a b s
  | .efrom q d a => Sys2Proof.Machine.execEfrom q d a s
  | .ernd q d a t => Sys2Proof.Machine.execErnd q d a t s
  | .eget q d a => Sys2Proof.Machine.execEget q d a s
  | .eset q d a => Sys2Proof.Machine.execEset q d a s
  | .dot4 q d a b => Sys2Proof.Machine.execDot4 q d a b s
  | .dot4u q d a b => Sys2Proof.Machine.execDot4u q d a b s
  | .dot4su q d a b => Sys2Proof.Machine.execDot4su q d a b s
  | .dot2h q d a b => Sys2Proof.Machine.execDot2h q d a b s
  | .bpack q d a b f => Sys2Proof.Machine.execBpack q d a b f s
  | .bpackFx q d a b f => Sys2Proof.Machine.execBpackFx q d a b f s
  | .bunpk q d a f => Sys2Proof.Machine.execBunpk q d a f s
  | .rndm q d a b w => Sys2Proof.Machine.execRndm q d a b w s
  | .rndm4 q d a b => Sys2Proof.Machine.execRndm4 q d a b s
  | .voteBal q d a => Sys2Proof.Machine.execVoteBal q d a s
  | .voteAny q d a => Sys2Proof.Machine.execVoteAny q d a s
  | .voteAll q d a => Sys2Proof.Machine.execVoteAll q d a s
  | .shflIdx q d a b => Sys2Proof.Machine.execShflIdx q d a b s
  | .shflUp q d a b => Sys2Proof.Machine.execShflUp q d a b s
  | .shflDn q d a b => Sys2Proof.Machine.execShflDn q d a b s
  | .shflXor q d a b => Sys2Proof.Machine.execShflXor q d a b s
  | .cred q d a o => Sys2Proof.Machine.execCred q d a o s
  | .cscan q d a o => Sys2Proof.Machine.execCscan q d a o s
  | .cscanx q d a o => Sys2Proof.Machine.execCscanx q d a o s
  | .ld q d p sx z im => Sys2Proof.Machine.execLd q d p sx z im s
  | .st q d p z im => Sys2Proof.Machine.execSt q d p z im s
  | .lds q d p sx => Sys2Proof.Machine.execLds q d p sx s
  | .ldsD q d p sx => Sys2Proof.Machine.execLdsD q d p sx s
  | .sts q d p sx => Sys2Proof.Machine.execSts q d p sx s
  | .stsD q d p sx => Sys2Proof.Machine.execStsD q d p sx s
  | .acqp q d p b => Sys2Proof.Machine.execAcqp q d p b s
  | .acqpAll q d p => Sys2Proof.Machine.execAcqpAll q d p s
  | .atom q d p b sx o => Sys2Proof.Machine.execAtom q d p b sx o s
  | .atomt q d p b sx => Sys2Proof.Machine.execAtomt q d p b sx s
  | .red q p b sx o => Sys2Proof.Machine.execRed q p b sx o s
  | .waita q d p b sx c => Sys2Proof.Machine.execWaita q d p b sx c s
  | .barArrive q n a => Sys2Proof.Machine.execBarArrive q n a s
  | .barWait q n a => Sys2Proof.Machine.execBarWait q n a s
  | .barSync q n a => Sys2Proof.Machine.execBarSync q n a s
  | .waitc q c t sx r u => Sys2Proof.Machine.execWaitc q c t sx r u s
  | .emit q a b => Sys2Proof.Machine.execEmit q a b s
  | .cpy q d a => Sys2Proof.Machine.execCpy q d a s
  | .cpys q d a b => Sys2Proof.Machine.execCpys q d a b s
  | .slinv q a => Sys2Proof.Machine.execSlinv q a s
  | .mxc q d a b => Sys2Proof.Machine.execMxc q d a b s
  | .mxr q d a t => Sys2Proof.Machine.execMxr q d a t s
  | .mxrn q d a t => Sys2Proof.Machine.execMxrn q d a t s
  | .mxw q d a t => Sys2Proof.Machine.execMxw q d a t s
  | .rtake q d r => Sys2Proof.Machine.execRtake q d r s
  | .rtakeRes q d r => Sys2Proof.Machine.execRtakeRes q d r s
  | .rgivePub q r b => Sys2Proof.Machine.execRgivePub q r b s
  | .rgiveRel q r b => Sys2Proof.Machine.execRgiveRel q r b s
  | .bind q a => Sys2Proof.Machine.execBind q a s
  | .bindWb q a => Sys2Proof.Machine.execBindWb q a s
  | .grun q a b => Sys2Proof.Machine.execGrun q a b s
  | .gstop q a => Sys2Proof.Machine.execGstop q a s
  | .gstat q d a => Sys2Proof.Machine.execGstat q d a s
  | .pendingResultReturn c t n => Sys2Proof.Machine.execPendingResultReturn c t n s
  | .seedbedRelease c => Sys2Proof.Machine.execSeedbedRelease c s
  | .displacement c => Sys2Proof.Machine.execDisplacement c s
  | .recordCommit c => Sys2Proof.Machine.execRecordCommit c s
  | .castEnd c => Sys2Proof.Machine.execCastEnd c s
  | .bundleRegroup p => Sys2Proof.Machine.execBundleRegroup p s
  | .fairnessTimerExpiry c t => Sys2Proof.Machine.execFairnessTimerExpiry c t s
  | .meetRejoin c t => Sys2Proof.Machine.execMeetRejoin c t s
  | .participantSetFixed c t => Sys2Proof.Machine.execParticipantSetFixed c t s
  | .allZeroWriteback p l => Sys2Proof.Machine.execAllZeroWriteback p l s
  | .memoryOpRetire c w k => Sys2Proof.Machine.execMemoryOpRetire c w k s
  | .promotionRequest p => Sys2Proof.Machine.execPromotionRequest p s
  | .waitaWake c t => Sys2Proof.Machine.execWaitaWake c t s
  | .barrierComplete c b => Sys2Proof.Machine.execBarrierComplete c b s
  | .reelReserve p r => Sys2Proof.Machine.execReelReserve p r s
  | .reelTake p r => Sys2Proof.Machine.execReelTake p r s
  | .copyStart p => Sys2Proof.Machine.execCopyStart p s
  | .copyRetire p n => Sys2Proof.Machine.execCopyRetire p n s
  | .matrixCommandStart p n => Sys2Proof.Machine.execMatrixCommandStart p n s
  | .matrixCommandRetire p n => Sys2Proof.Machine.execMatrixCommandRetire p n s
  | .binding al g => Sys2Proof.Machine.execBinding al g s
  | .firingStart al g => Sys2Proof.Machine.execFiringStart al g s
  | .eosFiring al g => Sys2Proof.Machine.execEosFiring al g s
  | .rebinding al g => Sys2Proof.Machine.execRebinding al g s
  | .graphFailureStop al g => Sys2Proof.Machine.execGraphFailureStop al g s
  | .quantumExpiry p => Sys2Proof.Machine.execQuantumExpiry p s
  | .deferredListApply c => Sys2Proof.Machine.execDeferredListApply c s
  | .sceneAccept al => Sys2Proof.Machine.execSceneAccept al s
  | .castPlacement al => Sys2Proof.Machine.execCastPlacement al s
  | .endOfLaunch al sc => Sys2Proof.Machine.execEndOfLaunch al sc s
  | .completionRecordWrite al sc => Sys2Proof.Machine.execCompletionRecordWrite al sc s
  | .leaseGrant c => Sys2Proof.Machine.execLeaseGrant c s
  | .wdog c => Sys2Proof.Machine.execWdog c s
  | .sliceEnd al qn => Sys2Proof.Machine.execSliceEnd al qn s
  | .softSaveComplete al qn => Sys2Proof.Machine.execSoftSaveComplete al qn s
  | .hardPreemption al qn => Sys2Proof.Machine.execHardPreemption al qn s
  | .contextRestore al qn => Sys2Proof.Machine.execContextRestore al qn s
  | .contextRecall al qn => Sys2Proof.Machine.execContextRecall al qn s
  | .faultRecordWrite => Sys2Proof.Machine.execFaultRecordWrite s
  | .frespReplay sq => Sys2Proof.Machine.execFrespReplay sq s
  | .frespFail sq => Sys2Proof.Machine.execFrespFail sq s
  | .assign f o k => Sys2Proof.Machine.execAssign f o k s
  | .share f o => Sys2Proof.Machine.execShare f o s
  | .free f => Sys2Proof.Machine.execFree f s
  | .scrubComplete => Sys2Proof.Machine.execScrubComplete s
  | .query f => Sys2Proof.Machine.execQuery f s
  | .xinvPage al vpn => Sys2Proof.Machine.execXinvPage al vpn s
  | .xinvAllotment al => Sys2Proof.Machine.execXinvAllotment al s
  | .xinvComplete => Sys2Proof.Machine.execXinvComplete s
  | .migdst f => Sys2Proof.Machine.execMigdst f s
  | .migrationComplete => Sys2Proof.Machine.execMigrationComplete s
  | .kgen k => Sys2Proof.Machine.execKgen k s
  | .uncorrectableError w => Sys2Proof.Machine.execUncorrectableError w s
  | .correctedError isl m row => Sys2Proof.Machine.execCorrectedError isl m row s
  | .patrolScrub l h => Sys2Proof.Machine.execPatrolScrub l h s
  | .create a => Sys2Proof.Machine.execCreate a s
  | .update a => Sys2Proof.Machine.execUpdate a s
  | .destroy a => Sys2Proof.Machine.execDestroy a s
  | .rtsync => Sys2Proof.Machine.execRtsync s
  | .crepair core => Sys2Proof.Machine.execCrepair core s
  | .registerWrite r v => Sys2Proof.Machine.execRegisterWrite r v s
  | .rdmaWrite qp rk va d => Sys2Proof.Machine.execRdmaWrite qp rk va d s
  | .rdmaRead qp rk va n => Sys2Proof.Machine.execRdmaRead qp rk va n s
  | .atomicFetchAndAdd qp rk va x => Sys2Proof.Machine.execAtomicFetchAndAdd qp rk va x s
  | .atomicCompareAndSwap qp rk va x y => Sys2Proof.Machine.execAtomicCompareAndSwap qp rk va x y s
  | .invalidRequestNak qp => Sys2Proof.Machine.execInvalidRequestNak qp s
  | .ecnMarkedPacket qp => Sys2Proof.Machine.execEcnMarkedPacket qp s
  | .remoteRequest r => Sys2Proof.Machine.execRemoteRequest r s
  | .flitReceive port v ok => Sys2Proof.Machine.execFlitReceive port v ok s
  | .laneRetire port lane => Sys2Proof.Machine.execLaneRetire port lane s
  | .laneFailure port lane => Sys2Proof.Machine.execLaneFailure port lane s
  | .arbitrationWindow arb => Sys2Proof.Machine.execArbitrationWindow arb s
  | .thermalSample isl t pw => Sys2Proof.Machine.execThermalSample isl t pw s
  | .lifetimeRecordSave => Sys2Proof.Machine.execLifetimeRecordSave s
  | .sensor isl => Sys2Proof.Machine.execSensor isl s
  | .setop isl pt => Sys2Proof.Machine.execSetop isl pt s
  | .pcap w => Sys2Proof.Machine.execPcap w s
  | .evread sq => Sys2Proof.Machine.execEvread sq s
  | .liferead off => Sys2Proof.Machine.execLiferead off s
  | .fwwrite sl off d => Sys2Proof.Machine.execFwwrite sl off d s
  | .fwseal sl => Sys2Proof.Machine.execFwseal sl s
  | .fwcommit x => Sys2Proof.Machine.execFwcommit x s
  | .attest nonce al => Sys2Proof.Machine.execAttest nonce al s
  | .atread off => Sys2Proof.Machine.execAtread off s
  | .reset => Sys2Proof.Machine.execReset s
  | .i3cDynamicAddress a => Sys2Proof.Machine.execI3cDynamicAddress a s
  | .powerOn => Sys2Proof.Machine.execPowerOn s
  | .ethernetOpen => Sys2Proof.Machine.execEthernetOpen s
  | .pageOut al qn => Sys2Proof.Machine.execPageOut al qn s
  | .laneRetrainComplete port => Sys2Proof.Machine.execLaneRetrainComplete port s
  | .powerLoss => Sys2Proof.Machine.execPowerLoss s
  | .orderlyShutdown => Sys2Proof.Machine.execOrderlyShutdown s
  | .priorityFlowControlFrame port prio pause => Sys2Proof.Machine.execPriorityFlowControlFrame port prio pause s

end Sys2Proof.Machine
end

