-- ==== Sys2Proof/Machine/Schedule.lean ====
section
/-!
DEFINITION. Which step comes next (log 2, DESIGN CHOICE): the fetch and decoding of a thread's instruction, the steps of ORDERED mode,
cycles, and the order that the machine takes where the agenda is empty.
-/

namespace Sys2Proof.Machine

open Sys2Proof

/-! ### Fetch and issue (R120, R131, R48) -/

/-- Fetches the instruction of a thread of a cast: 2 or 4 bytes at its PC (R120). -/
def fetchInstr (s : State) (c : Cast) (pc : DWord) : Except (Stop × DWord) (State × Nat) :=
  match fetchHalf s c pc with
  | .error e => .error (e, pc)
  | .ok (s, lo) =>
    if lo % 2 = 0 then .ok (s, lo)
    else match fetchHalf s c (pc + 2) with
      | .error e => .error (e, pc + 2)
      | .ok (s, hi) => .ok (s, lo + 65536 * hi)

/-- Runs the decoded instruction of a READY thread: one that has reached its MEET address enters HELD first (R48), but for
ORDERED mode (R343). -/
def runDecoded (i : Instr) (k : Ctx) (s : State) : Out :=
  if descDet k.c.desc ≠ 1 ∧ k.t.atMeet ∧ !k.t.pass then .next (holdMeet s k) else exec i s

/-- Issues the instruction of the current thread: fetch, decoding (ILL where nothing decodes, R131), and its meaning. -/
def issueCur (s : State) : Out :=
  match s.ctx with
  | none => .next s
  | some k =>
    let (n, s) := s.readsBad k.c
    if n = 1 then .next (raiseWith s k .memerr 1 0 0 .none)
    else match fetchInstr s k.c k.t.pc with
      | .error (e, a) => fetchStop s k e a
      | .ok (s, w) =>
        match decodeNat w with
        | .error _ => raise s k .ill
        | .ok i => runDecoded i k s

/-- What follows the issue of a thread's instruction in the same cycle: it may have come to where a MEET value counts it (R48), and outside
ORDERED mode the sets of its crew whose condition holds now are fixed (R36). -/
def State.afterIssue (s : State) (r : TRef) : State :=
  let s := s.meetNote r
  match look s.casts r.c with
  | none => s
  | some c => if descDet c.desc = 1 then s else s.fixCrew r.c (r.t / 32)

/-- What follows an outcome, where it is a next state. -/
def Out.andThen (o : Out) (f : State → State) : Out :=
  match o with
  | .next s => .next (f s)
  | o => o

/-- Issues the instruction of a thread. -/
def issueThread (r : TRef) (s : State) : Out :=
  Out.andThen (issueCur { s.meetNote r with cur := some r }) (fun s => s.afterIssue r)

/-! ### ORDERED mode (R342, R343) -/

/-- Whether a member has still to perform its instruction of the step: it waits at it. -/
def Thread.inStep (t : Thread) : Bool :=
  match t.st with
  | .cueWait => true
  | .blocked .issue => true
  | .blocked .order => true
  | .blocked (.waitc _) => true
  | .blocked .xlate => true
  | _ => false

/-- The ORDERED casts of a plot, by index. -/
def State.orderedOn (s : State) (p : Nat) : List (Nat × Cast) :=
  let l := (s.castsOn p).filter (fun (_, c) => descDet c.desc == 1)
  l.foldl (fun r x => r.takeWhile (fun y => decide (y.2.ix ≤ x.2.ix)) ++ x :: r.dropWhile (fun y => decide (y.2.ix ≤ x.2.ix))) []

/-! #### What a step brings about (R27, R30, R31, R36, R356) -/

/-- Fixes the sets that the last step of the holder's crew has completed, lowest slot first (R36). -/
def State.fixOrdered (s : State) (p : Nat) : State :=
  match (s.plot p).turn.holder with
  | none => s
  | some (n, w) => s.fixCrew n w

/-- Lets the waits of ORDERED threads that the last step has ended end: a woken WAITA re-reads, the engines and then the threads at RTAKE
take or reserve (R80, R238, R365). -/
def State.wakeOrdered (s : State) (p : Nat) : State :=
  let s := (s.orderedOn p).foldl (fun s (n, c) =>
    (List.range (descSlots c.desc)).foldl (fun s i => Out.state (execWaitaWake n i s) s) s) s
  if (s.orderedOn p).isEmpty then s
  else (List.range 4).foldl (fun s r =>
    let s := Out.state (execReelReserve p r s) s
    Out.state (execReelTake p r s) s) s

/-- Whether the lowest buffered record of a cast commits now (R30). -/
def State.commitReady (s : State) (n : Nat) : Bool :=
  (look s.casts n).any (fun c => (lowestRec c.ebuf).any (committable s n c))

/-- Commits the records of a cast that commit now (R30), at most `m`. -/
def commitAll (n : Nat) : Nat → State → State
  | 0, s => s
  | m + 1, s => if s.commitReady n then commitAll n m (Out.state (execRecordCommit n s) s) else s

/-- Commits every record of the ORDERED casts of a plot that commits by now, so that OUTCNT is the same in every run (R30, R356). -/
def State.commitOrdered (s : State) (p : Nat) : State := (s.orderedOn p).foldl (fun s (n, c) => commitAll n c.ebuf.length s) s

/-- Displaces threads of the ORDERED casts of a plot that are stuck, and releases deferred threads into their free slots (R27, R31). -/
def State.placeOrdered (s : State) (p : Nat) : State :=
  (s.orderedOn p).foldl (fun s (n, _) =>
    let s := if (look s.casts n).any Cast.stuck then Out.state (execDisplacement n s) s else s
    if (look s.casts n).any Cast.releaseDue then Out.state (execSeedbedRelease n s) s else s) s

/-- What an ORDERED step brings about, at its end: the results of a scene in ORDERED mode are the same in every
run (R356), so none of this waits for an event of its own. (Log 15, DEDUCED.) -/
def State.settleStep (s : State) (p : Nat) : State := (((s.fixOrdered p).wakeOrdered p).commitOrdered p).placeOrdered p

/-! #### Forming a step -/

/-- Whether the holder's crew waits in a way that holds the turn (R344): for a cue, a counter, room, an access, a rendezvous, or an earlier
cast on another plot. -/
def State.holderWaits (s : State) (p : Nat) : Bool :=
  match (s.plot p).turn.holder with
  | none => false
  | some (n, w) =>
    (look s.casts n).any (fun c =>
      !(c.fixedSets w).any (fun fx => s.setWait n c fx == some true) &&
        c.threads.any (fun (i, t) => i / 32 == w && (t.inStep || t.arrival.isSome)))

/-- Whether an operation of the holder's crew has its set fixed and still waits: the step that it belongs to has not been performed, so
that the crew forms no other (R36, R343, R344, R349). -/
def State.stepOpen (s : State) (p : Nat) : Bool :=
  (s.plot p).turn.holder.any (fun (n, w) => (look s.casts n).any (fun c => !(c.fixedSets w).isEmpty))

/-- The fixed sets of the holder's crew whose waits are over go on, lowest slot first (R36, R349). -/
def State.resumeSets (s : State) (p : Nat) : State :=
  match (s.plot p).turn.holder with
  | none => s
  | some (n, w) =>
    match look s.casts n with
    | none => s
    | some c => ((c.fixedSets w).filter (fun fx => (s.setWait n c fx).isNone)).foldl (fun s fx => runFixed s n fx) s

/-- Between steps: the turn passes where that is due (R342, R344); an operation that has waited goes on, which ends its step; else the next
step forms, and a crew that has none and waits for nothing that holds the turn passes it. -/
def State.nextStep (s : State) (p : Nat) : State :=
  let s := s.settleTurn p
  let t := s.resumeSets p
  if t ≠ s then t.settleStep p
  else if s.stepOpen p then (if s.holderWaits p then s else s.passTurn p)
  else
    let s := s.formStep p
    if (s.plot p).turn.members.isEmpty && !s.holderWaits p then s.passTurn p else s

/-! #### The cue and pending-result rules of a step (R51, R52, R343) -/

/-- The state in which a member's instruction is tried, to see whether it waits for a cue or raises PEND: no access of the cast is held
back, and no record waits. -/
def State.alone (s : State) (r : TRef) (p : Nat) : State :=
  { s.onPlot p (fun q => { q with oplog := q.oplog.filter (fun h => h.cid != r.c) }) with faultQ := [] }

/-- What the step's wait for the rules R51 and R52 of one member does; none: the member's rules are met. A member that raises PEND does so
before any member performs its instruction. -/
def State.gateMember (s : State) (p : Nat) (r : TRef) : Option State :=
  match s.ctxAt r with
  | none => none
  | some k =>
    if k.t.st != .ready then some s
    else match fetchInstr s k.c k.t.pc with
      | .error _ => some (Out.state (issueThread r s) s)
      | .ok _ =>
        let t := Out.state (issueThread r (s.alone r p)) s
        if (t.thread? r).any (fun u => u.st == .cueWait) then some (s.setThread r { k.t with st := .cueWait })
        else if t.faultQ.any (fun e => e.code == .pend) then some (if k.holds s then s else Out.state (issueThread r s) s)
        else none

/-- The rules of every member of the step (R343): the state, and whether all are met. -/
def State.gateStep (s : State) (p : Nat) : State :=
  let t := (s.plot p).turn
  match t.holder with
  | none => s
  | some (n, _) =>
    let (s, ok) := t.members.foldl (fun (r : State × Bool) i =>
      match r.1.gateMember p ⟨n, i⟩ with
      | none => r
      | some s => (s, false)) (s, true)
    if ok then s.onPlot p (fun q => { q with turn := { q.turn with gate := true } }) else s

/-! #### Performing a step -/

/-- The end of a member's part in a step. The last one ends the step. -/
def State.memberDone (s : State) (p : Nat) (r : TRef) : State :=
  if (s.thread? r).any Thread.inStep then s
  else
    let s := s.onPlot p (fun q => { q with turn := { q.turn with members := q.turn.members.filter (fun i => i != r.t) } })
    if (s.plot p).turn.members.isEmpty then s.settleStep p else s

/-- Goes on with the step of a plot's holder: the rules of its members, then the instruction of the next of them in lane order. -/
def stepMember (p : Nat) (s : State) : Out :=
  let t := (s.plot p).turn
  match t.holder, t.members with
  | some (n, _), i :: _ =>
    let r : TRef := { c := n, t := i }
    if !(look s.casts n).any s.issues then .next s
    else if !t.gate then .next (s.gateStep p)
    else if (s.thread? r).any (fun u => u.st == .ready) then Out.andThen (issueThread r s) (fun s => s.memberDone p r)
    else .next (s.memberDone p r)
  | _, _ => .next s

/-- An ORDERED cast of a plot whose release is due, between steps (R27). -/
def State.orderedRelease (s : State) (p : Nat) : Option Nat :=
  if (s.plot p).turn.members.isEmpty then ((s.orderedOn p).find? (fun (n, c) => c.releaseDue && !s.seedHeld n c)).map Prod.fst else none

/-- The next move of a plot's ORDERED casts (R342, R343). -/
def orderedIssue (p : Nat) (s : State) : Out :=
  match s.orderedRelease p with
  | some n => execSeedbedRelease n s
  | none => if (s.plot p).turn.members.isEmpty then .next (s.nextStep p) else stepMember p s

/-- Issues a thread of a cast, in its mode. -/
def issueIn (r : TRef) (s : State) : Out :=
  match look s.casts r.c with
  | none => .next s
  | some c =>
    if !s.issues c then .next s
    else if descDet c.desc = 1 then orderedIssue c.plot s
    else issueThread r s

/-! ### Cycles and evictions (R8, R47, R138, R215, R378, R386, R388) -/

/-- A plot cycle of a cast's fairness timers (R47): every thread that has neither issued nor left BLOCKED or DEFERRED since. -/
def Cast.timers (c : Cast) : Cast :=
  { c with threads := c.threads.map (fun (i, t) =>
      (i, match t.st with
        | .blocked _ => t
        | _ => { t with timer := t.timer + 1 })) }

/-- What one cycle of a core's clock does on one of its plots: fairness timers, watchdogs, leases (R47, R378, R386). -/
def State.plotCycle (s : State) (p : Nat) : State :=
  let ids := ((s.castsOn p).filter (fun (_, c) => s.issues c && descDet c.desc != 1)).map Prod.fst
  let s := ids.foldl (fun s n => s.onCast n Cast.timers) s
  (((s.castsOn p).map Prod.fst).foldl State.wdogCycle s).spendLeases p

/-- Whether a context is throttled (R379): none of its casts issues. -/
def State.throttled (s : State) (al q : Nat) : Bool :=
  !(s.placed al q).isEmpty && (s.placed al q).all (fun (_, c) => !s.issues c)

/-- One cycle of the I/O die's clock: its counter, and the drain limits of contexts that are not throttled (R388). -/
def State.dieCycle (s : State) : State :=
  let s1 : State := { s with dieClk := s.dieClk + 1 }
  { s1 with allots := s1.allots.map (fun (al, a) => (al, { a with queues := a.queues.mapIdx (fun q x =>
      match x.draining with
      | some n => if s.throttled al q then x else { x with draining := some (n + 1) }
      | none => x) })) }

/-- One cycle of an island's clock, while it runs (R4, R454): a core's four plots share it. (Log 54, DESIGN CHOICE.) -/
def State.cycle (s : State) (i : Nat) : State :=
  if 512 ≤ i || !s.runs i then s
  else if i = 496 then s.dieCycle
  else
    let s := if i < 384 then (List.range 4).foldl (fun s j => s.plotCycle (4 * i + j)) s else s
    { s with clks := put s.clks i ((look s.clks i).getD 0 + 1) }

/-- A translation cache of a plot drops a translation (R402). -/
def State.forget (s : State) (p : Nat) (e : Eng) (al vpn : Nat) : State :=
  s.onPlot p (fun q => { q with tlb := q.tlb.filter (fun t => !(t.eng == e && t.al == al && t.vpn == vpn)) })

/-- The migration engine drops a translation that it caches (R402). -/
def State.migForget (s : State) (al vpn : Nat) : State := { s with mtlb := s.mtlb.filter (fun t => !(t.al == al && t.vpn == vpn)) }

/-! ### The machine's own order (log 2, DESIGN CHOICE) -/

/-- The first crew outside ORDERED mode with a set that can be fixed. -/
def State.nextFix (s : State) : Option (Nat × Nat) :=
  s.casts.findSome? (fun (n, c) =>
    if descDet c.desc = 1 then none
    else (List.range c.crews.length).findSome? (fun w => if (s.readyGroups n w).isEmpty then none else some (n, w)))

/-- The state after the first release that is due outside ORDERED mode (R27); one that waits for a page brings about nothing (R414). -/
def State.nextRelease (s : State) : Option State :=
  s.casts.findSome? (fun (n, c) =>
    if c.releaseDue && descDet c.desc != 1 && !s.seedHeld n c then
      let t := Out.state (execSeedbedRelease n s) s
      if t = s then none else some t
    else none)

/-- Whether the thread of a bundle's entry can issue. -/
def State.canIssue (s : State) (e : Nat × Nat) : Bool :=
  (look s.casts e.1).any (fun c => s.issues c && (look c.threads e.2).any (fun t => t.st == .ready))

/-- The READY thread of a plot whose fairness timer expired first (R46). -/
def State.expired (s : State) (p : Nat) : Option (Nat × Nat) :=
  let l := (s.castsOn p).flatMap (fun (n, c) => (c.threads.filter (fun (_, t) =>
    s.issues c && descDet c.desc != 1 && decide (256 ≤ t.timer) && (t.st == .ready || t.st == .held))).map (fun (i, t) => (t.timer, n, i)))
  (l.foldl (fun (b : Option (Nat × Nat × Nat)) x => match b with
    | none => some x
    | some y => if y.1 < x.1 then some x else some y) none).map (fun x => x.2)

/-- Inserts a thread in increasing slot order. -/
def insSlot (x : Nat × Nat) : List (Nat × Nat) → List (Nat × Nat)
  | [] => [x]
  | y :: r => if x.2 < y.2 then x :: y :: r else y :: insSlot x r

/-- The threads of a bundle in increasing slot order, in which their operations of one cycle issue (R213). -/
def bySlot (b : List (Nat × Nat)) : List (Nat × Nat) := b.foldl (fun r x => insSlot x r) []

/-- A bundle starts to issue (R46): it leaves the list, and its cast goes to the end of the round-robin order. -/
def Plot.startBundle (p : Plot) (b : List (Nat × Nat)) : Plot :=
  match b with
  | [] => p
  | e :: _ => { p with issuing := bySlot b, bundles := p.bundles.erase b, rr := p.rr.filter (fun n => n != e.1) ++ p.rr.filter (fun n => n == e.1) }

/-- The bundle that a plot issues next (R46): one with a thread whose timer has expired, else of the first cast in round-robin order its
first with a READY thread. -/
def State.nextBundle (s : State) (p : Nat) : Option (List (Nat × Nat)) :=
  let q := s.plot p
  match s.expired p with
  | some e => some ((q.bundles.find? (fun b => b.contains e)).getD [e])
  | none => q.rr.findSome? (fun n => q.bundles.find? (fun b => b.any (fun e => e.1 == n && s.canIssue e)))

/-- The next thread of the bundle that issues, or of the next bundle (R46): the plot's state then, and the thread. -/
def State.nextIssue (s : State) (p : Nat) : Option (State × (Nat × Nat)) :=
  let q := s.plot p
  let q := if q.issuing.any s.canIssue then some q else (s.nextBundle p).map (fun b => q.startBundle b)
  q.bind (fun q => (q.issuing.find? s.canIssue).map (fun e =>
    (s.onPlot p (fun _ => { q with issuing := (q.issuing.dropWhile (fun x => x != e)).drop 1 }), e)))

/-- What a plot does next: a HELD thread whose timer has expired leaves HELD, the next thread of its bundles issues, an ORDERED member
goes on, or the plot regroups (R45, R46, R48, R342). -/
def State.plotTurn (s : State) (p : Nat) : Option Out :=
  match (s.expired p).filter (fun e => (s.thread? ⟨e.1, e.2⟩).any (fun t => t.st == .held)) with
  | some (n, i) => some (execFairnessTimerExpiry n i s)
  | none =>
    match s.nextIssue p with
    | some (s, n, i) => some (issueThread ⟨n, i⟩ s)
    | none =>
      let o := if (s.orderedOn p).isEmpty then .next s else orderedIssue p s
      if Out.state o s ≠ s then some o
      else if (s.castsOn p).any (fun (n, c) => descDet c.desc != 1 && c.threads.any (fun (i, _) => s.canIssue (n, i))) then
        some (execBundleRegroup p s)
      else none

/-- The plot of the thread that issued last; none: the round starts again. -/
def State.curPlot (s : State) : Option Nat := s.cur.bind (fun r => (look s.casts r.c).map Cast.plot)

/-- Numbers from 0 up to a count, as event arguments. -/
def upTo (n : Nat) (f : Nat → State → Out) : List (State → Out) := (List.range n).map f

/-- The events of a cast that may be enabled. -/
def castEvents (n : Nat) (c : Cast) : List (State → Out) :=
  (c.threads.flatMap (fun (i, t) =>
    upTo t.flights.length (fun j => execPendingResultReturn n i j) ++
    (match t.st with
      | .held => [execMeetRejoin n i]
      | .blocked (.waita _) => [execWaitaWake n i]
      | .blocked (.collective _) => [execParticipantSetFixed n i]
      | _ => []))) ++
  ((List.range c.crews.length).flatMap (fun w => [OpClass.ld, .st, .cp, .mx].filterMap (fun k =>
    if ((c.crew w).ops.find? (fun o => o.cls == k)).any OutOp.done then some (execMemoryOpRetire n w k) else none))) ++
  upTo 16 (fun b => execBarrierComplete n b) ++
  [execRecordCommit n, execDisplacement n, execCastEnd n, execLeaseGrant n, execWdog n, execDeferredListApply n]

/-- The events of a plot that may be enabled: its engines go before the threads that wait for reel entries (R80). -/
def plotEvents (n : Nat) (p : Plot) : List (State → Out) :=
  [execCopyStart n] ++ upTo p.script.length (fun i => execMatrixCommandStart n i) ++
  upTo 4 (fun r => execReelReserve n r) ++ upTo 4 (fun r => execReelTake n r) ++ upTo p.copies.length (fun i => execCopyRetire n i) ++
  upTo p.script.length (fun i => execMatrixCommandRetire n i) ++ (if p.preqs.isEmpty then [] else [execPromotionRequest n]) ++
  [fun s => .next (s.performAll n p.oplog.length)]

/-- The events of an allotment that may be enabled. -/
def allotEvents (al : Nat) (a : Allot) : List (State → Out) :=
  [execSceneAccept al, execCastPlacement al] ++
  (List.range a.graphs.length).flatMap (fun g => [execBinding al g, execRebinding al g, execFiringStart al g, execEosFiring al g, execGraphFailureStop al g]) ++
  (List.range 64).flatMap (fun q => [execSliceEnd al q, execSoftSaveComplete al q, execHardPreemption al q, execContextRestore al q, execContextRecall al q])

/-- The events of the device that come about by themselves. -/
def State.internal (s : State) : List (State → Out) :=
  s.casts.flatMap (fun (n, c) => castEvents n c) ++ s.plots.flatMap (fun (n, p) => plotEvents n p) ++
  s.scenes.flatMap (fun (n, x) => [execEndOfLaunch x.al n, execCompletionRecordWrite x.al n]) ++ s.allots.flatMap (fun (n, a) => allotEvents n a) ++
  [execFaultRecordWrite, execScrubComplete, execXinvComplete, execMigrationComplete, fun s => .next s.repairGo, fun s => .next s.rdmaRetry] ++ s.ports.map (fun (n, _) => execLaneRetrainComplete n)

/-- The first event of a list that changes the state. -/
def firstEvent (s : State) : List (State → Out) → Option State
  | [] => none
  | f :: r =>
    match f s with
    | .next t => if t = s then firstEvent s r else some t
    | _ => firstEvent s r

/-- The cores that hold the plots of the state. -/
def State.cores (s : State) : List Nat := (s.plots.map (fun (p, _) => p / 4)).eraseDups

/-- The end of a round over the plots: an event of the device, or a cycle of the I/O die's clock and of every core's. -/
def State.roundEnd (s : State) : State :=
  let s : State := { s with cur := none }
  (firstEvent s s.internal).getD (s.cores.foldl State.cycle (s.cycle 496))

/-- The machine's own next step, where the agenda is empty. -/
def defaultStep (s : State) : Out :=
  match s.nextFix with
  | some (n, w) => .next (s.fixCrew n w)
  | none =>
    match s.nextRelease with
    | some t => .next t
    | none =>
      match (s.plots.map Prod.fst).findSome? (fun p => if s.curPlot.all (fun q => decide (q < p)) then s.plotTurn p else none) with
      | some o => o
      | none => .next s.roundEnd

/-- Takes one turn of the agenda. (Log 2, DESIGN CHOICE.) -/
def takeTurn (t : Turn) (s : State) : Out :=
  match t with
  | .issue c i => issueIn ⟨c, i⟩ s
  | .issueLate c i => Out.andThen (issueIn ⟨c, i⟩ { s with lag := true }) (fun s => { s with lag := false })
  | .event i => exec i s
  | .cycle i => .next (s.cycle i)
  | .evict p l => .next (s.expel p l)
  | .evictShared l => .next (s.evictShared l)
  | .dropTlb p e al vpn => .next (if e = .mig then s.migForget al vpn else s.forget p e al vpn)
  | .perform p id => .next (s.performLate p id)
  | .mgClock us => .next (s.mgClock us)
  | .repair => .next s.repairGo
  | .refused port q => .next (s.resend port q)
  | .pending arb c n => .next (s.charge arb c n)
  | .queuePair qp q => .next (s.newPair qp q)
  | .packet ip udp qp r => .next (s.packet ip udp qp r)

/-- One step of the machine. -/
def stepOnce (s : State) : Out :=
  match s.agenda with
  | t :: r => takeTurn t { s with agenda := r }
  | [] => defaultStep s

end Sys2Proof.Machine
end

