-- ==== Sys2Proof/Machine/Boot.lean ====
section
/-!
DEFINITION. A loaded program (log 4, DESIGN CHOICE): an allotment of one plot, its page tables, one page of code, and a cast with one thread,
as they stand after the resident operating system has created the allotment and the dispatcher has placed the cast. The model
holds no program of its own; these definitions stand for that load.
-/

namespace Sys2Proof.Machine

open Sys2Proof

/-- The control block of the loaded allotment (R422): OWNER 1, KEY 2, CEIL system, the tables' and the queues' addresses, one
plot. -/
def bootAcb : BitVec 1024 :=
  BitVec.ofNat 1024 (1 + 2 * 2 ^ 16 + 5 * 2 ^ 28 + 256 * 2 ^ 48 + 256 * 2 ^ 80 + 1 * 2 ^ 96 + 0x40000000 * 2 ^ 128 + 0x40010000 * 2 ^ 192 +
    0x40011000 * 2 ^ 256 + 0x40012000 * 2 ^ 320 + 0x40013000 * 2 ^ 384 + 4 * 2 ^ 576 + 16 * 2 ^ 896)

/-- The scene descriptor of the loaded scene (R374): one cast of 32 slots and one thread, BUDGET 64, two scratch banks, one
operand bank, one tile, one reel, 16 seedbed records, a code page at 0x1_0000 and a data page at 0x2_0000. -/
def bootDesc : BitVec 1024 :=
  BitVec.ofNat 1024 (0x10000 + 0x20000 * 2 ^ 64 + 1 * 2 ^ 128 + 1 * 2 ^ 144 + 1 * 2 ^ 160 + 32 * 2 ^ 176 + 1 * 2 ^ 192 + 0x112 * 2 ^ 208 +
    16 * 2 ^ 224 + 64 * 2 ^ 280 + 64 * 2 ^ 288 + 0x28000 * 2 ^ 320 + 0x2A000 * 2 ^ 384 + 1 * 2 ^ 896)

/-- A leaf entry of a page: valid, writable, executable, with A and D set, and its frame (R398). -/
def bootLeaf (f : Nat) : Nat := 0x180F + f * 2 ^ 16

/-- The page tables, and the instruction at the start of the code page. -/
def bootMem (m : List Host.Cell) (w : Nat) : List Host.Cell :=
  let m := Memory.write m 0x40000000 8 0x40004001
  let m := Memory.write m 0x40004000 8 0x40008001
  let m := Memory.write m 0x40008008 8 (bootLeaf 0x5000)
  let m := Memory.write m 0x40008010 8 (bootLeaf 0x5001)
  Memory.write m 0x50000000 4 w

/-- The loaded allotment (R422). -/
def bootAllot : Allot :=
  { acb := bootAcb, acbA := 0x40020000, plots := [0], clamps := 0, frtail := 0
    queues := (Vector.replicate 64 {}).set 0 { ctxst := 1, head := 1 }, rrQ := 1, nAcc := 1, nSet := 0, graphs := [], saved := [], owed := [] }

/-- The loaded scene (R371): one cast, placed. -/
def bootScene : Scene :=
  { al := 1, qn := 0, subn := 0, acc := 0, desc := bootDesc, reason := 0, nextC := 1, nEnd := 0, fails := [], stopped := false, prio := 0
    fdom := 0, trapr := false, wdlim := 0, drain := 0, slice := 0, path := [], digests := [], rerun := false, phase := .running, setOrd := 0
    fire := none }

/-- The loaded cast (R15, R34): one READY thread at the start of the code page. -/
def bootCast (scn : Nat) : Cast :=
  { al := 1, qn := 0, scene := scn, fire := none, ix := 0, plot := 0, st := .resident, desc := bootDesc, param := 0x20000
    threads := [(0, startThread 0x10000 0x20000 0)], crews := [{}], seeds := [], ebuf := [], accepted := 0, committed := 0
    bars := Vector.replicate 16 {}, scr := [], opd := [], scrBanks := [0, 1], opdBanks := [2], tiles := [0]
    reels := #v[reelOf 1, none, none, none], clk := 0, digest := 0, steps := [], deferred := [], lease := 0, leased := [], wdog := 0
    displaced := none, nextOp := 0, wload := false, active := false, failCode := 0, withdrawn := [], bad := false }

/-- The plot that holds the loaded cast. -/
def bootPlot (cid : Nat) : Plot :=
  { roles := #v[1, 1, 2, 0, 0, 0, 0, 0], bundles := [[(cid, 0)]], rr := [cid], ctx := [(1, 0)] }

/-- The state with a program of one instruction loaded and started. -/
def State.boot (s : State) (w : Nat) : State :=
  { s with
    casts := [(s.nextCast, bootCast s.nextScene)]
    nextCast := s.nextCast + 1
    plots := [(0, bootPlot s.nextCast)]
    scenes := [(s.nextScene, bootScene)]
    nextScene := s.nextScene + 1
    allots := [(1, bootAllot)]
    mem := bootMem s.mem w
    frames := put (put (put (put s.frames 0x4000 { owner := 0, st := 2, key := 1, zero := false })
      0x4001 { owner := 0, st := 2, key := 1, zero := false }) 0x5000 { owner := 1, st := 2, key := 2, zero := false })
      0x5001 { owner := 1, st := 2, key := 2, zero := false }
    agenda := []
    cur := none }

end Sys2Proof.Machine
end

