-- ==== Sys2Proof/Machine/Step.lean ====
section
/-!
DEFINITION. One step of the machine, and a state whose next step runs a given instruction word.
-/

namespace Sys2Proof.Machine

open Sys2Proof

/-- One step: the next turn of the agenda, or the machine's own order (log 2, DESIGN CHOICE). -/
def step (s : State) : Host.Outcome State Fault Refusal := stepOnce s

/-- The state with the instruction of the bits `w`, `nbits` of them and zeros above, where step fetches its next instruction
(log 4, DESIGN CHOICE). -/
def State.withFetchWord (s : State) (nbits w : Nat) : State := s.boot (w % 2 ^ nbits)

end Sys2Proof.Machine
end

