-- ==== Sys2Proof/Machine/Readout.lean ====
section
/-!
DEFINITION. What the registers of the core control windows (spec/17 R395) and of the memory-system window (spec/18 R411, spec/19 R424,
spec/20 R443, R455) read: views of the state. No row of the opcode table reads them; the control cores do.
-/

namespace Sys2Proof.Machine

open Sys2Proof

/-- A set of numbers below `n` as bits. -/
def bitSet (n : Nat) (f : Nat → Bool) : Nat := ((List.range n).map (fun i => if f i then 2 ^ i else 0)).sum

/-- BANKROLE of a core (R66, R395): bank b of the core is bank b mod 8 of plot b div 8. -/
def State.bankRole (s : State) (c : Nat) : Nat :=
  ((List.range 32).map (fun b => ((s.plot (4 * c + b / 8)).roles.toList.getD (b % 8) 0).toNat * 4 ^ b)).sum

/-- The register of a plot in its core's window (R395): SLUSED, NCASTS, TILES, REELS, PDET, ALLOT. -/
def State.plotWindow (s : State) (p : Nat) : Nat :=
  let cs := s.onPlotCasts p
  (cs.map (fun c => descSlots c.desc)).sum + cs.length * 2 ^ 10 + bitSet 8 (fun t => cs.any (fun c => c.tiles.contains t)) * 2 ^ 14 +
    bitSet 4 (fun r => cs.any (fun c => (c.reels.toList.getD r none).isSome)) * 2 ^ 22 +
    (cs.head?.map (fun c => descDet c.desc)).getD 0 * 2 ^ 26 + (s.plotAllot p).getD 0xFFF * 2 ^ 28

/-- A read of a core control window at an offset (R395): an offset with no register is reserved and reads zero. -/
def State.coreWindow (s : State) (c off : Nat) : Nat :=
  match off with
  | 0x000 => s.bankRole c
  | 0x008 => s.plotWindow (4 * c)
  | 0x010 => s.plotWindow (4 * c + 1)
  | 0x018 => s.plotWindow (4 * c + 2)
  | 0x020 => s.plotWindow (4 * c + 3)
  | 0x028 => s.physOf c
  | _ => 0

/-- A bit as a number. -/
def bitOf (b : Bool) : Nat := if b then 1 else 0

/-- A read of the memory-system window at an offset (R411, R424, R443, R455): command registers hold nothing and reserved bits read
zero. -/
def State.windowRead (s : State) (off : Nat) : Nat :=
  let w := s.win
  match off with
  | 0x008 => w.fresult.toNat + bitOf w.fbusy * 4 + w.fentry.toNat * 2 ^ 32
  | 0x018 => bitOf w.xbusy
  | 0x030 => w.mresult.toNat + bitOf w.mbusy * 16
  | 0x040 => w.kresult.toNat + bitOf w.kbusy * 4
  | 0x048 => w.sfrbase.toNat
  | 0x050 => w.sfrlog.toNat
  | 0x058 => w.sfrtail.toNat
  | 0x060 => w.sfrhead.toNat
  | 0x108 => w.aresult.toNat + bitOf w.abusy * 16
  | 0x110 => s.devnum.toNat
  | 0x118 => w.rtbase.toNat
  | 0x120 => bitOf w.rtsync
  | 0x208 => w.cresult.toNat + bitOf w.crep.isSome * 4
  | 0x210 => ((List.range 4).map (fun d => s.mg.spares.toList.getD d 0 * 16 ^ d)).sum
  | 0x340 => bitOf w.mcBusy + w.mcResult.toNat * 16 + w.mcTag.toNat * 2 ^ 16
  | _ => if 0x308 ≤ off ∧ off < 0x340 ∧ off % 8 = 0 then (w.mdata.getD ((off - 0x308) / 8) 0).toNat else 0

end Sys2Proof.Machine
end

