-- ==== Sys2Proof/Safety.lean ====
section
/-!
DEFINITION. What claims say of a run: the canonical form of every memory the state holds, a step that goes on, and the
conditions under which a thread's instruction word runs.
-/

namespace Sys2Proof.Machine

open Sys2Proof

/-- The memories of a cast in canonical form. -/
def Cast.memWf (c : Cast) : Bool := Memory.wf c.scr && Memory.wf c.opd

/-- Home memory, the commons and the memory of other devices are in canonical form: addresses rise, and no listed byte is 0. -/
def State.memWf (s : State) : Bool := Memory.wf s.mem && Memory.wf s.cmn && Memory.wf s.peers

/-- The invariant that every step keeps: every memory is in canonical form, the regions of placed and of saved casts included. -/
structure State.Inv (s : State) : Prop where
  mems : s.memWf = true
  casts : ∀ e ∈ s.casts, e.2.memWf = true
  saved : ∀ e ∈ s.allots, ∀ v ∈ e.2.saved, ∀ x ∈ v.casts, x.cast.memWf = true

/-- A step that goes on: it answers a next state. -/
def Goes (o : Out) : Prop := ∃ t, o = .next t

/-- The context that an instruction's operation works on: past a cue point no register is marked pending (R51, R52). -/
def Ctx.cued (k : Ctx) (q : Bool) : Ctx := if q then { k with t := { k.t with pend := [] } } else k

/-- The conditions on the state under which the instruction word of the current thread runs: the thread `k` is READY in a cast
that issues, it need not wait at a cue point (R51), and none of the registers that the word reads or writes is pending (R52). -/
structure CanRun (s : State) (k : Ctx) (q : Bool) (regs : List Dst) : Prop where
  ready : s.ctx = some k
  quiet : q = true → k.t.writing = false
  free : q = false → ∀ d ∈ regs, d ∉ k.t.pend

/-- The instruction `i` completes: its thread becomes `t`, and the next instruction follows it after `len` bytes, by the end of
an instruction of R178 (`retire`). -/
def Completes (i : Instr) (s : State) (k : Ctx) (t : Thread) (len : Nat) : Prop :=
  exec i s = .next (retire s k t (k.after len) false)

/-- The instruction `i` takes the precise fault `code` of class 0, with INFO, and a data address where there is one. -/
def Faults (i : Instr) (s : State) (k : Ctx) (code : FCode) (info : Nat) (a : DWord) (acck : Acck) : Prop :=
  exec i s = .next (raiseWith s k code 0 info a acck)

end Sys2Proof.Machine
end

