-- ==== Sys2Proof/Certificates/Slice0/Obligations.lean ====
section
/-!
DEFINITION. The statements for the provers: what each instruction and each event of the machine does, the frames, the encodings,
the step, the invariant, and reset. A statement over several families is the conjunction of claims that are named beside it.
-/

open Sys2Proof Sys2Proof.Machine

namespace Sys2Proof.Machine

/-- The instruction `i` completes, and sets the flags `f` of its crew (R107). -/
def CompletesFlags (i : Instr) (s : State) (k : Ctx) (t : Thread) (len : Nat) (f : Word) : Prop :=
  exec i s = .next ((retire s k t (k.after len) false).flag k f)
end Sys2Proof.Machine

/-! ### Integer arithmetic -/

/-- IALU (R147, R148, R150), the operations whose result the next instruction may read: each completes, and x[d] receives its
value; every operand is read as the thread held it before, and a write to x0 is discarded by `setX`. -/
def Sys2Proof.Claims.IntegerResults : Prop :=
  ∀ (q : Bool) (d a b : BitVec 6) (s : State) (k : Ctx), CanRun s k q [.x a, .x b, .x d] →
    let x := k.t.getX a
    let y := k.t.getX b
    let w (i : Instr) (v : Word) : Prop := Completes i s k ((k.cued q).t.setX d v) 4
    w (.add q d a b) (BitVec.ofNat 32 (x.toNat + y.toNat)) ∧
    w (.sub q d a b) (BitVec.ofInt 32 ((x.toNat : Int) - y.toNat)) ∧
    w (.and q d a b) (x &&& y) ∧
    w (.or q d a b) (x ||| y) ∧
    w (.xor q d a b) (x ^^^ y) ∧
    w (.andn q d a b) (x &&& ~~~y) ∧
    w (.shl q d a b) (BitVec.ofNat 32 (x.toNat * 2 ^ (y.toNat % 32))) ∧
    w (.shr q d a b) (BitVec.ofNat 32 (x.toNat / 2 ^ (y.toNat % 32))) ∧
    w (.sra q d a b) (BitVec.ofInt 32 (x.toInt / 2 ^ (y.toNat % 32))) ∧
    w (.ror q d a b) ((x >>> (y.toNat % 32)) ||| (x <<< (32 - y.toNat % 32))) ∧
    w (.mul q d a b) (BitVec.ofNat 32 (x.toNat * y.toNat)) ∧
    w (.mulh q d a b) (BitVec.ofInt 32 (x.toInt * y.toInt / 2 ^ 32)) ∧
    w (.mulhu q d a b) (BitVec.ofNat 32 (x.toNat * y.toNat / 2 ^ 32)) ∧
    w (.mulhsu q d a b) (BitVec.ofInt 32 (x.toInt * y.toNat / 2 ^ 32)) ∧
    w (.min q d a b) (if x.toInt ≤ y.toInt then x else y) ∧
    w (.max q d a b) (if y.toInt ≤ x.toInt then x else y) ∧
    w (.minu q d a b) (if x.toNat ≤ y.toNat then x else y) ∧
    w (.maxu q d a b) (if y.toNat ≤ x.toNat then x else y) ∧
    w (.slt q d a b) (if x.toInt < y.toInt then 1 else 0) ∧
    w (.sltu q d a b) (if x.toNat < y.toNat then 1 else 0)

/-- CLZ, POPC and BREV (R147): the number of leading zeros c satisfies 2^31 ≤ x × 2^c < 2^32, or is 32 for 0; the number of one
bits; and bit i of the reversal is bit 31 − i. -/
def Sys2Proof.Claims.IntegerBitCounts : Prop :=
  ∀ (q : Bool) (d a : BitVec 6) (s : State) (k : Ctx), CanRun s k q [.x a, .x d] →
    let x := k.t.getX a
    (∃ c : Nat, (x = 0 → c = 32) ∧ (x ≠ 0 → 2 ^ 31 ≤ x.toNat * 2 ^ c ∧ x.toNat * 2 ^ c < 2 ^ 32) ∧
      Completes (.clz q d a) s k ((k.cued q).t.setX d (BitVec.ofNat 32 c)) 4) ∧
    Completes (.popc q d a) s k
      ((k.cued q).t.setX d (BitVec.ofNat 32 ((List.range 32).countP (fun i => x.getLsbD i)))) 4 ∧
    ∃ v : Word, (∀ i, i < 32 → v.getLsbD i = x.getLsbD (31 - i)) ∧
      Completes (.brev q d a) s k ((k.cued q).t.setX d v) 4

/-- DIV, DIVU, REM and REMU (R149): the quotient truncates toward zero, the remainder makes dividend = quotient × divisor +
remainder, and the corner cases of the table; the result is pending (R50). -/
def Sys2Proof.Claims.DivisionResults : Prop :=
  ∀ (q : Bool) (d a b : BitVec 6) (s : State) (k : Ctx), CanRun s k q [.x a, .x b, .x d] →
    let x := k.t.getX a
    let y := k.t.getX b
    let w (i : Instr) (v : Word) : Prop := Completes i s k ((k.cued q).t.pending { dst := [(.x d, v)] }) 4
    w (.divu q d a b) (if y = 0 then 0xFFFFFFFF else BitVec.ofNat 32 (x.toNat / y.toNat)) ∧
    w (.remu q d a b) (if y = 0 then x else BitVec.ofNat 32 (x.toNat % y.toNat)) ∧
    w (.div q d a b) (if y = 0 then 0xFFFFFFFF else if x = 0x80000000 ∧ y = 0xFFFFFFFF then 0x80000000 else x.sdiv y) ∧
    w (.rem q d a b) (if y = 0 then x else if x = 0x80000000 ∧ y = 0xFFFFFFFF then 0 else x.srem y)

/-- The immediate forms (R151 to R153): sign- or zero-extended immediates, shifts by a constant, and the four modes of LUI. -/
def Sys2Proof.Claims.ImmediateResults : Prop :=
  ∀ (q : Bool) (d a : BitVec 6) (im : BitVec 12) (n : BitVec 5) (v : BitVec 16) (s : State) (k : Ctx),
    CanRun s k q [.x a, .x d] →
    let x := k.t.getX a
    let w (i : Instr) (v : Word) : Prop := Completes i s k ((k.cued q).t.setX d v) 4
    w (.addi q d a im) (BitVec.ofInt 32 (x.toNat + im.toInt)) ∧
    w (.andi q d a im) (x &&& BitVec.ofNat 32 im.toNat) ∧
    w (.ori q d a im) (x ||| BitVec.ofNat 32 im.toNat) ∧
    w (.xori q d a im) (x ^^^ BitVec.ofNat 32 im.toNat) ∧
    w (.shli q d a n) (BitVec.ofNat 32 (x.toNat * 2 ^ n.toNat)) ∧
    w (.shri q d a n) (BitVec.ofNat 32 (x.toNat / 2 ^ n.toNat)) ∧
    w (.srai q d a n) (BitVec.ofInt 32 (x.toInt / 2 ^ n.toNat)) ∧
    w (.rori q d a n) ((x >>> n.toNat) ||| (x <<< (32 - n.toNat))) ∧
    w (.lui q d v) (BitVec.ofNat 32 (v.toNat * 65536)) ∧
    w (.luiZ q d v) (BitVec.ofNat 32 v.toNat) ∧
    w (.luiLo q d v) ((k.t.getX d &&& 0xFFFF0000) ||| BitVec.ofNat 32 v.toNat) ∧
    w (.luiS q d v) (BitVec.ofInt 32 v.toInt)

/-- BFX, BFX.S and BFI (R154, R155), with lsb and width as the assembly forms name them: the field, its sign, and the insertion
under the mask; an encoding with lsb + width > 32 raises ILL. -/
def Sys2Proof.Claims.BitFieldResults : Prop :=
  ∀ (q : Bool) (d a : BitVec 6) (l w : BitVec 5) (s : State) (k : Ctx), CanRun s k q [.x d, .x a] →
    let lsb := l.toNat
    let width := w.toNat + 1
    let f := (k.t.getX a).toNat / 2 ^ lsb % 2 ^ width
    let m : Word := BitVec.ofNat 32 ((2 ^ width - 1) * 2 ^ lsb)
    (lsb + width ≤ 32 →
      Completes (.bfx q d a l w) s k ((k.cued q).t.setX d (BitVec.ofNat 32 f)) 4 ∧
      Completes (.bfxS q d a l w) s k ((k.cued q).t.setX d
        (if 2 ^ (width - 1) ≤ f then BitVec.ofInt 32 ((f : Int) - 2 ^ width) else BitVec.ofNat 32 f)) 4 ∧
      Completes (.bfi q d a l w) s k ((k.cued q).t.setX d ((k.t.getX d &&& ~~~m) ||| ((k.t.getX a <<< lsb) &&& m))) 4) ∧
    (32 < lsb + width →
      Faults (.bfx q d a l w) s k .ill 0 0 .none ∧ Faults (.bfxS q d a l w) s k .ill 0 0 .none ∧
      Faults (.bfi q d a l w) s k .ill 0 0 .none)

/-- The narrow integer operations (R127, R128): x[d] op x[a] or a signed 5-bit immediate, two bytes long, never a cue point. -/
def Sys2Proof.Claims.NarrowResults : Prop :=
  ∀ (d a im : BitVec 5) (s : State) (k : Ctx), CanRun s k false [.x (wideReg d), .x (wideReg a)] →
    let x := k.t.getX (wideReg d)
    let y := k.t.getX (wideReg a)
    let w (i : Instr) (v : Word) : Prop := Completes i s k (k.t.setX (wideReg d) v) 2
    (wideReg d).toNat = d.toNat ∧
    w (.mov d a) y ∧
    w (.addN d a) (BitVec.ofNat 32 (x.toNat + y.toNat)) ∧
    w (.subN d a) (BitVec.ofInt 32 ((x.toNat : Int) - y.toNat)) ∧
    w (.andN d a) (x &&& y) ∧
    w (.orN d a) (x ||| y) ∧
    w (.xorN d a) (x ^^^ y) ∧
    w (.shlN d a) (BitVec.ofNat 32 (x.toNat * 2 ^ (y.toNat % 32))) ∧
    w (.shrN d a) (BitVec.ofNat 32 (x.toNat / 2 ^ (y.toNat % 32))) ∧
    w (.mulN d a) (BitVec.ofNat 32 (x.toNat * y.toNat)) ∧
    w (.addi5 d im) (BitVec.ofInt 32 (x.toNat + im.toInt)) ∧
    w (.movi5 d im) (BitVec.ofInt 32 im.toInt)

/-- CMP, CMPI and SEL (R156 to R158): the six conditions; codes 6 and 7 raise ILL. -/
def Sys2Proof.Claims.CompareResults : Prop :=
  ∀ (q : Bool) (kd p : BitVec 3) (d a b : BitVec 6) (im : BitVec 12) (c : BitVec 3) (s : State) (k : Ctx),
    CanRun s k q [.x a, .x b, .x d, .k p, .k kd] →
    let x := k.t.getX a
    let y := k.t.getX b
    let z : Word := BitVec.ofInt 32 im.toInt
    let holds (x y : Word) (v : Bool) : Prop :=
      v = (match c.toNat with
        | 0 => decide (x = y) | 1 => decide (x ≠ y) | 2 => decide (x.toInt < y.toInt) | 3 => decide (y.toInt ≤ x.toInt)
        | 4 => decide (x.toNat < y.toNat) | _ => decide (y.toNat ≤ x.toNat))
    (c.toNat < 6 →
      (∃ v, holds x y v ∧ exec (.cmp q kd a b c) s = .next (retire s k ((k.cued q).t.setK kd v) (k.after 4) false)) ∧
      (∃ v, holds x z v ∧ exec (.cmpi q kd c a im) s = .next (retire s k ((k.cued q).t.setK kd v) (k.after 4) false))) ∧
    (6 ≤ c.toNat → Faults (.cmp q kd a b c) s k .ill 0 0 .none ∧ Faults (.cmpi q kd c a im) s k .ill 0 0 .none) ∧
    Completes (.sel q d a b p) s k ((k.cued q).t.setX d (if k.t.getK p = true then x else y)) 4

/-- KOP (R159): the predicate operations, KTOX, XTOK, and that KPACK followed by KUNPK of its word restores every predicate. -/
def Sys2Proof.Claims.PredicateResults : Prop :=
  ∀ (q : Bool) (d a b : BitVec 3) (xd xa : BitVec 6) (s : State) (k : Ctx), CanRun s k q
      ([.k d, .k a, .k b, .x xd, .x xa] ++ (List.range 8).map (fun i => Dst.k (BitVec.ofNat 3 i))) →
    let w (i : Instr) (v : Bool) : Prop := Completes i s k ((k.cued q).t.setK d v) 4
    w (.kand q d a b) (k.t.getK a && k.t.getK b) ∧
    w (.kor q d a b) (k.t.getK a || k.t.getK b) ∧
    w (.kxor q d a b) (k.t.getK a ^^ k.t.getK b) ∧
    w (.kandn q d a b) (k.t.getK a && !k.t.getK b) ∧
    w (.korn q d a b) (k.t.getK a || !k.t.getK b) ∧
    w (.knot q d a) (!k.t.getK a) ∧
    w (.xtok q d xa) (decide (k.t.getX xa ≠ 0)) ∧
    Completes (.ktox q xd a) s k ((k.cued q).t.setX xd (if k.t.getK a then 1 else 0)) 4 ∧
    (∃ v : Word, (∀ i, v.getLsbD i = (decide (i < 8) && k.t.getK (BitVec.ofNat 3 i))) ∧
      Completes (.kpack q xd) s k ((k.cued q).t.setX xd v) 4) ∧
    ∃ t, Completes (.kunpk q xa) s k t 4 ∧ t.x = k.t.x ∧
      ∀ j : BitVec 3, t.getK j = (decide (j = 0) || (k.t.getX xa).getLsbD j.toNat)

/-- ADDA and ADDAI (R160, R161): the pair plus the sign-extended index shifted, or the sign-extended byte count, modulo 2^64. -/
def Sys2Proof.Claims.AddressResults : Prop :=
  ∀ (q : Bool) (d a : BitVec 5) (b : BitVec 6) (sh : BitVec 2) (im : BitVec 12) (s : State) (k : Ctx),
    CanRun s k q (pairDst a ++ [.x b] ++ pairDst d) →
    Completes (.adda q d a b sh) s k
      ((k.cued q).t.setA d (BitVec.ofInt 64 ((k.t.getA a).toNat + (k.t.getX b).toInt * 2 ^ sh.toNat))) 4 ∧
    Completes (.addai q d a im) s k ((k.cued q).t.setA d (BitVec.ofInt 64 ((k.t.getA a).toNat + im.toInt))) 4

/-- The integer operations and the 16-bit ones complete with their values: `IntegerResults`, `IntegerBitCounts`, `DivisionResults` and
`NarrowResults`. -/
def Obligations.IntegerResults : Prop :=
  Sys2Proof.Claims.IntegerResults ∧ Sys2Proof.Claims.IntegerBitCounts ∧ Sys2Proof.Claims.DivisionResults ∧ Sys2Proof.Claims.NarrowResults

/-- The immediate, address, bit-field, compare, select and predicate operations complete with their values: `ImmediateResults`,
`AddressResults`, `BitFieldResults`, `CompareResults` and `PredicateResults`. -/
def Obligations.ImmediateResults : Prop :=
  Sys2Proof.Claims.ImmediateResults ∧ Sys2Proof.Claims.AddressResults ∧ Sys2Proof.Claims.BitFieldResults ∧ Sys2Proof.Claims.CompareResults ∧ Sys2Proof.Claims.PredicateResults

/-! ### Control flow -/

/-- The address `2 × sext(offset)` bytes from the instruction (R162 to R164). -/
def Sys2Proof.Machine.Ctx.target {n : Nat} (k : Ctx) (o : BitVec n) : DWord := BitVec.ofInt 64 (k.t.pc.toNat + 2 * o.toInt)

/-- BR, JMP and CALL (R162 to R164): the branch goes where k[k] XOR neg is 1, the link of CALL is the address after it, and a
taken transfer is named to the end of the instruction (R178). -/
def Sys2Proof.Claims.BranchResults : Prop :=
  ∀ (q : Bool) (p : BitVec 3) (n : Bool) (o20 : BitVec 20) (o24 : BitVec 24) (s : State) (k : Ctx),
    CanRun s k q ([.k p] ++ pairDst 31) →
    ((k.t.getK p ^^ n) = true → exec (.br q p n o20) s = .next (retire s k (k.cued q).t (k.target o20) true)) ∧
    ((k.t.getK p ^^ n) = false → Completes (.br q p n o20) s k (k.cued q).t 4) ∧
    exec (.jmp q o24) s = .next (retire s k (k.cued q).t (k.target o24) true) ∧
    exec (.call q o24) s = .next (retire s k ((k.cued q).t.setA 31 (k.t.pc + 4)) (k.target o24) true)

/-- JR, RET and CALLR (R166, R167, R170), in the order of R167: an odd target raises ALIGN; a target off the GLOBAL, local path is
transferred to without a check; CALLR reads the four bytes before its target, and transfers there or raises BUDGET. -/
def Sys2Proof.Claims.IndirectJumps : Prop :=
  ∀ (q : Bool) (a : BitVec 5) (s : State) (k : Ctx), CanRun s k q (pairDst a ++ pairDst 31) →
    let jumps (i : Instr) (t : DWord) : Prop :=
      (t.getLsbD 0 = true → Faults i s (k.cued q) .align 0 0 .none) ∧
      (t.getLsbD 0 = false → exec i s = .next (retire s k (k.cued q).t t true))
    let t := k.t.getA a
    let linked (s : State) : State := retire s k ((k.cued q).t.setA 31 (k.t.pc + 4)) t true
    jumps (.jr q a) t ∧ jumps (.ret q) (k.t.getA 31) ∧
    (t.getLsbD 0 = true → Faults (.callr q a) s (k.cued q) .align 0 0 .none) ∧
    (t.getLsbD 0 = false → bitsN t 48 16 ≠ 0 → exec (.callr q a) s = .next (linked s)) ∧
    ∀ (s1 : State) (h : Nat), t.getLsbD 0 = false → bitsN t 48 16 = 0 → fetchWord s k.c (t - 4) = .ok (s1, h) →
      let bud := h / 256 % 128
      let good := h % 256 = 1 ∧ h / 2 ^ 15 % 2 = 0 ∧ h / 2 ^ 16 = 0x4244 ∧ 1 ≤ bud ∧ bud ≤ 64 ∧ bud ≤ descBudget k.c.desc
      (good → exec (.callr q a) s = .next (linked s1)) ∧
      (¬good → exec (.callr q a) s = .next (raiseWith s1 (k.cued q) .budget 0 0 0 .none))

/-- MEET, NOP and YIELD (R173, R174, R180): MEET sets only its register; YIELD is a switch point in ORDERED mode, and elsewhere
moves its cast to the end of the plot's round-robin turn. -/
def Sys2Proof.Claims.MeetNopYield : Prop :=
  ∀ (q : Bool) (o : BitVec 24) (s : State) (k : Ctx), CanRun s k q [] →
    Completes (.meet q o) s k { (k.cued q).t with meet := (k.target o).setWidth 32 } 4 ∧
    Completes (.nop q) s k (k.cued q).t 4 ∧
    let s1 := retire s k (k.cued q).t (k.after 4) false
    (descDet k.c.desc = 1 → (s.plot k.c.plot).turn.holder = some (k.r.c, k.crewN) →
      exec (.yield q) s = .next (s1.onPlot k.c.plot (fun p => { p with turn := { p.turn with switch := true } }))) ∧
    (descDet k.c.desc ≠ 1 → exec (.yield q) s = .next (s1.onPlot k.c.plot (fun p =>
      { p with rr := p.rr.filter (fun c => c != k.r.c) ++ p.rr.filter (fun c => c == k.r.c) })))

/-- LOOP (R175 to R177): ILL where head and body leave one 64 KiB block, BCNT above 65,535, the body skipped for 0, else the level
opens with COUNT, HEAD and ACT, and the body starts. -/
def Sys2Proof.Claims.LoopOpens : Prop :=
  ∀ (q : Bool) (n : BitVec 2) (a : BitVec 6) (l : BitVec 12) (s : State) (k : Ctx), CanRun s k q [.x a] →
    n.toNat < 3 → l.toNat ≠ 0 →
    let e : DWord := k.t.pc + 4 + BitVec.ofNat 64 (2 * l.toNat)
    let c := k.t.getX a
    let near := k.t.pc.toNat / 65536 = (e - 2).toNat / 65536
    (¬near → Faults (.loop q n a l) s (k.cued q) .ill 0 0 .none) ∧
    (near → 65535 < c.toNat → Faults (.loop q n a l) s (k.cued q) .bcnt 0 0 .none) ∧
    (near → c = 0 → exec (.loop q n a l) s = .next (retire s k { (k.cued q).t with lc := k.t.lc.setIfInBounds n.toNat 0 } e false)) ∧
    (near → c ≠ 0 → c.toNat ≤ 65535 → ∃ v : Word, bitsN v 0 16 = c.toNat ∧ bitsN v 16 15 = bitsN k.t.pc 1 15 ∧ bitsN v 31 1 = 1 ∧
      Completes (.loop q n a l) s k
        { (k.cued q).t with lc := k.t.lc.setIfInBounds n.toNat v, ll := k.t.ll.setIfInBounds n.toNat l } 4)

/-- The end of an instruction where no level of the thread's loops is active (R178, R138, R139): the thread becomes READY at the
next PC with one more instruction retired, no other thread of any cast changes, and nothing but its cast does. -/
def Sys2Proof.Claims.InstructionEnd : Prop :=
  ∀ (s : State) (k : Ctx) (t : Thread) (next : DWord) (taken : Bool) (c : Cast), look s.casts k.r.c = some c →
    (t.lc[0]).getLsbD 31 = false → (t.lc[1]).getLsbD 31 = false → (t.lc[2]).getLsbD 31 = false →
    let s' := retire s k t next taken
    s'.thread? k.r = some { t with pc := next, retired := t.retired + 1, timer := 0, pass := false, st := .ready } ∧
    (∀ r, r ≠ k.r → s'.thread? r = s.thread? r) ∧
    (∃ c', look s'.casts k.r.c = some c' ∧ c'.clk = c.clk + 1 ∧ c'.crews = c.crews ∧ c'.scr = c.scr ∧ c'.opd = c.opd) ∧
    s' = { s with casts := s'.casts }

/-- A hardware loop at the end of its body (R178), one level active and the other two not: an instruction that is no taken transfer
and whose next PC is the end of the body goes back to the body's start with COUNT lower by one, or, on the last pass, past it with
the level cleared; a taken transfer to the same address leaves the loop. Of two levels that share the end of the body the inner one
goes round first, and one that finishes lets the outer one be tested at the same instruction. -/
def Sys2Proof.Claims.LoopRounds : Prop :=
  ∀ (t : Thread) (pc : DWord) (l : Word) (n : Fin 3),
    let start := lcHead pc l + 4
    let next : DWord := start + BitVec.ofNat 64 (2 * t.ll[n].toNat)
    l.getLsbD 31 = true → t.lc = (Vector.replicate 3 0).set n l → start.toNat < next.toNat →
    (1 < bitsN l 0 16 → settle t pc next false = (t.lc.set n (l - 1), start)) ∧
    (bitsN l 0 16 ≤ 1 → settle t pc next false = (Vector.replicate 3 0, next)) ∧
    settle t pc next true = (Vector.replicate 3 0, next) ∧
    ∀ (m : Fin 3) (o : Word) (u : Thread), m < n → o.getLsbD 31 = true →
      u.lc = ((Vector.replicate 3 0).set m o).set n l → u.ll[n] = t.ll[n] →
      let outer := lcHead pc o + 4
      next = outer + BitVec.ofNat 64 (2 * u.ll[m].toNat) → outer.toNat ≤ start.toNat →
      (1 < bitsN l 0 16 → settle u pc next false = (u.lc.set n (l - 1), start)) ∧
      (bitsN l 0 16 ≤ 1 → 1 < bitsN o 0 16 → settle u pc next false = ((Vector.replicate 3 0).set m (o - 1), outer)) ∧
      (bitsN l 0 16 ≤ 1 → bitsN o 0 16 ≤ 1 → settle u pc next false = (Vector.replicate 3 0, next)) ∧
      settle u pc next true = (Vector.replicate 3 0, next)

/-! ### BECOME -/

/-- No other live thread, no deferred thread and no buffered record of the cast stands below the thread's next record (R30), once the
thread in slot `gone` has ended. -/
def Sys2Proof.Machine.Cast.RecordLowest (c : Cast) (gone : Nat) (t : Thread) : Prop :=
  (∀ e ∈ c.threads, e.1 ≠ gone → keyLt e.2.key e.2.dep.toNat t.key t.dep.toNat = false) ∧
  (∀ r ∈ c.seeds, keyLt r.low.1 r.low.2 t.key t.dep.toNat = false) ∧
  ∀ r ∈ c.ebuf, keyLt r.key r.dep.toNat t.key t.dep.toNat = false

/-- BECOME without a fork (R20): it waits for every pending result whatever Q is; a count above 65,535 raises BCNT and a fork at
depth 8 BDEPTH; a count of 0 ends the thread, whose slot frees, and no other thread changes, but that one stalled at an EMIT whose
record is now the lowest of the cast (R30) goes on, and that flags which a shared result carried are not set twice (R204); a count
of 1 writes 0 and leaves key and depth. -/
def Sys2Proof.Claims.BecomeUnforked : Prop :=
  ∀ (q : Bool) (d a : BitVec 6) (s : State) (k : Ctx), CanRun s k true [] →
    let n := (k.t.getX a).toNat
    (65535 < n → Faults (.become q d a) s (k.cued true) .bcnt 0 0 .none) ∧
    (2 ≤ n → n ≤ 65535 → k.t.dep.toNat = 8 → Faults (.become q d a) s (k.cued true) .bdepth 0 0 .none) ∧
    (n = 0 → ∃ s', exec (.become q d a) s = .next s' ∧ s'.thread? k.r = none ∧
      (∀ r, r.c ≠ k.r.c → s'.thread? r = s.thread? r) ∧
      (∀ i, i ≠ k.r.t → look k.c.threads i = none → s'.thread? ⟨k.r.c, i⟩ = none) ∧
      (∀ i t, i ≠ k.r.t → look k.c.threads i = some t → ∃ fl : List Flight,
        fl.map (fun f => { f with flags := 0 }) = t.flights.map (fun f => { f with flags := 0 }) ∧
        (t.st = .blocked .emit → k.c.RecordLowest k.r.t t →
          s'.thread? ⟨k.r.c, i⟩ = some { t with flights := fl, st := .ready, timer := 0 }) ∧
        (¬(t.st = .blocked .emit ∧ k.c.RecordLowest k.r.t t) → s'.thread? ⟨k.r.c, i⟩ = some { t with flights := fl })) ∧
      s' = { s with casts := s'.casts, plots := s'.plots }) ∧
    (n = 1 → Completes (.become q d a) s k ((k.cued true).t.setX d 0) 4)

/-- The copies with ordinals from 1 on, in slots of their own that were free, with the parent after the BECOME (R20, R26): each holds
its ordinal in x[d] and in its lineage key at the parent's level, LDEP one higher, and everything else as the parent held it. -/
def Sys2Proof.Machine.Ctx.CopiesIn (k : Ctx) (d : BitVec 6) (s' : State) (me : Thread) (slots : List Nat) : Prop :=
  slots.Nodup ∧ ∀ j i, slots[j]? = some i → i < descSlots k.c.desc ∧ look k.c.threads i = none ∧
    ∃ t, s'.thread? ⟨k.r.c, i⟩ = some t ∧ (d ≠ 0 → t.getX d = BitVec.ofNat 32 (j + 1)) ∧
      (∀ r, r ≠ d → t.getX r = k.t.getX r) ∧ t.k = k.t.k ∧ t.e = k.t.e ∧ t.meet = k.t.meet ∧ t.cmask = k.t.cmask ∧
      t.key = keySet k.t.key k.t.dep.toNat (j + 1) ∧ t.dep = me.dep ∧ t.pc = me.pc ∧ t.lc = me.lc ∧ t.retired = 0 ∧ t.st = .ready

/-- The parent after a BECOME that makes copies (R20): ordinal 0, one level deeper. -/
def Sys2Proof.Machine.Ctx.ParentIs (k : Ctx) (d : BitVec 6) (s' : State) (me : Thread) : Prop :=
  s'.thread? k.r = some me ∧ me.getX d = 0 ∧ me.key = keySet k.t.key k.t.dep.toNat 0 ∧ me.dep.toNat = (k.t.dep.toNat + 1) % 16 ∧
    me.retired = k.t.retired + 1 ∧ me.st = .ready

/-- BECOME of n ≥ 2 copies where enough slots are free (R20, R24, R26), in a cast with an empty seedbed, by a thread whose accesses
are performed and whose cell reads have read: the parent becomes ordinal 0, and each ordinal o from 1 to n − 1 stands in a slot of
its own that was free; in ORDERED mode they are the lowest free slots in order (R23). -/
def Sys2Proof.Claims.BecomeForks : Prop :=
  ∀ (q : Bool) (d a : BitVec 6) (s : State) (k : Ctx), CanRun s k true [] →
    let n := (k.t.getX a).toNat
    let free := (List.range (descSlots k.c.desc)).filter (fun i => (look k.c.threads i).isNone)
    2 ≤ n → n ≤ 65535 → k.t.dep.toNat ≠ 8 → k.c.seeds = [] → k.holds s = false → k.t.cellReads = [] → n - 1 ≤ free.length →
    ∃ s' me slots, exec (.become q d a) s = .next s' ∧ k.ParentIs d s' me ∧ slots.length = n - 1 ∧ k.CopiesIn d s' me slots ∧
      (descDet k.c.desc = 1 → slots = free.take (n - 1))

/-- BECOME of n ≥ 2 copies where fewer slots are free (R24, R25, R28); none counts as free while the seedbed holds a record. Where no
record of the seedbed is free it raises SEEDFULL. Else a free record takes the ordinals that find no slot, with the snapshot, the
parent's key and depth before the fork and register d; it is written to memory before any copy is placed, and where that write
is accepted the copies below them stand in the free slots. -/
def Sys2Proof.Claims.BecomeDefers : Prop :=
  ∀ (q : Bool) (d a : BitVec 6) (s : State) (k : Ctx), CanRun s k true [] →
    let n := (k.t.getX a).toNat
    let free := (List.range (descSlots k.c.desc)).filter (fun i => (look k.c.threads i).isNone)
    let f := if k.c.seeds = [] then free.length else 0
    let recs := (List.range (byteN k.c.desc 28 2)).filter (fun i => k.c.seeds.all (fun r => r.pos != i))
    2 ≤ n → n ≤ 65535 → k.t.dep.toNat ≠ 8 → k.holds s = false → k.t.cellReads = [] → f < n - 1 →
    (recs = [] → Faults (.become q d a) s (k.cued true) .seedfull 0 0 .none) ∧
    (recs ≠ [] → ∃ r : SeedRec, r.pos ∈ recs ∧ r.kind = 1 ∧ r.x = k.t.x ∧ r.e = k.t.e ∧ r.k = k.t.k ∧ r.meet = k.t.meet ∧
      r.cmask = k.t.cmask ∧ r.key = k.t.key ∧ r.depth = k.t.dep.toNat ∧ r.dreg = d ∧ r.olo = f + 1 ∧ r.ohi = n - 1 ∧ r.ret = 0 ∧
      ∀ s1, s.choose.2.writeSeed k.c r = .ok s1 →
        ∃ s' me slots, exec (.become q d a) s = .next s' ∧ k.ParentIs d s' me ∧ r.pc = me.pc ∧ r.lc = me.lc ∧
          (look s'.casts k.r.c).map Cast.seeds = some (k.c.seeds ++ [r]) ∧ slots.length = f ∧ k.CopiesIn d s' me slots)

/-- Branches, jumps, calls and returns go where their rules say: `BranchResults` and `IndirectJumps`. -/
def Obligations.BranchResults : Prop :=
  Sys2Proof.Claims.BranchResults ∧ Sys2Proof.Claims.IndirectJumps

/-- The end of an instruction moves its thread alone, and MEET, NOP and YIELD complete: `InstructionEnd` and `MeetNopYield`. The model's
choice, not the spec's: which of two orders an MTS write and the settling of R178 take (log 21); a level keeps the body length of
its LOOP (log 70). -/
def Obligations.InstructionEnd : Prop :=
  Sys2Proof.Claims.InstructionEnd ∧ Sys2Proof.Claims.MeetNopYield

/-- LOOP opens a level, and the end of its body goes back or past it: `LoopOpens` and `LoopRounds`. The model's choice, not the spec's:
a body that crosses a 64 KiB block raises ILL as the LOOP's own fault, after the cue point and PEND (log 12); a level keeps the body
length of its LOOP (log 70). -/
def Obligations.LoopResults : Prop :=
  Sys2Proof.Claims.LoopOpens ∧ Sys2Proof.Claims.LoopRounds

/-- BECOME ends, keeps or forks its thread, and defers the copies without a slot: `BecomeUnforked`, `BecomeForks` and `BecomeDefers`. -/
def Obligations.BecomeResults : Prop :=
  Sys2Proof.Claims.BecomeUnforked ∧ Sys2Proof.Claims.BecomeForks ∧ Sys2Proof.Claims.BecomeDefers

/-! ### Lane arithmetic -/

/-- FALU, its narrow forms, and the fused operations (R128, R186 to R188): the exact result of the operands as FP32 reads them
under SUBN, rounded once by FP32's bits of the crew's MODE, with the flags of that rounding; FMIN and FMAX by R89; FABS, FNEG and
FSGNJ on bits alone, with no flag. -/
def Sys2Proof.Claims.FloatResults : Prop :=
  ∀ (q : Bool) (d a b c : BitVec 6) (n m : BitVec 5) (s : State) (k : Ctx), CanRun s k q [.x a, .x b, .x c, .x d] →
    let r := modeF32 k.crew.mode
    let v (x : BitVec 6) : FpVal := fp32.read r.subn (k.t.getX x).toNat
    let bits (x : BitVec 6) : Nat := (k.t.getX x).toNat
    let w (i : Instr) (e : Nat × Word) : Prop :=
      CompletesFlags i s k ((k.cued q).t.setX d (BitVec.ofNat 32 e.1)) 4 e.2
    w (.fadd q d a b) (fp32.finish r ((v a).add r.rnd (v b))) ∧
    w (.fsub q d a b) (fp32.finish r ((v a).add r.rnd (v b).neg)) ∧
    w (.fmul q d a b) (fp32.finish r ((v a).mul (v b))) ∧
    w (.fmin q d a b) (fp32.minMax r.subn false (bits a) (bits b)) ∧
    w (.fmax q d a b) (fp32.minMax r.subn true (bits a) (bits b)) ∧
    w (.ffma q d a b c) (fp32.finish r (FpVal.fma r.rnd (v a) (v b) (v c))) ∧
    w (.ffms q d a b c) (fp32.finish r (FpVal.fma r.rnd (v a) (v b) (v c).neg)) ∧
    w (.fnma q d a b c) (fp32.finish r (FpVal.fma r.rnd (v a).neg (v b) (v c))) ∧
    Completes (.fabs q d a) s k ((k.cued q).t.setX d (BitVec.ofNat 32 (bits a % 2 ^ 31))) 4 ∧
    Completes (.fneg q d a) s k ((k.cued q).t.setX d (k.t.getX a ^^^ 0x80000000)) 4 ∧
    Completes (.fsgnj q d a b) s k ((k.cued q).t.setX d (BitVec.ofNat 32 (bits a % 2 ^ 31 + bits b / 2 ^ 31 * 2 ^ 31))) 4 ∧
    (CanRun s k false [.x (wideReg n), .x (wideReg m)] →
      let narrow (i : Instr) (e : Nat × Word) : Prop := CompletesFlags i s k (k.t.setX (wideReg n) (BitVec.ofNat 32 e.1)) 2 e.2
      let x := wideReg n
      let y := wideReg m
      narrow (.faddN n m) (fp32.finish r ((v x).add r.rnd (v y))) ∧
      narrow (.fsubN n m) (fp32.finish r ((v x).add r.rnd (v y).neg)) ∧
      narrow (.fmulN n m) (fp32.finish r ((v x).mul (v y))) ∧
      narrow (.fminN n m) (fp32.minMax r.subn false (bits x) (bits y)) ∧
      narrow (.fmaxN n m) (fp32.minMax r.subn true (bits x) (bits y)))

/-- The invalid operations of R186 and the sign of an exact zero sum, in every format, under every rounding: ∞ − ∞, 0 × ∞, the
fused 0 × ∞ + c whatever c is, and a signalling NaN operand give the canonical NaN and NV; a quiet NaN gives it with no flag; an
exact zero sum of operands of opposite sign is −0 toward −∞, and else +0. -/
def Sys2Proof.Claims.InvalidOperations : Prop :=
  ∀ (f : Fmt) (r : Rnd) (n : Bool) (e : Int) (x : FpVal),
    let inv (v : Exact) : Prop := f.finish r v = (f.nan, fNV)
    inv ((FpVal.inf n).add r.rnd (.inf !n)) ∧
    inv ((FpVal.fin n 0 e).mul (.inf n)) ∧ inv ((FpVal.inf n).mul (.fin n 0 e)) ∧
    inv (FpVal.fma r.rnd (.fin n 0 e) (.inf n) x) ∧ inv (FpVal.fma r.rnd (.inf n) (.fin n 0 e) x) ∧
    inv ((FpVal.nan true).add r.rnd x) ∧ inv (x.add r.rnd (.nan true)) ∧ inv ((FpVal.nan true).mul x) ∧ inv (x.mul (.nan true)) ∧
    (x.isSig = false → f.finish r ((FpVal.nan false).add r.rnd x) = (f.nan, 0) ∧ f.finish r (x.mul (.nan false)) = (f.nan, 0)) ∧
    (∀ (m : Nat), f.finish r ((FpVal.fin n m e).add r.rnd (.fin (!n) m e)) = (f.zero (r.rnd == 2), 0))

/-- The value ±m × 2^e as a count of 2^e0, where e0 is at or below e. -/
def Sys2Proof.Machine.unitsAt (n : Bool) (m : Nat) (e e0 : Int) : Int := (if n then -1 else 1) * (m : Int) * 2 ^ (e - e0).toNat

/-- One value that is no NaN stands below another in the order of R89, in which −0 is below +0. -/
def Sys2Proof.Machine.FpVal.Below (x y : FpVal) : Prop :=
  match x, y with
  | .inf a, .inf b => a = true ∧ b = false
  | .inf a, .fin _ _ _ => a = true
  | .fin _ _ _, .inf b => b = false
  | .fin n m e, .fin n' m' e' =>
    (∀ e0, e0 ≤ e → e0 ≤ e' → unitsAt n m e e0 < unitsAt n' m' e' e0) ∨ (m = 0 ∧ m' = 0 ∧ n = true ∧ n' = false)
  | _, _ => False

/-- Addition, multiplication and the fused operation of two values that are no NaN are exact (R186 to R188): the sum, the product,
and the product plus the addend, whatever unit they are counted in; an infinity stays one. -/
def Sys2Proof.Claims.ExactArithmetic : Prop :=
  ∀ (r : Nat) (n1 n2 n3 : Bool) (m1 m2 m3 : Nat) (e1 e2 e3 : Int),
    let x := FpVal.fin n1 m1 e1
    let y := FpVal.fin n2 m2 e2
    let z := FpVal.fin n3 m3 e3
    (∃ n m e, x.add r y = .val (.fin n m e) ∧ (m1 = 0 → m2 = 0 → n1 = n2 → n = n1) ∧
      ∀ e0, e0 ≤ e → e0 ≤ e1 → e0 ≤ e2 → unitsAt n m e e0 = unitsAt n1 m1 e1 e0 + unitsAt n2 m2 e2 e0) ∧
    (∃ m e, x.mul y = .val (.fin (n1 != n2) m e) ∧
      ∀ a b, a ≤ e1 → b ≤ e2 → a + b ≤ e → unitsAt (n1 != n2) m e (a + b) = unitsAt n1 m1 e1 a * unitsAt n2 m2 e2 b) ∧
    (∃ n m e, FpVal.fma r x y z = .val (.fin n m e) ∧
      ∀ a b, a ≤ e1 → b ≤ e2 → a + b ≤ e → a + b ≤ e3 →
        unitsAt n m e (a + b) = unitsAt n1 m1 e1 a * unitsAt n2 m2 e2 b + unitsAt n3 m3 e3 (a + b)) ∧
    (FpVal.inf n1).add r y = .val (.inf n1) ∧ y.add r (.inf n1) = .val (.inf n1) ∧ (FpVal.inf n1).add r (.inf n1) = .val (.inf n1) ∧
    (FpVal.inf n1).mul (.inf n2) = .val (.inf (n1 != n2)) ∧
    (m2 ≠ 0 → (FpVal.inf n1).mul y = .val (.inf (n1 != n2)) ∧ y.mul (.inf n1) = .val (.inf (n1 != n2)))

/-- FMIN and FMAX (R89, R91): the lower and the higher operand with −0 below +0, a subnormal that is read as zero as a zero of its sign;
the other operand beside one NaN, the canonical NaN for two, and NV for a signalling one. -/
def Sys2Proof.Claims.MinimumMaximum : Prop :=
  ∀ (f : Fmt), f = fp32 ∨ f = fp16 ∨ f = bf16 ∨ f = fp64 → ∀ (subn : Bool) (a b : Nat), a < 2 ^ (1 + f.eb + f.fb) → b < 2 ^ (1 + f.eb + f.fb) →
    let x := f.read subn a
    let y := f.read subn b
    let nv := if x.isSig || y.isSig then fNV else 0
    let held (w : Nat) : Nat := if subn = true ∧ w / 2 ^ f.fb % 2 ^ f.eb = 0 then w / 2 ^ (f.eb + f.fb) * 2 ^ (f.eb + f.fb) else w
    let both (lo hi : Nat) : Prop := f.minMax subn false a b = (lo, nv) ∧ f.minMax subn true a b = (hi, nv)
    (x.isNan = true → y.isNan = true → both f.nan f.nan) ∧
    (x.isNan = true → y.isNan = false → both (held b) (held b)) ∧
    (x.isNan = false → y.isNan = true → both (held a) (held a)) ∧
    (x.isNan = false → y.isNan = false →
      (x.Below y → both (held a) (held b)) ∧ (y.Below x → both (held b) (held a)) ∧
      (¬x.Below y → ¬y.Below x → both (held a) (held a)))

/-- The packed operations (R87, R189, R190): each half of a word by itself, in FP16 or BF16, by that format's bits of MODE; the
flags of both halves are set. -/
def Sys2Proof.Claims.PackedResults : Prop :=
  ∀ (q : Bool) (d a b c : BitVec 6) (s : State) (k : Ctx), CanRun s k q [.x a, .x b, .x c, .x d] →
    let lo (x : BitVec 6) : Nat := (k.t.getX x).toNat % 65536
    let hi (x : BitVec 6) : Nat := (k.t.getX x).toNat / 65536
    let w (i : Instr) (e : (BitVec 6 → Nat) → Nat × Word) : Prop :=
      CompletesFlags i s k ((k.cued q).t.setX d (BitVec.ofNat 32 ((e lo).1 + 65536 * (e hi).1))) 4 ((e lo).2 ||| (e hi).2)
    let h := modeF16 k.crew.mode
    let g := modeB16 k.crew.mode
    let sum (f : Fmt) (r : Rnd) (p : BitVec 6 → Nat) := f.finish r ((f.read r.subn (p a)).add r.rnd (f.read r.subn (p b)))
    let dif (f : Fmt) (r : Rnd) (p : BitVec 6 → Nat) := f.finish r ((f.read r.subn (p a)).add r.rnd (f.read r.subn (p b)).neg)
    let prod (f : Fmt) (r : Rnd) (p : BitVec 6 → Nat) := f.finish r ((f.read r.subn (p a)).mul (f.read r.subn (p b)))
    let fused (f : Fmt) (r : Rnd) (p : BitVec 6 → Nat) :=
      f.finish r (FpVal.fma r.rnd (f.read r.subn (p a)) (f.read r.subn (p b)) (f.read r.subn (p c)))
    w (.hadd2 q d a b) (sum fp16 h) ∧ w (.hsub2 q d a b) (dif fp16 h) ∧ w (.hmul2 q d a b) (prod fp16 h) ∧
    w (.hmin2 q d a b) (fun p => fp16.minMax h.subn false (p a) (p b)) ∧
    w (.hmax2 q d a b) (fun p => fp16.minMax h.subn true (p a) (p b)) ∧
    w (.hfma2 q d a b c) (fused fp16 h) ∧
    w (.badd2 q d a b) (sum bf16 g) ∧ w (.bsub2 q d a b) (dif bf16 g) ∧ w (.bmul2 q d a b) (prod bf16 g) ∧
    w (.bmin2 q d a b) (fun p => bf16.minMax g.subn false (p a) (p b)) ∧
    w (.bmax2 q d a b) (fun p => bf16.minMax g.subn true (p a) (p b)) ∧
    w (.bfma2 q d a b c) (fused bf16 g)

/-- FCMP (R191): every code is a condition of the operands as FP32 reads them under SUBN; a NaN makes it false, but for NE and
UN; NV is set for a signalling NaN, and by LT, LE, GT and GE for any NaN. -/
def Sys2Proof.Claims.FloatCompareResults : Prop :=
  ∀ (q : Bool) (kd c : BitVec 3) (a b : BitVec 6) (s : State) (k : Ctx), CanRun s k q [.x a, .x b, .k kd] →
    let x := fp32.read (modeSubn k.crew.mode) (k.t.getX a).toNat
    let y := fp32.read (modeSubn k.crew.mode) (k.t.getX b).toNat
    let un := x.isNan || y.isNan
    let less := x.lt false y
    let more := y.lt false x
    let v := match c.toNat with
      | 0 => !un && !less && !more | 1 => un || less || more | 2 => !un && less | 3 => !un && !more
      | 4 => !un && more | 5 => !un && !less | 6 => un | _ => !un
    let nv := x.isSig || y.isSig || (un && decide (2 ≤ c.toNat) && decide (c.toNat ≤ 5))
    CompletesFlags (.fcmp q kd a b c) s k ((k.cued q).t.setK kd v) 4 (if nv then fNV else 0)

/-- FCVT (R91, R192, R193, R94): its four kinds of conversion between the formats of R112, from the selected half with H; SUBN reads a
subnormal as zero only where the result is a floating-point value; the codes and forms that R192 lists raise ILL. -/
def Sys2Proof.Claims.ConvertResults : Prop :=
  ∀ (q : Bool) (d a : BitVec 6) (t sx : BitVec 4) (h : Bool) (s : State) (k : Ctx), CanRun s k q [.x a, .x d] →
    let m := k.crew.mode
    let x := k.t.getX a
    let fl (c : Nat) : Prop := c = 1 ∨ c = 2 ∨ c = 3
    let int (c : Nat) : Prop := 8 ≤ c ∧ c ≤ 13
    let legal := (fl t.toNat ∨ int t.toNat) ∧ (fl sx.toNat ∨ int sx.toNat) ∧ t ≠ sx ∧
      (h = true → sx.toNat = 2 ∨ sx.toNat = 3 ∨ sx.toNat = 10 ∨ sx.toNat = 11)
    let sfmt := if sx.toNat = 1 then fp32 else if sx.toNat = 2 then fp16 else bf16
    let dfmt := if t.toNat = 1 then fp32 else if t.toNat = 2 then fp16 else bf16
    let dmode := if t.toNat = 1 then modeF32 m else if t.toNat = 2 then modeF16 m else modeB16 m
    let size (c : Nat) : Nat := if c = 8 ∨ c = 9 then 8 else if c = 1 ∨ c = 12 ∨ c = 13 then 32 else 16
    let src := (if h then x.toNat / 65536 else x.toNat) % 2 ^ size sx.toNat
    let signed (c : Nat) : Bool := c == 8 || c == 10 || c == 12
    let isrc : Int := if signed sx.toNat && decide (2 ^ (size sx.toNat - 1) ≤ src) then (src : Int) - 2 ^ size sx.toNat else src
    let val := sfmt.read (modeSubn m) src
    let exact := sfmt.read false src
    let lo : Int := if signed t.toNat then -2 ^ (size t.toNat - 1) else 0
    let hi : Int := if signed t.toNat then 2 ^ (size t.toNat - 1) - 1 else 2 ^ size t.toNat - 1
    let w (v : Word) (f : Word) : Prop := CompletesFlags (.fcvt q d a t sx h) s k ((k.cued q).t.setX d v) 4 f
    (¬legal → Faults (.fcvt q d a t sx h) s k .ill 0 0 .none) ∧
    (legal → fl sx.toNat → fl t.toNat →
      let e := dfmt.finish dmode (if val.isSig then .invalid else .val val)
      w (BitVec.ofNat 32 e.1) e.2) ∧
    (legal → fl sx.toNat → int t.toNat →
      (∀ sg, exact = .nan sg → w 0 fNV) ∧
      (∀ n, exact = .inf n → w (BitVec.ofInt 32 (if n then lo else hi)) fNV) ∧
      ∀ n y e, exact = .fin n y e →
        let z := roundInt (modeIntRnd m) n y e
        w (BitVec.ofInt 32 (max lo (min hi z.1))) (if z.1 < lo ∨ hi < z.1 then fNV else if z.2 then fNX else 0)) ∧
    (legal → int sx.toNat → fl t.toNat →
      let e := dfmt.round dmode (decide (isrc < 0)) isrc.natAbs 0
      w (BitVec.ofNat 32 e.1) e.2) ∧
    (legal → int sx.toNat → int t.toNat →
      (lo ≤ isrc → isrc ≤ hi → w (BitVec.ofInt 32 isrc) 0) ∧
      ((isrc < lo ∨ hi < isrc) → modeIntSat m = true → w (BitVec.ofInt 32 (max lo (min hi isrc))) fSAT) ∧
      ((isrc < lo ∨ hi < isrc) → modeIntSat m = false →
        ∃ v : Int, lo ≤ v ∧ v ≤ hi ∧ v % 2 ^ size t.toNat = isrc % 2 ^ size t.toNat ∧ w (BitVec.ofInt 32 v) 0))

/-- RCP to COS (R194, R119): the result is pending, its flags come with it, and it is `sfu` of the operand under the crew's MODE, which
gives every special value of the table of R119, EXP2's overflow among them: by R105, with OF and NX. The model's choice, not the
spec's: the values inside the stated bound are one uninterpreted function (log 20). -/
def Obligations.SpecialFunctionResults : Prop :=
  (∀ (q : Bool) (d a : BitVec 6) (s : State) (k : Ctx), CanRun s k q [.x a, .x d] →
    let w (i : Instr) (f : Sfu) : Prop :=
      let r := sfu f k.crew.mode (k.t.getX a)
      Completes i s k ((k.cued q).t.pending { dst := [(.x d, r.1)], flags := r.2 }) 4
    w (.rcp q d a) .rcp ∧ w (.rsq q d a) .rsq ∧ w (.sqrt q d a) .sqrt ∧ w (.exp2 q d a) .exp2 ∧ w (.log2 q d a) .log2 ∧
    w (.tanh q d a) .tanh ∧ w (.sin q d a) .sin ∧ w (.cos q d a) .cos) ∧
  ∀ (m x : Word),
    let v := fp32.read (modeSubn m) x.toNat
    let sign := x.getLsbD 31
    (∀ sg, v = .nan sg → ∀ f, sfu f m x = (0x7FC00000, if sg then fNV else 0)) ∧
    (∀ n e, v = .fin n 0 e →
      sfu .rcp m x = (if sign then 0xFF800000 else 0x7F800000, fDZ) ∧ sfu .rsq m x = (if sign then 0xFF800000 else 0x7F800000, fDZ) ∧
      sfu .sqrt m x = (if sign then 0x80000000 else 0, 0) ∧ sfu .log2 m x = (0xFF800000, fDZ) ∧
      sfu .tanh m x = (if sign then 0x80000000 else 0, 0) ∧ sfu .sin m x = (if sign then 0x80000000 else 0, 0) ∧
      sfu .cos m x = (0x3F800000, 0)) ∧
    (x = 0x7F800000 → sfu .rcp m x = (0, 0) ∧ sfu .rsq m x = (0, 0) ∧ sfu .sqrt m x = (x, 0) ∧ sfu .log2 m x = (x, 0) ∧
      sfu .exp2 m x = (x, 0) ∧ sfu .tanh m x = (0x3F800000, 0) ∧ sfu .sin m x = (0x7FC00000, fNV) ∧ sfu .cos m x = (0x7FC00000, fNV)) ∧
    (x = 0xFF800000 → sfu .rcp m x = (0x80000000, 0) ∧ sfu .exp2 m x = (0, 0) ∧ sfu .tanh m x = (0xBF800000, 0) ∧
      sfu .sin m x = (0x7FC00000, fNV) ∧ sfu .cos m x = (0x7FC00000, fNV)) ∧
    (sign = true → v.isNan = false → (∀ n e, v ≠ .fin n 0 e) →
      sfu .rsq m x = (0x7FC00000, fNV) ∧ sfu .sqrt m x = (0x7FC00000, fNV) ∧ sfu .log2 m x = (0x7FC00000, fNV)) ∧
    sfu .log2 m 0x3F800000 = (0, 0) ∧
    (0x43000000 ≤ x.toNat → x.toNat < 0x7F800000 →
      let r := modeF32 m
      sfu .exp2 m x = if r.rnd = 1 ∨ r.rnd = 2 then (0x7F7FFFFF, fOF ||| fNX)
        else if r.sat then (0x7F7FFFFF, fOF ||| fNX ||| fSAT) else (0x7F800000, fOF ||| fNX))

/-- The extended registers (R109, R110, R195, R196): the chain operations round by nearest-even to binary64 with STEP = 0, and by
FP32's bits of MODE with STEP = 1; FFMA.E rounds once; ERND rounds once to FP32, FP16 or BF16 and raises ILL for another code; EGET
and ESET move bits. -/
def Sys2Proof.Claims.ChainResults : Prop :=
  ∀ (q : Bool) (d a b : BitVec 2) (x y z : BitVec 6) (p : BitVec 5) (s : State) (k : Ctx),
    CanRun s k q [.x x, .x y, .x (evenReg p), .x (oddReg p)] →
    let m := k.crew.mode
    let gx (r : BitVec 6) := chainX m (k.t.getX r)
    let ge (r : BitVec 2) := chainE m (k.t.getE r)
    let rz := if modeStep m then (modeF32 m).rnd else 0
    let w (i : Instr) (v : Exact) : Prop :=
      (modeStep m = false → CompletesFlags i s k ((k.cued q).t.setE d (BitVec.ofNat 64 (fp64.finish ⟨0, false, false⟩ v).1)) 4
        (fp64.finish ⟨0, false, false⟩ v).2) ∧
      (modeStep m = true → CompletesFlags i s k ((k.cued q).t.setE d (chain m v).1) 4 (fp32.finish (modeF32 m) v).2)
    w (.faddE q d a x) ((ge a).add rz (gx x)) ∧
    w (.fmulE q d x y) ((gx x).mul (gx y)) ∧
    w (.ffmaE q d x y) (FpVal.fma rz (gx x) (gx y) (ge d)) ∧
    w (.eadd q d a b) ((ge a).add rz (ge b)) ∧
    w (.efrom q d x) (if (gx x).isSig then .invalid else .val (gx x)) ∧
    (let v := fp64.read (modeSubn m) (k.t.getE a).toNat
     let r := if z = 1 then modeF32 m else if z = 2 then modeF16 m else modeB16 m
     let e := (if z = 1 then fp32 else if z = 2 then fp16 else bf16).finish r (if v.isSig then .invalid else .val v)
     (1 ≤ z.toNat → z.toNat ≤ 3 → CompletesFlags (.ernd q x a z) s k ((k.cued q).t.setX x (BitVec.ofNat 32 e.1)) 4 e.2)) ∧
    ((z = 0 ∨ 3 < z.toNat) → Faults (.ernd q x a z) s k .ill 0 0 .none) ∧
    Completes (.eget q p a) s k
      (((k.cued q).t.setX (evenReg p) ((k.t.getE a).setWidth 32)).setX (oddReg p) ((k.t.getE a >>> 32).setWidth 32)) 4 ∧
    Completes (.eset q d p) s k ((k.cued q).t.setE d (k.t.getX (oddReg p) ++ k.t.getX (evenReg p))) 4

/-- With STEP = 1 a chain operation holds, as binary64, exactly the FP32 value that the lane instruction would round to (R109): FP32's
rounding of the same exact result, whatever it is. -/
def Sys2Proof.Claims.ChainStepIsLane : Prop :=
  ∀ (m : Word) (v : Exact), modeStep m = true → (ernd 0 1 (chain m v).1).1 = BitVec.ofNat 32 (fp32.finish (modeF32 m) v).1

/-- The dot products (R92, R93, R113, R197): the exact sum of x[d] and every product, narrowed once: clamped with SAT under INTSAT,
else modulo 2^32. -/
def Sys2Proof.Claims.DotResults : Prop :=
  ∀ (q : Bool) (d a b : BitVec 6) (s : State) (k : Ctx), CanRun s k q [.x d, .x a, .x b] →
    let sat := modeIntSat k.crew.mode
    let x := k.t.getX a
    let y := k.t.getX b
    let z := k.t.getX d
    let sb (v : Word) (i : Nat) : Int := (v.extractLsb' (8 * i) 8).toInt
    let ub (v : Word) (i : Nat) : Int := (v.extractLsb' (8 * i) 8).toNat
    let sh (v : Word) (i : Nat) : Int := (v.extractLsb' (16 * i) 16).toInt
    let w (i : Instr) (t lo hi : Int) : Prop :=
      (sat = true → CompletesFlags i s k ((k.cued q).t.setX d (BitVec.ofInt 32 (max lo (min hi t)))) 4
        (if t < lo ∨ hi < t then fSAT else 0)) ∧
      (sat = false → CompletesFlags i s k ((k.cued q).t.setX d (BitVec.ofInt 32 t)) 4 0)
    w (.dot4 q d a b) (z.toInt + (sb x 0 * sb y 0 + sb x 1 * sb y 1 + sb x 2 * sb y 2 + sb x 3 * sb y 3)) (-2 ^ 31) (2 ^ 31 - 1) ∧
    w (.dot4u q d a b) (z.toNat + (ub x 0 * ub y 0 + ub x 1 * ub y 1 + ub x 2 * ub y 2 + ub x 3 * ub y 3)) 0 (2 ^ 32 - 1) ∧
    w (.dot4su q d a b) (z.toInt + (sb x 0 * ub y 0 + sb x 1 * ub y 1 + sb x 2 * ub y 2 + sb x 3 * ub y 3)) (-2 ^ 31) (2 ^ 31 - 1) ∧
    w (.dot2h q d a b) (z.toInt + (sh x 0 * sh y 0 + sh x 1 * sh y 1)) (-2 ^ 31) (2 ^ 31 - 1)

/-- RNDM and RNDM4 (R202): Philox4x32-10 of the index pair, the stream and the crew's key; the result is pending. A round maps the
counter as the rule writes it, and no round leaves it. -/
def Sys2Proof.Claims.RandomResults : Prop :=
  (∀ (q : Bool) (d : BitVec 6) (e : BitVec 4) (a : BitVec 5) (b : BitVec 6) (n : BitVec 2) (s : State) (k : Ctx),
    CanRun s k q ([.x (evenReg a), .x (oddReg a), .x b, .x d] ++ (quadRegs e).map Dst.x) →
    let c := philox ⟨(k.t.getX (evenReg a)).toNat, (k.t.getX (oddReg a)).toNat, (k.t.getX b).toNat, 0⟩ k.crew.key0.toNat
      k.crew.key1.toNat 10
    let v (i : Nat) : Word := BitVec.ofNat 32 (match i with | 0 => c.c0 | 1 => c.c1 | 2 => c.c2 | _ => c.c3)
    Completes (.rndm q d a b n) s k ((k.cued q).t.pending { dst := [(.x d, v n.toNat)] }) 4 ∧
    Completes (.rndm4 q e a b) s k ((k.cued q).t.pending
      { dst := [(.x (e ++ 0#2), v 0), (.x (e ++ 1#2), v 1), (.x (e ++ 2#2), v 2), (.x (e ++ 3#2), v 3)] }) 4) ∧
  ∀ (c : Ph) (k0 k1 n : Nat),
    philox c k0 k1 0 = c ∧
    let p := 0xD2511F53 * c.c0
    let q := 0xCD9E8D57 * c.c2
    philox c k0 k1 (n + 1) = philox ⟨(q / 2 ^ 32) ^^^ c.c1 ^^^ k0, q % 2 ^ 32, (p / 2 ^ 32) ^^^ c.c3 ^^^ k1, p % 2 ^ 32⟩
      ((k0 + 0x9E3779B9) % 2 ^ 32) ((k1 + 0xBB67AE85) % 2 ^ 32) n

/-- Rounding a finite value that a format holds gives back its encoding with no flag, under every rounding code (R86, R90). -/
def Sys2Proof.Claims.RoundExact : Prop :=
  ∀ (f : Fmt), f = fp32 ∨ f = fp16 ∨ f = bf16 ∨ f = fp64 → ∀ (r : Rnd) (w : Nat), w < 2 ^ (1 + f.eb + f.fb) →
    r.subn = false → ∀ (n : Bool) (m : Nat) (e : Int), f.read false w = .fin n m e → f.round r n m e = (w, 0)

/-- Rounding a nonzero value to a format (R90, R104, R105): the magnitude becomes `q` units of the last place `qe`, where `q` is a
neighbour of the exact count, on the side that the rounding code names, the nearer one by nearest-even, and the even one of two
equally near; the encoding reads back as that value; and past the largest finite magnitude the result is as R105 says. -/
def Sys2Proof.Claims.RoundResult : Prop :=
  (∀ (code : Nat) (neg : Bool) (m : Nat) (e qe : Int), code < 4 → e < qe →
    let ulp := 2 ^ (qe - e).toNat
    let q := quantise code neg m e qe
    (m % ulp = 0 → q = (m / ulp, false)) ∧
    (m % ulp ≠ 0 → q.2 = true ∧ q.1 * ulp < m + ulp ∧ m < q.1 * ulp + ulp ∧
      (code = 0 → 2 * m ≤ 2 * (q.1 * ulp) + ulp ∧ 2 * (q.1 * ulp) ≤ 2 * m + ulp ∧ (2 * (m % ulp) = ulp → q.1 % 2 = 0)) ∧
      (code = 1 → q.1 * ulp < m) ∧ (code = 2 → (q.1 * ulp < m ↔ neg = false)) ∧ (code = 3 → (q.1 * ulp < m ↔ neg = true)))) ∧
  ∀ (f : Fmt), f = fp32 ∨ f = fp16 ∨ f = bf16 ∨ f = fp64 → ∀ (r : Rnd) (neg : Bool) (m : Nat) (e : Int),
    r.subn = false → r.rnd < 4 → m ≠ 0 →
    let qe := max (e + Nat.log2 m - f.fb) (1 - f.bias - f.fb)
    let q := (quantise r.rnd neg m e qe).1
    (q < 2 ^ (f.fb + 1) → qe + f.fb ≤ f.bias → f.read false (f.round r neg m e).1 = .fin neg q qe) ∧
    (2 ^ f.fb ≤ q → q < 2 ^ (f.fb + 1) → f.bias < qe + f.fb →
      let away := r.rnd = 0 ∨ (r.rnd = 2 ∧ neg = true) ∨ (r.rnd = 3 ∧ neg = false)
      f.round r neg m e =
        if away then (if r.sat then (f.inf neg - 1, fOF ||| fNX ||| fSAT) else (f.inf neg, fOF ||| fNX))
        else (f.inf neg - 1, fOF ||| fNX))

/-- The FP32 lane operations round the exact result once, with its flags: `FloatResults`, `InvalidOperations`, `ExactArithmetic` and
`MinimumMaximum`. -/
def Obligations.FloatResults : Prop :=
  Sys2Proof.Claims.FloatResults ∧ Sys2Proof.Claims.InvalidOperations ∧ Sys2Proof.Claims.ExactArithmetic ∧ Sys2Proof.Claims.MinimumMaximum

/-- The packed, dot-product and random operations complete with their values: `PackedResults`, `DotResults` and `RandomResults`. -/
def Obligations.PackedResults : Prop :=
  Sys2Proof.Claims.PackedResults ∧ Sys2Proof.Claims.DotResults ∧ Sys2Proof.Claims.RandomResults

/-- FCVT and FCMP complete with their values and flags: `ConvertResults` and `FloatCompareResults`. -/
def Obligations.ConvertResults : Prop :=
  Sys2Proof.Claims.ConvertResults ∧ Sys2Proof.Claims.FloatCompareResults

/-- The extended registers chain as their rules say, and with STEP as the lane would: `ChainResults` and `ChainStepIsLane`. The model's
choice, not the spec's: ERND reads a subnormal as zero under SUBN (log 19). -/
def Obligations.ChainResults : Prop :=
  Sys2Proof.Claims.ChainResults ∧ Sys2Proof.Claims.ChainStepIsLane

/-- Rounding to a format takes the neighbour that the rounding code names: `RoundExact` and `RoundResult`. -/
def Obligations.Rounding : Prop :=
  Sys2Proof.Claims.RoundExact ∧ Sys2Proof.Claims.RoundResult

/-! ### Special registers -/

/-- MFS (R135 to R139, R182): the value of every special register below 0x800, zero-extended; OUTBASE to a pair; RETIRED latches its
high word for RETIREDH; and reading changes nothing else. In ORDERED mode a read of CNTS waits while an operation of class LD or ST
of its crew is outstanding (R356). -/
def Sys2Proof.Claims.SpecialReads : Prop :=
  ∀ (q : Bool) (d : BitVec 6) (e : BitVec 5) (s : State) (k : Ctx), CanRun s k q [.x d, .x (evenReg e), .x (oddReg e)] →
    let desc := k.c.desc
    let n (i : Nat) : Nat := byteN desc (16 + 2 * i) 2
    let w := k.c.crew (k.r.t / 32)
    let open_ (c : OpClass) : Nat := (w.ops.filter (fun o => o.cls == c)).length % 64
    let clk : DWord := if descDet desc = 0 then (look s.clks (k.c.plot / 4)).getD 0 else if descDet desc = 1 then k.c.clk else k.t.retired
    let table : List (BitVec 12 × Nat) :=
      [(0x000#12, k.r.t % 32), (0x001#12, k.r.t / 32), (0x002#12, k.c.ix % n 0), (0x003#12, k.c.ix / n 0 % n 1), (0x004#12, k.c.ix / n 0 / n 1),
       (0x005#12, n 0), (0x006#12, n 1), (0x007#12, n 2), (0x008#12, keyLevel k.t.key (k.t.dep.toNat - 1)), (0x009#12, k.t.dep.toNat),
       (0x00A#12, k.t.key.toNat / 2 ^ 96), (0x00B#12, k.t.key.toNat / 2 ^ 64), (0x00C#12, k.t.key.toNat / 2 ^ 32), (0x00D#12, k.t.key.toNat),
       (0x00E#12, k.t.meet.toNat), (0x00F#12, k.t.cmask.toNat), (0x010#12, w.mode.toNat), (0x011#12, w.flags.toNat),
       (0x012#12, open_ .ld + 2 ^ 6 * open_ .st + 2 ^ 12 * open_ .cp + 2 ^ 18 * open_ .mx),
       (0x014#12, k.t.lc[0].toNat), (0x015#12, k.t.lc[1].toNat), (0x016#12, k.t.lc[2].toNat), (0x018#12, clk.toNat),
       (0x01A#12, k.t.retLatch.toNat), (0x01C#12, w.outl.toNat), (0x01D#12, w.outlh.toNat), (0x020#12, w.key0.toNat), (0x021#12, w.key1.toNat),
       (0x024#12, (s.plot k.c.plot).mxseq.toNat), (0x025#12, s.relPlot k.c.al k.c.plot), (0x026#12, descSlots desc), (0x027#12, descDet desc),
       (0x028#12, 32768 * descScnt desc), (0x029#12, (s.plot k.c.plot).proms.toNat), (0x041#12, k.c.committed)]
    let waits (n : BitVec 12) : Prop := n = 0x012 ∧ descDet desc = 1 ∧ ∃ o ∈ w.ops, o.cls = .ld ∨ o.cls = .st
    (∀ r ∈ table, ¬waits r.1 → Completes (.mfs q d r.1) s k ((k.cued q).t.setX d (BitVec.ofNat 32 r.2)) 4) ∧
    (waits 0x012 → exec (.mfs q d 0x012) s = .next (s.setThread k.r { (k.cued q).t with st := .blocked .issue })) ∧
    Completes (.mfs q d 0x019) s k
      { (k.cued q).t.setX d (k.t.retired.setWidth 32) with retLatch := (k.t.retired >>> 32).setWidth 32 } 4 ∧
    let out : DWord := BitVec.ofNat 64 (byteN desc 48 8 + k.c.ix * byteN desc 36 4)
    Completes (.mfs q (evenReg e) 0x040) s k
      (((k.cued q).t.setX (evenReg e) (out.setWidth 32)).setX (oddReg e) ((out >>> 32).setWidth 32)) 4

/-- MTS (R104, R107, R140, R183, R184): MEET and CMASK of the thread; COUNT alone of a loop counter; MODE and FLAGS without their
reserved bits, OUTL, OUTLH, KEY0 and KEY1 of the thread's crew. -/
def Sys2Proof.Claims.SpecialWrites : Prop :=
  ∀ (q : Bool) (a : BitVec 6) (s : State) (k : Ctx), CanRun s k q [.x a] →
    let v := k.t.getX a
    let t := (k.cued q).t
    let loop (l : Word) : Word := BitVec.ofNat 32 (l.toNat / 65536 * 65536 + v.toNat % 65536)
    let crew (n : BitVec 12) (f : Crew → Crew) : Prop := exec (.mts q a n) s =
      .next ((retire s k t (k.after 4) false).onCast k.r.c (fun c => c.onCrew (k.r.t / 32) f))
    Completes (.mts q a 0x00E) s k { t with meet := v } 4 ∧
    Completes (.mts q a 0x00F) s k { t with cmask := v } 4 ∧
    Completes (.mts q a 0x014) s k { t with lc := t.lc.set 0 (loop t.lc[0]) } 4 ∧
    Completes (.mts q a 0x015) s k { t with lc := t.lc.set 1 (loop t.lc[1]) } 4 ∧
    Completes (.mts q a 0x016) s k { t with lc := t.lc.set 2 (loop t.lc[2]) } 4 ∧
    crew 0x010 (fun w => { w with mode := BitVec.ofNat 32 (v.toNat % 2 ^ 23) }) ∧
    crew 0x011 (fun w => { w with flags := BitVec.ofNat 32 (v.toNat % 2 ^ 7) }) ∧
    crew 0x01C (fun w => { w with outl := v }) ∧
    crew 0x01D (fun w => { w with outlh := v }) ∧
    crew 0x020 (fun w => { w with key0 := v }) ∧
    crew 0x021 (fun w => { w with key1 := v })

/-- The special-register numbers that raise faults (R132, R135, R184): PRIV from 0x800 on, for MFS and MTS alike; ILL for a number
below 0x800 that the table of R135 does not list, for OUTBASE to an odd register, and for MTS to a register that is not RW. -/
def Sys2Proof.Claims.SpecialFaults : Prop :=
  ∀ (q : Bool) (r : BitVec 6) (n : BitVec 12) (s : State) (k : Ctx), s.ctx = some k →
    let rw : List (BitVec 12) := [0x00E, 0x00F, 0x010, 0x011, 0x014, 0x015, 0x016, 0x01C, 0x01D, 0x020, 0x021]
    let ro : List (BitVec 12) := [0x000, 0x001, 0x002, 0x003, 0x004, 0x005, 0x006, 0x007, 0x008, 0x009, 0x00A, 0x00B, 0x00C, 0x00D,
      0x012, 0x018, 0x019, 0x01A, 0x024, 0x025, 0x026, 0x027, 0x028, 0x029, 0x040, 0x041]
    (0x800 ≤ n.toNat → Faults (.mfs q r n) s k .priv 0 0 .none ∧ Faults (.mts q r n) s k .priv 0 0 .none) ∧
    (n.toNat < 0x800 → n ∉ rw → Faults (.mts q r n) s k .ill 0 0 .none) ∧
    (n.toNat < 0x800 → n ∉ rw → n ∉ ro → Faults (.mfs q r n) s k .ill 0 0 .none) ∧
    (r.toNat % 2 = 1 → Faults (.mfs q r 0x040) s k .ill 0 0 .none)

/-! ### Every instruction word -/

/-- x0 and k0 (R14): they read as 0 and 1, a write to them changes nothing of the thread, the low word of pair a0 reads as 0 and
discards its writes, and another register holds what was written. -/
def Sys2Proof.Claims.ZeroRegisters : Prop :=
  ∀ (t : Thread) (v : Word) (b : Bool) (d : DWord) (r u : BitVec 6) (p j : BitVec 3),
    t.getX 0 = 0 ∧ t.getK 0 = true ∧ t.setX 0 v = t ∧ t.setK 0 b = t ∧
    (r ≠ 0 → (t.setX r v).getX r = v) ∧ (u ≠ r → (t.setX r v).getX u = t.getX u) ∧
    (p ≠ 0 → (t.setK p b).getK p = b) ∧ (j ≠ p → (t.setK p b).getK j = t.getK j) ∧
    (t.getA 0).toNat % 2 ^ 32 = 0 ∧ (t.setA 0 d).getA 0 = BitVec.ofNat 64 (d.toNat / 2 ^ 32 * 2 ^ 32) ∧
    (∀ a : BitVec 5, a ≠ 0 → (t.setA a d).getA a = d)

/-- A word that R126 and R132 call illegal raises ILL before anything else, whatever Q and its operands are (R133): it is an
instruction word whose fields the encoding admits and which is not well-formed. -/
def Sys2Proof.Claims.IllegalWords : Prop :=
  ∀ (i : Instr) (n w : Nat) (s : State) (k : Ctx), s.ctx = some k → encode i = some (n, w) → i.wf = false →
    (∀ q r sx, i = .mfs q r sx ∨ i = .mts q r sx → sx.toNat < 0x800) → Faults i s k .ill 0 0 .none

/-- The permanently undefined word (R131): every 32-bit word with major 0x00 decodes to ILL, whatever bits [31:8] and Q hold, and ILL
raises ILL, whatever else the state of its thread is; the mnemonic assembles to 0x0000_0001. -/
def Obligations.IllWord : Prop :=
  (∀ (q : Bool) (u : BitVec 24), decodeNat (u.toNat * 256 + (if q then 2 else 0) + 1) = .ok (.ill q u)) ∧
  encode (.ill false 0) = some (32, 0x00000001) ∧
  ∀ (q : Bool) (u : BitVec 24) (s : State) (k : Ctx), s.ctx = some k → Faults (.ill q u) s k .ill 0 0 .none

/-- Every special register reads and writes as its row says; x0 and k0 are constant: `SpecialReads`, `SpecialWrites` and
`ZeroRegisters`. -/
def Obligations.SpecialRegisters : Prop :=
  Sys2Proof.Claims.SpecialReads ∧ Sys2Proof.Claims.SpecialWrites ∧ Sys2Proof.Claims.ZeroRegisters

/-- Illegal words raise ILL and privileged register numbers PRIV, before anything else: `IllegalWords` and `SpecialFaults`. -/
def Obligations.IllegalWords : Prop :=
  Sys2Proof.Claims.IllegalWords ∧ Sys2Proof.Claims.SpecialFaults

namespace Sys2Proof.Machine

/-- The Q bit of a word, the registers that it reads, and those that it writes, as its form and its description name them (R121 to
R128, R52); `lane` marks the words whose whole effect is on the registers of their thread and the flags of its crew. -/
structure Regs where
  q : Bool
  rd : List Dst
  wr : List Dst
  lane : Bool := false

end Sys2Proof.Machine

/-- The registers of the instruction words but BECOME, which waits for every result, and ILL. -/
def Sys2Proof.Instr.regs : Instr → Option Regs
  | .mov d a => some ⟨false, [.x (wideReg a)], [.x (wideReg d)], true⟩
  | .addN d a | .subN d a | .andN d a | .orN d a | .xorN d a | .shlN d a | .shrN d a | .mulN d a | .faddN d a | .fsubN d a
  | .fmulN d a | .fminN d a | .fmaxN d a => some ⟨false, [.x (wideReg d), .x (wideReg a)], [.x (wideReg d)], true⟩
  | .addi5 d _ => some ⟨false, [.x (wideReg d)], [.x (wideReg d)], true⟩
  | .movi5 d _ => some ⟨false, [], [.x (wideReg d)], true⟩
  | .add q d a b | .sub q d a b | .and q d a b | .or q d a b | .xor q d a b | .andn q d a b | .shl q d a b | .shr q d a b
  | .sra q d a b | .ror q d a b | .mul q d a b | .mulh q d a b | .mulhu q d a b | .mulhsu q d a b | .div q d a b | .divu q d a b
  | .rem q d a b | .remu q d a b | .min q d a b | .max q d a b | .minu q d a b | .maxu q d a b | .slt q d a b | .sltu q d a b
  | .fadd q d a b | .fsub q d a b | .fmul q d a b | .fmin q d a b | .fmax q d a b | .fsgnj q d a b
  | .hadd2 q d a b | .hsub2 q d a b | .hmul2 q d a b | .hmin2 q d a b | .hmax2 q d a b
  | .badd2 q d a b | .bsub2 q d a b | .bmul2 q d a b | .bmin2 q d a b | .bmax2 q d a b => some ⟨q, [.x a, .x b], [.x d], true⟩
  | .clz q d a | .popc q d a | .brev q d a | .fabs q d a | .fneg q d a | .rcp q d a | .rsq q d a | .sqrt q d a | .exp2 q d a
  | .log2 q d a | .tanh q d a | .sin q d a | .cos q d a => some ⟨q, [.x a], [.x d], true⟩
  | .addi q d a _ | .andi q d a _ | .ori q d a _ | .xori q d a _ | .shli q d a _ | .shri q d a _ | .srai q d a _ | .rori q d a _
  | .bfx q d a _ _ | .bfxS q d a _ _ | .fcvt q d a _ _ _ => some ⟨q, [.x a], [.x d], true⟩
  | .lui q d _ | .luiZ q d _ | .luiS q d _ | .kpack q d => some ⟨q, [], [.x d], true⟩
  | .luiLo q d _ => some ⟨q, [.x d], [.x d], true⟩
  | .bfi q d a _ _ => some ⟨q, [.x d, .x a], [.x d], true⟩
  | .cmp q kd a b _ | .fcmp q kd a b _ => some ⟨q, [.x a, .x b], [.k kd], true⟩
  | .cmpi q kd _ a _ => some ⟨q, [.x a], [.k kd], true⟩
  | .sel q d a b p => some ⟨q, [.x a, .x b, .k p], [.x d], true⟩
  | .kand q d a b | .kor q d a b | .kxor q d a b | .kandn q d a b | .korn q d a b => some ⟨q, [.k a, .k b], [.k d], true⟩
  | .knot q d a => some ⟨q, [.k a], [.k d], true⟩
  | .ktox q d a => some ⟨q, [.k a], [.x d], true⟩
  | .xtok q d a => some ⟨q, [.x a], [.k d], true⟩
  | .kunpk q a => some ⟨q, [.x a], [.k 1, .k 2, .k 3, .k 4, .k 5, .k 6, .k 7], true⟩
  | .adda q d a b _ => some ⟨q, pairDst a ++ [.x b], pairDst d, true⟩
  | .addai q d a _ => some ⟨q, pairDst a, pairDst d, true⟩
  | .ffma q d a b c | .ffms q d a b c | .fnma q d a b c | .hfma2 q d a b c | .bfma2 q d a b c =>
    some ⟨q, [.x a, .x b, .x c], [.x d], true⟩
  | .dot4 q d a b | .dot4u q d a b | .dot4su q d a b | .dot2h q d a b => some ⟨q, [.x d, .x a, .x b], [.x d], true⟩
  | .rndm q d a b _ => some ⟨q, [.x (evenReg a), .x (oddReg a), .x b], [.x d], true⟩
  | .rndm4 q d a b => some ⟨q, [.x (evenReg a), .x (oddReg a), .x b], (quadRegs d).map Dst.x, true⟩
  | .nop q => some ⟨q, [], [], true⟩
  | .ernd q d _ _ => some ⟨q, [], [.x d], false⟩
  | .faddE q _ _ b | .efrom q _ b => some ⟨q, [.x b], [], false⟩
  | .fmulE q _ a b | .ffmaE q _ a b => some ⟨q, [.x a, .x b], [], false⟩
  | .eadd q _ _ _ => some ⟨q, [], [], false⟩
  | .eget q d _ => some ⟨q, [], [.x (evenReg d), .x (oddReg d)], false⟩
  | .eset q _ a => some ⟨q, [.x (evenReg a), .x (oddReg a)], [], false⟩
  | .br q p _ _ => some ⟨q, [.k p], [], false⟩
  | .jmp q _ | .meet q _ | .yield q | .trap q _ | .brk q _ | .waitc q _ _ _ _ _ => some ⟨q, [], [], false⟩
  | .call q _ => some ⟨q, [], pairDst 31, false⟩
  | .jr q a => some ⟨q, pairDst a, [], false⟩
  | .ret q => some ⟨q, pairDst 31, [], false⟩
  | .callr q a => some ⟨q, pairDst a, pairDst 31, false⟩
  | .loop q _ a _ | .mts q a _ | .barArrive q _ a | .barWait q _ a | .barSync q _ a => some ⟨q, [.x a], [], false⟩
  | .mfs q d n => some ⟨q, [], if n = 0x040 then [.x d, .x (d + 1)] else [.x d], false⟩
  | .voteBal q d a => some ⟨q, [.k a], [.x d], false⟩
  | .voteAny q d a | .voteAll q d a => some ⟨q, [.k a], [.k d], false⟩
  | .shflIdx q d a b | .shflUp q d a b | .shflDn q d a b | .shflXor q d a b => some ⟨q, [.x a, .x b], [.x d], false⟩
  | .cred q d a _ | .cscan q d a _ | .cscanx q d a _ | .bunpk q d a _ | .mxr q d a _ | .mxrn q d a _ => some ⟨q, [.x a], [.x d], false⟩
  | .bpack q d a b _ | .bpackFx q d a b _ => some ⟨q, [.x a] ++ pairDst b, [.x d], false⟩
  | .ld q d p _ z _ => some ⟨q, pairDst p, (dataRegs z d).map Dst.x, false⟩
  | .st q d p z _ => some ⟨q, pairDst p ++ (dataRegs z d).map Dst.x, [], false⟩
  | .lds q d p _ | .acqpAll q d p => some ⟨q, pairDst p, [.x d], false⟩
  | .ldsD q d p _ => some ⟨q, pairDst p, [.x (evenReg d), .x (oddReg d)], false⟩
  | .sts q d p _ => some ⟨q, pairDst p ++ [.x d], [], false⟩
  | .stsD q d p _ => some ⟨q, pairDst p ++ [.x (evenReg d), .x (oddReg d)], [], false⟩
  | .acqp q d p b | .waita q d p b _ _ => some ⟨q, pairDst p ++ [.x b], [.x d], false⟩
  | .atom q d p b _ o => some ⟨q, pairDst p ++ (if o = 10 then [.x b, .x (b + 1)] else [.x b]), [.x d], false⟩
  | .atomt q d p b _ => some ⟨q, pairDst p ++ pairDst b, [.x d], false⟩
  | .red q p b _ _ => some ⟨q, pairDst p ++ [.x b], [], false⟩
  | .emit q a b | .mxw q b a _ => some ⟨q, [.x a, .x b], [], false⟩
  | .cpy q d a => some ⟨q, pairDst d ++ pairDst a, [], false⟩
  | .cpys q d a b => some ⟨q, pairDst d ++ pairDst a ++ [.x b], [], false⟩
  | .slinv q a | .bind q a | .bindWb q a | .gstop q a => some ⟨q, pairDst a, [], false⟩
  | .mxc q d a b => some ⟨q, pairDst d ++ [.x a, .x b], [], false⟩
  | .rtake q d _ | .rtakeRes q d _ => some ⟨q, [], pairDst d, false⟩
  | .rgivePub q _ b | .rgiveRel q _ b => some ⟨q, pairDst b, [], false⟩
  | .grun q a b => some ⟨q, pairDst a ++ [.x b], [], false⟩
  | .gstat q d a => some ⟨q, pairDst a, [.x (evenReg d), .x (oddReg d)], false⟩
  | _ => none

/-- A legal word with no privileged register number (R132, R133). -/
def Sys2Proof.Instr.plain (i : Instr) : Prop :=
  i.wf = true ∧ ∀ q r n, i = .mfs q r n ∨ i = .mts q r n → n.toNat < 0x800

/-- A register write is pending among results in flight (R51): x0 and k0 are no such register (R14, R130). -/
abbrev Sys2Proof.Machine.WritesReg (l : List Flight) : Prop := ∃ f ∈ l, ∃ d ∈ f.dst, d.1 ≠ .x 0 ∧ d.1 ≠ .k 0

/-- Cue points (R51): a 32-bit word with Q = 1 waits in CUEWAIT, before anything else, while a pending register write of its
thread has not returned; a result that returns makes the thread READY exactly where no register write is pending after it, whatever
else is in flight; and a 16-bit word is never a cue point: it runs whatever is in flight. -/
def Obligations.CuePoint : Prop :=
  (∀ (i : Instr) (w : Nat) (s : State) (k : Ctx), s.ctx = some k → encode i = some (32, w) → w / 2 % 2 = 1 → i.plain →
    WritesReg k.t.flights → exec i s = .next (s.setThread k.r { k.t with st := .cueWait })) ∧
  (∀ (c t n : Nat) (s : State) (k : Ctx) (f : Flight), s.ctxAt ⟨c, t⟩ = some k → k.t.st = .cueWait → k.t.flights[n]? = some f →
    f.src = .value → s.settleCells k.c.plot = s →
    let rest := k.t.flights.eraseIdx n
    ∃ s' u, exec (.pendingResultReturn c t n) s = .next s' ∧ s'.thread? ⟨c, t⟩ = some u ∧
      u.x = (k.t.setDsts f.dst).x ∧ u.k = (k.t.setDsts f.dst).k ∧
      u.flights.map (fun h => { h with flags := 0 }) = rest.map (fun h => { h with flags := 0 }) ∧
      u.st = if WritesReg rest then .cueWait else .ready) ∧
  ∀ (i : Instr) (w : Nat) (s : State) (k : Ctx), s.ctx = some k → encode i = some (16, w) → k.t.pend = [] →
    ∃ t f, CompletesFlags i s k t 2 f

/-- PEND (R52): a legal word that reads or writes a register made pending since the last cue point raises PEND, if it is no cue
point itself, and has no other effect. -/
def Sys2Proof.Claims.PendingRegister : Prop :=
  ∀ (i : Instr) (o : Regs) (d : Dst) (s : State) (k : Ctx), s.ctx = some k → i.plain → i.regs = some o → o.q = false →
    d ∈ o.rd ++ o.wr → d ∈ k.t.pend → Faults i s k .pend 0 0 .none

/-- The frame of the words that work on registers alone, with which they complete: every general register and predicate that is no
destination, every extended register, the other registers of the thread, every other thread, every register of the cast's crews
but FLAGS of the thread's own, where flags are only set, and all of the state but the casts' records stay as they were. -/
def Sys2Proof.Claims.RegisterFrame : Prop :=
  ∀ (i : Instr) (o : Regs) (s : State) (k : Ctx), i.regs = some o → o.lane = true → i.plain → CanRun s k o.q (o.rd ++ o.wr) →
    k.crewN < k.c.crews.length →
    ∃ s' t c', exec i s = .next s' ∧ s'.thread? k.r = some t ∧ look s'.casts k.r.c = some c' ∧
      (∀ r, Dst.x r ∉ o.wr → t.getX r = k.t.getX r) ∧ (∀ p, Dst.k p ∉ o.wr → t.getK p = k.t.getK p) ∧
      t.e = k.t.e ∧ t.key = k.t.key ∧ t.dep = k.t.dep ∧ t.meet = k.t.meet ∧ t.cmask = k.t.cmask ∧ t.retLatch = k.t.retLatch ∧
      t.own = k.t.own ∧ t.retired = k.t.retired + 1 ∧ t.st = .ready ∧
      (∀ r, r ≠ k.r → s'.thread? r = s.thread? r) ∧
      (∃ f, c'.crews = k.c.crews.set k.crewN { k.crew with flags := k.crew.flags ||| f }) ∧
      (∃ ts cr cl ac, c' = { k.c with threads := ts, crews := cr, clk := cl, active := ac }) ∧
      s' = { s with casts := s'.casts }

/-- TRAP and BRK (R181, R385, R415, R417): with TRAPR, once the thread's earlier accesses are performed, a record of class 3 with the
code in INFO is queued, and the thread goes on after the word; without it the code is a fatal fault of class 0. -/
def Sys2Proof.Claims.TrapResults : Prop :=
  ∀ (q : Bool) (n : BitVec 18) (s : State) (k : Ctx), CanRun s k q [] →
    let goes := (look s.scenes k.c.scene).any Scene.trapr
    let next (i : Instr) (code : FCode) : Prop :=
      (goes = true → s.faultQ.length < 256 → k.holds s = false → ∃ r : FaultRec, r.code = code ∧ r.cls = 3 ∧ r.info.toNat = n.toNat ∧ r.iaddr = k.t.pc ∧
        r.key = k.t.key ∧ r.both = true ∧ exec i s = .next (retire (s.record r) k (k.cued q).t (k.after 4) false)) ∧
      (goes = true → 256 ≤ s.faultQ.length → exec i s = .next (s.setThread k.r { (k.cued q).t with st := .blocked .issue })) ∧
      (goes = true → s.faultQ.length < 256 → k.holds s = true →
        exec i s = .next (s.setThread k.r { (k.cued q).t with st := .blocked .order })) ∧
      (goes = false → Faults i s (k.cued q) code n.toNat 0 .none)
    next (.trap q n) .trap ∧ next (.brk q n) .brk

/-- Taking a fault (R43, R415, R417, R420, R443): where the I/O die has room for a record, one record is queued, numbered in order, with
the code, the class, INFO, both addresses, the thread's key, slot and PC, and the cast's index; the cast is no more, every other
cast stays, and its scene counts it among its failed casts; while a core repair stops the cast, the code
is MEMERR. Where the die holds 256 records, and for a precise fault (class 0) while
accesses of the thread wait to be performed (R52), nothing happens but that the thread waits at its instruction. -/
def Sys2Proof.Claims.TakeFault : Prop :=
  ∀ (s : State) (k : Ctx) (code : FCode) (cls info : Nat) (a : DWord) (acck : Acck), look s.casts k.r.c = some k.c →
    let s' := raiseWith s k code cls info a acck
    let v := if s.repairing k.c = true ∧ s.repairWaits = false then FCode.memerr else code
    (256 ≤ s.faultQ.length → s' = s.setThread k.r { k.t with st := .blocked .issue }) ∧
    (s.faultQ.length < 256 → cls = 0 → k.holds s = true → s' = s.setThread k.r { k.t with st := .blocked .order }) ∧
    (s.faultQ.length < 256 → (cls = 0 → k.holds s = false) →
      (∃ r : FaultRec, s'.faultQ = s.faultQ ++ [r] ∧ r.code = v ∧ r.cls.toNat = cls % 4 ∧ r.info.toNat = info % 2 ^ 32 ∧
        r.faddr = a ∧ r.acck = acck ∧ r.iaddr = k.t.pc ∧ r.key = k.t.key ∧ r.slot.toNat = k.r.t % 2 ^ 16 ∧
        r.castix.toNat = k.c.ix % 2 ^ 32 ∧ r.agent = false ∧ r.seq = s.faultSeq ∧ r.time.toNat = s.dieClk.toNat % 2 ^ 32) ∧
      s'.faultSeq = s.faultSeq + 1 ∧ look s'.casts k.r.c = none ∧
      (∀ n, n ≠ k.r.c → (look s'.casts n).isSome = (look s.casts n).isSome) ∧
      (k.c.fire = none → ∀ sc, look s.scenes k.c.scene = some sc →
        ∃ sc', look s'.scenes k.c.scene = some sc' ∧ (k.c.ix, BitVec.ofNat 8 v.num) ∈ sc'.fails))

/-- The frame of the words that work on registers alone, and PEND for a pending register: `RegisterFrame` and `PendingRegister`. -/
def Obligations.RegisterFrame : Prop :=
  Sys2Proof.Claims.RegisterFrame ∧ Sys2Proof.Claims.PendingRegister

/-- TRAP, BRK and what taking a fault records and ends: `TrapResults` and `TakeFault`. The model's choice, not the spec's: TRAP and BRK
of a scene with TRAPR go on after their record (log 8) and complete as any instruction (log 76); a full record queue makes the
thread wait (log 7). -/
def Obligations.TrapResults : Prop :=
  Sys2Proof.Claims.TrapResults ∧ Sys2Proof.Claims.TakeFault

/-! ### Memory -/

namespace Sys2Proof.Machine

/-- An access of the thread `k` goes through at its issue (R63): its checks give the form `sp` of the address; no access of the thread
that is not yet performed stands before it: none to the same bytes or waiting for the same page (R214, R418), no acquire (R218), in
ORDERED mode none of its cast (R345); the device does not put it off (R214); and after translation and the ownership check, which
leave the state `s1`, it has the place `l`; `z` says that the page reads as zeros. -/
structure Reach (s : State) (k : Ctx) (op : AccOp) (a : DWord) (size sc : Nat) (w : Want) (v : View) (s1 : State) (sp : Space) (l : Loc)
    (z : Bool) : Prop where
  check : checkAcc s k.c op a size sc = .ok sp
  behind : k.behind s a size = []
  acquires : k.acquiring s = false
  ordered : descDet k.c.desc = 1 → k.holds s = false
  now : s.lag = false ∨ op = .lds ∨ op = .waita ∨ op = .acqp
  place : resolve s k.c k.r.c sp w v = .ok (s1, l, z)

/-- The effective address of the G form (R220): the pair plus the signed offset in units of 2^z bytes, modulo 2^64. -/
def Ctx.gAddr (k : Ctx) (p : BitVec 5) (z : BitVec 3) (im : BitVec 9) : DWord :=
  BitVec.ofInt 64 ((k.t.getA p).toNat + im.toInt * 2 ^ z.toNat)

/-- What the columns of R220 say that a load of `v` writes. -/
def loaded (d : BitVec 6) (sx : Bool) (z : BitVec 3) (v : Nat) : List (Dst × Word) :=
  match z.toNat with
  | 0 => [(.x d, if sx then (BitVec.ofNat 8 v).signExtend 32 else BitVec.ofNat 32 (v % 2 ^ 8))]
  | 1 => [(.x d, if sx then (BitVec.ofNat 16 v).signExtend 32 else BitVec.ofNat 32 (v % 2 ^ 16))]
  | 2 => [(.x d, BitVec.ofNat 32 v)]
  | 3 => [(.x d, BitVec.ofNat 32 v), (.x (d + 1), BitVec.ofNat 32 (v / 2 ^ 32))]
  | _ => [(.x d, BitVec.ofNat 32 v), (.x (d + 1), BitVec.ofNat 32 (v / 2 ^ 32)), (.x (d + 2), BitVec.ofNat 32 (v / 2 ^ 64)),
      (.x (d + 3), BitVec.ofNat 32 (v / 2 ^ 96))]

/-- What the columns of R220 say that a store writes, as one little-endian number. -/
def stored (t : Thread) (d : BitVec 6) (z : BitVec 3) : Nat :=
  let x (i : Nat) : Nat := (t.getX (d + BitVec.ofNat 6 i)).toNat
  match z.toNat with
  | 0 => x 0 % 2 ^ 8
  | 1 => x 0 % 2 ^ 16
  | 2 => x 0
  | 3 => x 0 + 2 ^ 32 * x 1
  | _ => x 0 + 2 ^ 32 * x 1 + 2 ^ 64 * x 2 + 2 ^ 96 * x 3

/-- The byte at a place as a plain load of a thread of plot `p` reads it (R215). -/
def State.peek (s : State) (p : Nat) (l : Loc) : Nat := (s.readAt p .plot l false 1).2

/-- Whether a place is one of the `n` bytes from another on. -/
def Loc.within (m l : Loc) (n : Nat) : Prop := ∃ i, i < n ∧ m = l.add i

end Sys2Proof.Machine

/-- The canonical memory (the form that every memory of the state keeps): a write reads back, other bytes stay, a clear reads 0, the
form is kept, and two memories in the form that read alike are equal. -/
def Sys2Proof.Claims.CanonicalMemory : Prop :=
  ∀ (m n : List Host.Cell) (a b : Nat) (v : Byte) (c x : Nat), Memory.wf m = true → Memory.wf n = true →
    Memory.byte (Memory.setByte m a v) a = v ∧ (b ≠ a → Memory.byte (Memory.setByte m a v) b = Memory.byte m b) ∧
    Memory.wf (Memory.setByte m a v) = true ∧
    Memory.read (Memory.write m a c x) a c = x % 2 ^ (8 * c) ∧ Memory.wf (Memory.write m a c x) = true ∧
    ((b < a ∨ a + c ≤ b) → Memory.byte (Memory.write m a c x) b = Memory.byte m b) ∧
    Memory.wf (Memory.clear m a c) = true ∧
    Memory.byte (Memory.clear m a c) b = (if a ≤ b ∧ b < a + c then 0 else Memory.byte m b) ∧
    ((∀ i, Memory.byte m i = Memory.byte n i) → m = n)

/-- LD (R63, R220, R221): where the access goes through and the LD class has room, the value at the place goes to the destinations
that the size names, pending, and the operation counts in the LD class. -/
def Sys2Proof.Claims.LoadResults : Prop :=
  ∀ (q : Bool) (d : BitVec 6) (p : BitVec 5) (sx : Bool) (z : BitVec 3) (im : BitVec 9) (s s1 : State) (k : Ctx) (sp : Space)
    (l : Loc) (zr : Bool), (Instr.ld q d p sx z im).wf = true → CanRun s k q (pairDst p ++ (dataRegs z d).map Dst.x) →
    k.full .ld = false → Reach s k .ld (k.gAddr p z im) (2 ^ z.toNat) 0 .read .plot s1 sp l zr →
    let r := loadAt s1 k.c.plot k.t sp l zr (2 ^ z.toNat)
    exec (.ld q d p sx z im) s = .next (retire (r.1.count k .ld false).2 k
      ((k.cued q).t.pending { dst := loaded d sx z r.2, op := some k.c.nextOp }) (k.after 4) false)

/-- ST (R63, R220, R351): where the access goes through and the ST class has room, the data registers are stored at the place, the
write is folded into the digest of a CHECKED cast, and the operation counts in the ST class. -/
def Sys2Proof.Claims.StoreResults : Prop :=
  ∀ (q : Bool) (d : BitVec 6) (p : BitVec 5) (z : BitVec 3) (im : BitVec 9) (s s1 : State) (k : Ctx) (sp : Space) (l : Loc)
    (zr : Bool), (Instr.st q d p z im).wf = true → CanRun s k q (pairDst p ++ (dataRegs z d).map Dst.x) →
    k.full .st = false → Reach s k .st (k.gAddr p z im) (2 ^ z.toNat) 0 .write .plot s1 sp l zr →
    let v := stored k.t d z
    let r := s1.ownStore k.r.c k.c.plot .plot (k.cued q).t l (2 ^ z.toNat) (fun s => s.storeAt k.c.plot .plot l (2 ^ z.toNat) v)
    let s2 := r.1.fold k.r.c sp (k.gAddr p z im) (2 ^ z.toNat) v
    exec (.st q d p z im) s = .next (retire (s2.count k .st true).2 k r.2 (k.after 4) false)

/-- The frame of a store (R220), at the place that the model's own functions compute for the ST: `gAddr` gives its address, and the
checks and the translation that `Reach` names give the place. Every byte that a thread of the plot could load, but the 2^z bytes
there, the line that its set of the plot's cache gives up for it where it is full (R71), and the ownership entries that memory shows
(R404), reads after the instruction as it does after the translation of its address, in home memory, the commons, the regions of
every cast, and the memory of other devices; that translation itself sets A and D of the leaf, clears its Z, and makes a zero page's
zeros real (R401, stated by `Translation`). A line given up is written back to its home and no longer held; no register of any
thread changes. A plot without a cache-role bank holds no lines, and its store to a frame under scrub is discarded (R405). The
model's choice, not the spec's: which bytes of memory are read-only fields (log 87); whether an access is performed at its issue or
later is the agenda's (log 2). -/
def Obligations.StoreFrame : Prop :=
  ∀ (q : Bool) (d : BitVec 6) (p : BitVec 5) (z : BitVec 3) (im : BitVec 9) (s s1 s' : State) (k : Ctx) (sp : Space) (l m : Loc)
    (zr : Bool), (Instr.st q d p z im).wf = true → CanRun s k q (pairDst p ++ (dataRegs z d).map Dst.x) →
    k.full .st = false → Reach s k .st (k.gAddr p z im) (2 ^ z.toNat) 0 .write .plot s1 sp l zr →
    ((s.plot k.c.plot).hasCache = false → (s.plot k.c.plot).cache = [] ∧ ∀ pa, l = .home pa → (s1.frame (pa / 65536)).st = 2) →
    exec (.st q d p z im) s = .next s' → ¬m.within l (2 ^ z.toNat) →
    let n := k.c.plot
    let held (t : State) (x : Nat) : Prop := ∃ y ∈ (t.plot n).cache, y.n = x
    ((∀ b, m = .home b → tableFrame (b / 65536) = false ∧ (held s1 (b / 128) → held s' (b / 128))) → s'.peek n m = s1.peek n m) ∧
    (∀ x, held s1 x → ¬held s' x → ∃ pa, l = .home pa ∧ x ≠ pa / 128 ∧ x % 256 = pa / 128 % 256 ∧
      ∀ y, held s1 y → y ≠ x → held s' y) ∧
    ∀ r t, s.thread? r = some t → ∃ t', s'.thread? r = some t' ∧ t'.x = t.x ∧ t'.k = t.k ∧ t'.e = t.e

/-- A plot reads what it has stored (R215): the bytes of a store that lies in one line, at every kind of place, read back, where none of
them is a byte of a read-only field; such bytes keep what they held (R9). -/
def Sys2Proof.Claims.ReadAfterStore : Prop :=
  ∀ (s : State) (p n x : Nat) (l : Loc) (c : Cast), s.memWf = true → n ≤ 16 →
    (match l with
      | .home pa => pa % 128 + n ≤ 128 ∧ (s.plot p).hasCache = true
      | .scr c' _ | .opd c' _ => look s.casts c' = some c ∧ c.memWf = true
      | _ => True) →
    ((∀ pa i, l = .home pa → i < n → s.roByte (pa + i) = false) →
      ((s.storeAt p .plot l n x).readAt p .plot l false n).2 = x % 2 ^ (8 * n)) ∧
    ∀ pa i, l = .home pa → i < n → s.roByte (pa + i) = true →
      (s.storeAt p .plot l n x).peek p (.home (pa + i)) = s.peek p (.home (pa + i))

/-- A load and a store in the scratch region (R58, R69, R220), with no other condition than an aligned address within it, room in
the class, and no access of the thread that is not yet performed: the load returns the bytes of the cast's own region, the store changes those bytes and no other memory. -/
def Sys2Proof.Claims.ScratchAccess : Prop :=
  ∀ (q : Bool) (d : BitVec 6) (p : BitVec 5) (z : BitVec 3) (im : BitVec 9) (off : Nat) (s : State) (k : Ctx),
    z.toNat ≤ 4 → d.toNat % (if z.toNat = 3 then 2 else if z.toNat = 4 then 4 else 1) = 0 →
    CanRun s k q (pairDst p ++ (dataRegs z d).map Dst.x) →
    k.gAddr p z im = BitVec.ofNat 64 (3 * 2 ^ 60 + off) → off < 2 ^ 18 → off < 32768 * descScnt k.c.desc → off % 2 ^ z.toNat = 0 →
    k.holds s = false → s.lag = false →
    let v := Memory.read k.c.scr off (2 ^ z.toNat)
    (k.full .ld = false → exec (.ld q d p false z im) s = .next (retire (s.count k .ld false).2 k
      ((k.cued q).t.pending { dst := loaded d false z v, op := some k.c.nextOp }) (k.after 4) false)) ∧
    (k.full .st = false → ∃ s' c', exec (.st q d p z im) s = .next s' ∧ look s'.casts k.r.c = some c' ∧
      c'.scr = Memory.write k.c.scr off (2 ^ z.toNat) (stored k.t d z) ∧ c'.opd = k.c.opd ∧ c'.digest = k.c.digest ∧
      s'.mem = s.mem ∧ s'.cmn = s.cmn ∧ s'.peers = s.peers ∧ s'.allots = s.allots ∧ s'.plots = s.plots)

/-- LDS, LDS.D, STS and STS.D (R217, R224, R225, R236): the load reads at the place of its effective scope, and the acquire follows;
the store follows its release, or at plot scope takes its number in the promotion log; a clamp is counted. -/
def Sys2Proof.Claims.ScopedResults : Prop :=
  ∀ (q : Bool) (d : BitVec 6) (e p : BitVec 5) (sc : BitVec 3) (s s1 : State) (k : Ctx) (sp : Space) (l : Loc) (zr : Bool),
    sc.toNat < 6 → CanRun s k q (pairDst p ++ [.x d, .x (evenReg e), .x (oddReg e)]) →
    let a := k.t.getA p
    let n := k.c.plot
    let sc' := if sp.remote then 5 else min sc.toNat (acbCeil (s.acb k.c.al))
    let clamp := !sp.remote && decide (acbCeil (s.acb k.c.al) < sc.toNat)
    let view : View := if sc' < 2 then .plot else .home
    let load (i : Instr) (size : Nat) (dst : Nat → List (Dst × Word)) : Prop :=
      Reach s k .lds a size sc.toNat .read view s1 sp l zr → k.full .ld = false →
        let r := s1.readAt n view l zr size
        let s2 := (r.1.acquire n sc').countClamp k.r.c k.crewN clamp
        exec i s = .next (retire (s2.count k .ld false).2 k ((k.cued q).t.pending { dst := dst r.2, op := some k.c.nextOp })
          (k.after 4) false)
    let store (i : Instr) (size v : Nat) : Prop :=
      Reach s k .sts a size sc.toNat .write view s1 sp l zr → k.full .st = false → k.busy s = false →
        let r := s1.ownStore k.r.c n view (k.cued q).t l size (fun s =>
          let s2 := if sc' = 1 then ((s.storeAt n .plot l size v).promoBegin n).promoEnd n else (s.release n sc').storeAt n view l size v
          if 3 ≤ sc.toNat ∨ sp.remote then s2.wakeRange l size else s2)
        let s3 := (r.1.fold k.r.c sp a size v).countClamp k.r.c k.crewN clamp
        exec i s = .next (retire (s3.count k .st true).2 k r.2 (k.after 4) false)
    load (.lds q d p sc) 4 (fun v => [(.x d, BitVec.ofNat 32 v)]) ∧
    load (.ldsD q e p sc) 8 (fun v => [(.x (evenReg e), BitVec.ofNat 32 v), (.x (oddReg e), BitVec.ofNat 32 (v / 2 ^ 32))]) ∧
    store (.sts q d p sc) 4 (k.t.getX d).toNat ∧
    store (.stsD q e p sc) 8 ((k.t.getX (evenReg e)).toNat + 2 ^ 32 * (k.t.getX (oddReg e)).toNat)

/-- The update of the atomics (R77, R91, R231, R234): the new value of every operation, a failed CAS that writes nothing, and which
updates wake the waiters of the word. -/
def Sys2Proof.Claims.AtomicUpdate : Prop :=
  ∀ (old x y : Word),
    let new (o : Nat) (v : Word) : Prop := (Update.op o x y).new old = some v
    new 0 (BitVec.ofNat 32 (old.toNat + x.toNat)) ∧ new 1 (BitVec.ofInt 32 ((old.toNat : Int) - x.toNat)) ∧
    new 2 (old &&& x) ∧ new 3 (old ||| x) ∧ new 4 (old ^^^ x) ∧
    new 5 (if old.toInt ≤ x.toInt then old else x) ∧ new 6 (if x.toInt ≤ old.toInt then old else x) ∧
    new 7 (if old.toNat ≤ x.toNat then old else x) ∧ new 8 (if x.toNat ≤ old.toNat then old else x) ∧ new 9 x ∧
    (old = x → new 10 y) ∧ (old ≠ x → (Update.op 10 x y).new old = none) ∧
    new 11 (BitVec.ofNat 32 (fp32.finish ⟨0, false, false⟩ ((fp32.read false old.toNat).add 0 (fp32.read false x.toNat))).1) ∧
    (∃ v : Word, new 12 v ∧ ∀ e, e < 2 → bitsN v (16 * e) 16 =
      (bf16.finish ⟨0, false, false⟩ ((bf16.read false (bitsN old (16 * e) 16)).add 0 (bf16.read false (bitsN x (16 * e) 16)))).1) ∧
    (Update.thresh x y).new old = some (BitVec.ofNat 32 (old.toNat + x.toNat)) ∧
    ((Update.thresh x y).wakes old (BitVec.ofNat 32 (old.toNat + x.toNat)) = true ↔
      old.toNat < y.toNat ∧ y.toNat ≤ (old.toNat + x.toNat) % 2 ^ 32)

/-- ATOM, ATOMT and RED (R231 to R236, R348): where neither a rendezvous nor a deferral of the deterministic modes applies, the update at
the place of the effective scope, between its release and, where a value returns, its acquire; the old value is pending in the LD
class, or with x0 the operation counts in the ST class; RED has neither order nor result. In a deterministic mode a floating-point
RED, and a floating-point ATOM with x0 after its release, enter the cast's deferred list with key, order, address, scope and value. -/
def Sys2Proof.Claims.AtomicResults : Prop :=
  ∀ (q : Bool) (d : BitVec 6) (p : BitVec 5) (b : BitVec 6) (t : BitVec 5) (sc : BitVec 3) (o : BitVec 4) (s s1 : State) (k : Ctx)
    (sp : Space) (l : Loc) (zr : Bool),
    sc.toNat < 6 → CanRun s k q (pairDst p ++ [.x b, .x (b + 1), .x d, .x 0] ++ pairDst t) →
    let n := k.c.plot
    let sc' := if sp.remote then 5 else min sc.toNat (acbCeil (s.acb k.c.al))
    let clamp := !sp.remote && decide (acbCeil (s.acb k.c.al) < sc.toNat)
    let view : View := if sc' < 2 then .plot else .home
    let det := descDet k.c.desc ≠ 0
    let float := o.toNat = 11 ∨ o.toNat = 12
    let me := (k.cued q).t
    let late : Deferred :=
      { key := k.t.key, dep := k.t.dep, ord := k.t.retired.toNat, idx := 0, addr := k.t.getA p, scope := sc, bf := o.toNat == 12,
        val := k.t.getX b }
    let defers (s : State) : State := (s.onCast k.r.c (fun c => { c with deferred := c.deferred ++ [late] })).countClamp k.r.c k.crewN clamp
    (Reach s k .atom (k.t.getA p) 4 sc.toNat .write view s1 sp l zr →
      let atom (i : Instr) (u : Update) : Prop :=
        k.busy s = false →
        let r := s1.ownStore k.r.c n view me l 4 (fun s => (s.atomic n sc' l zr (d != 0) u).1)
        let s2 := r.1.countClamp k.r.c k.crewN clamp
        (d ≠ 0 → k.full .ld = false → exec i s = .next (retire (s2.count k .ld false).2 k
          (r.2.pending { dst := [(.x d, (s1.atomic n sc' l zr true u).2)], op := some k.c.nextOp }) (k.after 4) false)) ∧
        (d = 0 → k.full .st = false → exec i s = .next (retire (s2.count k .st true).2 k r.2 (k.after 4) false))
      ((Instr.atom q d p b sc o).wf = true → ¬(det ∧ (d ≠ 0 ∨ o.toNat = 9 ∨ o.toNat = 10 ∨ float)) →
        atom (.atom q d p b sc o) (.op o.toNat (k.t.getX b) (if o = 10 then k.t.getX (b + 1) else k.t.getX 0))) ∧
      (¬(det ∧ d ≠ 0) → atom (.atomt q d p t sc) (.thresh (k.t.getX (pairLo t)) (k.t.getX (pairHi t)))) ∧
      ((Instr.red q p b sc o).wf = true → ¬(det ∧ float) → k.full .st = false →
        let r := s1.ownStore k.r.c n view me l 4 (fun s => (s.update n view l zr (.op o.toNat (k.t.getX b) 0)).1)
        exec (.red q p b sc o) s =
          .next (retire ((r.1.countClamp k.r.c k.crewN clamp).count k .st true).2 k r.2 (k.after 4) false))) ∧
    (det → float → checkAcc s k.c .atom (k.t.getA p) 4 sc.toNat = .ok sp → k.full .st = false → k.acquiring s = false →
      k.busy s = false →
      ((Instr.red q p b sc o).wf = true →
        exec (.red q p b sc o) s = .next (retire ((defers s).count k .st true).2 k me (k.after 4) false)) ∧
      ((Instr.atom q 0 p b sc o).wf = true →
        let r := if sc' = 1 then (s.promoBegin n).promoEnd n else s.release n sc'
        exec (.atom q 0 p b sc o) s = .next (retire ((defers r).count k .st true).2 k me (k.after 4) false)))

/-- The rendezvous of ordered atomics (R347, R349, R418): where its operands pass the checks, an ATOM with a destination, an XCHG, a CAS or
an ATOMT with a destination arrives in a deterministic mode, and its crew's sets are tried. Of a set, once no earlier cast stands
before one of its words and none of its cast's steps there waits in the log, the participants' updates are performed one after
another in lane order, as one step that is counted once for each word. A step on a word waits while the cast before it has performed
no more of them; the turn passes where that cast is resident on the same plot. -/
def Sys2Proof.Claims.OrderedAtomics : Prop :=
  (∀ (q : Bool) (d : BitVec 6) (p : BitVec 5) (b : BitVec 6) (t : BitVec 5) (sc : BitVec 3) (o : BitVec 4) (s : State) (k : Ctx)
      (sp : Space), CanRun s k q (pairDst p ++ [.x b, .x (b + 1), .x d] ++ pairDst t) → descDet k.c.desc ≠ 0 →
    checkAcc s k.c .atom (k.t.getA p) 4 sc.toNat = .ok sp →
    let a := k.t.getA p
    let arrives (i : Instr) (x y : Word) : Prop := i.wf = true → exec i s = .next (tryColl (s.setThread k.r { (k.cued q).t with
      st := .blocked (.collective { instr := i, vals := [a.setWidth 32, (a >>> 32).setWidth 32, x, y], ceil := acbCeil (s.acb k.c.al) }) }) k.r)
    ((d ≠ 0 ∨ o = 9 ∨ o = 10) → o ≠ 10 → arrives (.atom q d p b sc o) (k.t.getX b) 0) ∧
    (o = 10 → arrives (.atom q d p b sc o) (k.t.getX b) (k.t.getX (b + 1))) ∧
    (d ≠ 0 → arrives (.atomt q d p t sc) (k.t.getX (pairLo t)) (k.t.getX (pairHi t)))) ∧
  (∀ (s : State) (k : Ctx) (fx : FixedSet), (∀ w ∈ s.setWords k.r.c fx, stepWait s k.c w = none) →
    s.stepLogged k.r.c k.c.plot (s.setWords k.r.c fx) = false →
    ∀ (ss : Nat → State), ss 0 = s → (∀ j i, fx.parts[j]? = some i → atomOne k.r.c (ss j) i = .ok (ss (j + 1))) →
      atomRendezvous s k fx = .ok ((ss fx.parts.length).onCast k.r.c (fun c => (s.setWords k.r.c fx).foldl Cast.addStep c))) ∧
  (∀ (s s1 : State) (k : Ctx) (a : Arrival) (sc : BitVec 3) (d : BitVec 6) (u : Update) (l : Loc) (z : Bool),
    s.ctxAt k.r = some k → k.t.arrival = some a → atomUpdate a.instr (a.vals.getD 2 0) (a.vals.getD 3 0) = some (sc, d, u) →
    k.full (if d = 0 then .st else .ld) = false → k.busy s = false →
    let sp := classify s.devnum (a.vals.getD 1 0 ++ a.vals.getD 0 0)
    let e := if sp.remote then 5 else min sc.toNat a.ceil
    let view : View := if e < 2 then .plot else .home
    resolve s k.c k.r.c sp .write view = .ok (s1, l, z) →
      let r := s1.ownStore k.r.c k.c.plot view k.t l 4 (fun s => (s.atomic k.c.plot e l z (d != 0) u).1)
      let s2 := r.1.countClamp k.r.c k.crewN (!sp.remote && decide (a.ceil < sc.toNat))
      (d = 0 → atomOne k.r.c s k.r.t = .ok (retire (s2.count k .st true).2 k r.2 (k.after 4) false)) ∧
      (d ≠ 0 → atomOne k.r.c s k.r.t = .ok (retire (s2.count k .ld false).2 k
        (r.2.pending { dst := [(.x d, (s1.atomic k.c.plot e l z true u).2)], op := some k.c.nextOp }) (k.after 4) false))) ∧
  ∀ (s : State) (c : Cast) (w : DWord), (c.ix = 0 → stepWait s c w = none) ∧ (s.prevCast c = none → stepWait s c w = none) ∧
    ∀ x here, s.prevCast c = some (x, here) →
      (c.stepsOn w < x.stepsOn w → stepWait s c w = none) ∧
      (x.stepsOn w ≤ c.stepsOn w → (stepWait s c w = some true ↔ here = true ∧ x.plot = c.plot) ∧ stepWait s c w ≠ none)

/-- The forms of addresses (R58, R59) and the operations that each path accepts (R61, R69, R75); a write through READONLY passes this
check and raises PROT (R63). -/
def Sys2Proof.Claims.PathTable : Prop :=
  (∀ (dev : BitVec 11) (n v o x : Nat), n < 2 ^ 11 → v < 2 ^ 48 → o < 2 ^ 28 → x < 2 ^ 18 →
    let at_ (a : Nat) (sp : Space) : Prop := classify dev (BitVec.ofNat 64 a) = sp
    at_ v (.glob v) ∧ at_ (2 ^ 59 + n * 2 ^ 48 + v) (if n = dev.toNat then .glob v else .rglob n v) ∧ at_ (2 ^ 60 + v) (.ro v) ∧
    at_ (2 * 2 ^ 60 + o) (.cmn o) ∧ at_ (2 * 2 ^ 60 + 2 ^ 59 + n * 2 ^ 48 + o) (if n = dev.toNat then .cmn o else .rcmn n o) ∧
    at_ (3 * 2 ^ 60 + x) (.scr x) ∧ at_ (4 * 2 ^ 60 + x) (.opd x)) ∧
  (∀ (dev : BitVec 11) (a : DWord), classify dev a ≠ .bad →
    ∃ n v o x, n < 2 ^ 11 ∧ v < 2 ^ 48 ∧ o < 2 ^ 28 ∧ x < 2 ^ 18 ∧
      a.toNat ∈ [v, 2 ^ 59 + n * 2 ^ 48 + v, 2 ^ 60 + v, 2 * 2 ^ 60 + o, 2 * 2 ^ 60 + 2 ^ 59 + n * 2 ^ 48 + o, 3 * 2 ^ 60 + x, 4 * 2 ^ 60 + x]) ∧
  ∀ (s : State) (c : Cast) (op : AccOp) (va dev off : Nat),
    let yes (sp : Space) (ops : List AccOp) (limit : Prop) : Prop := pathOk s c op sp = true ↔ op ∈ ops ∧ limit
    yes (.glob va) [.ld, .st, .lds, .sts, .atom, .waita, .acqp, .ctrl] True ∧
    yes (.rglob dev va) [.ld, .st, .lds, .sts, .atom] True ∧
    yes (.ro va) [.ld, .st, .sts, .atom] True ∧
    yes (.cmn off) [.ld, .st, .lds, .sts, .atom, .waita, .acqp] (off < acbCmnb (s.acb c.al) * 2 ^ 20) ∧
    yes (.rcmn dev off) [.ld, .st, .lds, .sts, .atom] True ∧
    yes (.scr off) [.ld, .st, .lds, .sts, .atom, .waita] (off < 32768 * descScnt c.desc) ∧
    yes (.opd off) [.ld, .st, .lds, .sts] (off < 32768 * descOcnt c.desc) ∧
    yes .bad [] True

/-- The walk (R396 to R399): three levels from the root, a block at level 2 or a page at level 3, and the kinds of its faults. -/
def Sys2Proof.Claims.PageWalk : Prop :=
  ∀ (s : State) (al va : Nat), va < 2 ^ 48 →
    let entry (ea : Nat) : DWord := BitVec.ofNat 64 (s.homeRead ea 8)
    let sound (ea : Nat) : Prop := populated ea = true ∧ (s.frame (ea / 65536)).owner = 0 ∧ s.lineBad ea false = false
    let table (l : DWord) : Prop := l.getLsbD 0 = true ∧ l.getLsbD 1 = false ∧ bitsN l 2 12 = 0 ∧ bitsN l 44 12 = 0
    let next (l : DWord) (i : Nat) : Nat := bitsN l 14 30 * 2 ^ 14 + 8 * i
    let e1 := acbRoot (s.acb al) + 8 * (va / 2 ^ 37)
    let e2 := next (entry e1) (va / 2 ^ 26 % 2048)
    let e3 := next (entry e2) (va / 2 ^ 16 % 1024)
    let fails (n : Nat) : Prop := walk s al va = .fail n
    let bad (ea : Nat) : Prop := (populated ea = false → fails 5) ∧ (populated ea = true → (s.frame (ea / 65536)).owner ≠ 0 → fails 6) ∧
      (sound ea → (entry ea).getLsbD 0 = false → fails 1)
    let reserved (l : DWord) : Prop := l.getLsbD 4 = true ∨ bitsN l 44 12 ≠ 0 ∨ 2 ≤ bitsN l 14 2
    let pa (l : DWord) : Nat := bitsN l 16 28 * 65536
    let placed (l : DWord) : Prop := populated (pa l) = true ∧ (bitsN l 14 2 = 0 ↔ pa l < 2 ^ 39)
    let leaf (l : DWord) (ea : Nat) (block : Bool) : Prop :=
      (reserved l → fails 2) ∧ (¬reserved l → block = true → bitsN l 16 10 ≠ 0 → fails 4) ∧
      (¬reserved l → (block = true → bitsN l 16 10 = 0) → ¬placed l → fails 5) ∧
      (¬reserved l → (block = true → bitsN l 16 10 = 0) → placed l →
        (l.getLsbD 13 = true → walk s al va = .migrating) ∧ (l.getLsbD 13 = false → walk s al va = .leaf l ea block) ∧
        leafPa l block va = pa l + va % (if block then 2 ^ 26 else 2 ^ 16))
    bad e1 ∧
    (sound e1 → (entry e1).getLsbD 0 = true →
      ((entry e1).getLsbD 1 = true → fails 3) ∧
      ((entry e1).getLsbD 1 = false → ¬table (entry e1) → fails 2)) ∧
    (sound e1 → table (entry e1) → bad e2 ∧
      (sound e2 → (entry e2).getLsbD 0 = true →
        ((entry e2).getLsbD 1 = true → leaf (entry e2) e2 true) ∧
        ((entry e2).getLsbD 1 = false → ¬table (entry e2) → fails 2)) ∧
      (sound e2 → table (entry e2) → bad e3 ∧
        (sound e3 → (entry e3).getLsbD 0 = true →
          ((entry e3).getLsbD 1 = false → fails 3) ∧ ((entry e3).getLsbD 1 = true → leaf (entry e3) e3 false))))

/-- An access under a leaf at its home (R400 to R402, R405): PROT without the permission, FOWN with the owner tag in INFO where the
table of R405 refuses it; else, for a translation that is loaded, A of the leaf is set in memory, before a write D too, and Z is
cleared once the frame's all-zero bit is set; no other byte of memory changes, and the plot keeps the translation. -/
def Sys2Proof.Claims.Translation : Prop :=
  (∀ (s : State) (al : Nat) (owner : BitVec 12) (st : BitVec 2) (wr : Bool), tagOk s al owner st wr = true ↔
    (st = 2 ∧ (owner.toNat = al ∨ owner.toNat ∈ acbGroups (s.acb al))) ∨ (st = 3 ∧ wr = false ∧ owner.toNat ∈ acbGroups (s.acb al))) ∧
  ∀ (s : State) (p al va ea : Nat) (w : Want) (l : DWord) (block : Bool),
    (∀ n, translate s p .plot al va = .fail n → access s p al va w = .error (.xlate n va)) ∧
    (translate s p .plot al va = .migrating → access s p al va w = .error (.migrating va)) ∧
    (translate s p .plot al va = .leaf l ea block →
      let pa := leafPa l block va
      let wr := w == .write
      let tag : BitVec 12 × BitVec 2 := match s.slines.find? (fun x => x.n == pa / 128) with
        | some x => (x.owner, x.st)
        | none => ((s.frame (pa / 65536)).owner, (s.frame (pa / 65536)).st)
      let allowed := (wr = true → l.getLsbD 2 = true) ∧ (w = .fetch → l.getLsbD 3 = true)
      (¬allowed → access s p al va w = .error (.fatal .prot 1 0 false)) ∧
      (allowed → tagOk s al tag.1 tag.2 wr = false →
        access s p al va w = .error (.fatal .fown 1 (tag.1.toNat + tag.2.toNat * 4096) false)) ∧
      (allowed → tagOk s al tag.1 tag.2 wr = true → s.lineBad pa (l.getLsbD 10 && !wr) = false →
        ∃ s', access s p al va w = .ok (s', pa, l.getLsbD 10 && !wr) ∧
          (s.tlb? p .plot al va = none → s.memWf = true → ea % 8 = 0 → tableFrame (ea / 65536) = false →
            (s.frame (ea / 65536)).zero = false → ownOk s al ea true = false →
            (∀ i, i < 8 → s.qcbAt (ea + i) = none ∧ s.acbRoByte (ea + i) = none) →
            ∃ l' : DWord, (∀ i, i < 64 → l'.getLsbD i =
                if i = 12 then true else if i = 11 then l.getLsbD 11 || wr else if i = 10 then l.getLsbD 10 && !wr else l.getLsbD i) ∧
              s'.homeRead ea 8 = l'.toNat ∧ (∀ a, (a < ea ∨ ea + 8 ≤ a) → Memory.byte s'.mem a = Memory.byte s.mem a) ∧
              (wr = true → l.getLsbD 10 = true → ownOk s al pa true = true → (s'.frame (pa / 65536)).zero = true) ∧
              s'.tlb? p .plot al va = some { eng := .plot, al := al, vpn := va / 65536, leaf := l', ea := ea, block := block })))

/-- The faults of the checks of R63, in every memory instruction: what the checks answer is raised with the address in FADDR, before
anything else of the access; and the checks answer, in this order, PATH, SCOPE, ALIGN, and PROT for a write through READONLY. -/
def Sys2Proof.Claims.AccessFaults : Prop :=
  (∀ (q : Bool) (d : BitVec 6) (e p : BitVec 5) (b : BitVec 6) (sx : Bool) (z sc : BitVec 3) (im : BitVec 9) (o c : BitVec 4) (s : State)
    (k : Ctx) (f : FCode), CanRun s k q (pairDst p ++ [.x d, .x (d + 1), .x (d + 2), .x (d + 3), .x b, .x (b + 1)] ++ pairDst e) →
    let g := k.gAddr p z im
    let a := k.t.getA p
    let fails (i : Instr) (op : AccOp) (a : DWord) (size n : Nat) (ak : Acck) : Prop :=
      i.wf = true → checkAcc s k.c op a size n = .error f → Faults i s (k.cued q) f 0 a ak
    fails (.ld q d p sx z im) .ld g (2 ^ z.toNat) 0 .load ∧ fails (.st q d p z im) .st g (2 ^ z.toNat) 0 .store ∧
    fails (.lds q d p sc) .lds a 4 sc.toNat .load ∧ fails (.ldsD q e p sc) .lds a 8 sc.toNat .load ∧
    fails (.sts q d p sc) .sts a 4 sc.toNat .store ∧ fails (.stsD q e p sc) .sts a 8 sc.toNat .store ∧
    fails (.atom q d p b sc o) .atom a 4 sc.toNat .atomic ∧ fails (.atomt q d p e sc) .atom a 4 sc.toNat .atomic ∧
    fails (.red q p b sc o) .atom a 4 sc.toNat .atomic ∧ fails (.waita q d p b sc c) .waita a 4 sc.toNat .load ∧
    fails (.acqp q d p b) .acqp a 4 0 .load ∧ fails (.acqpAll q d p) .acqp a 4 0 .load) ∧
  ∀ (s : State) (c : Cast) (op : AccOp) (a : DWord) (size sc : Nat),
    let sp := classify s.devnum a
    let ok := pathOk s c op sp = true
    let scope := if sp.remote then acbCeil (s.acb c.al) = 5 else acbCtrap (s.acb c.al) = true → sc ≤ acbCeil (s.acb c.al)
    let ro := bitsN a 60 4 = 1
    (5 ≤ bitsN a 60 4 → sp = .bad) ∧ (¬ok → checkAcc s c op a size sc = .error .path) ∧
    (ok → ¬scope → checkAcc s c op a size sc = .error .scope) ∧
    (ok → scope → a.toNat % size ≠ 0 → checkAcc s c op a size sc = .error .align) ∧
    (ok → scope → a.toNat % size = 0 → ro → (op = .st ∨ op = .sts ∨ op = .atom) → checkAcc s c op a size sc = .error .prot) ∧
    (ok → scope → a.toNat % size = 0 → ¬(ro ∧ (op = .st ∨ op = .sts ∨ op = .atom)) → checkAcc s c op a size sc = .ok sp)

/-- An access of LD or ST that is not performed at its issue (R53, R214, R415, R418): behind an earlier access of its thread that it
meets, put off by the device, or after a translation fault. The thread goes on after the word; the access waits in the plot's list
with the operands as they were read at issue, and counts in its class; a load's destinations are pending; and only a translation
fault queues a record, of class 2, unless one of the same plot and page is outstanding. -/
def Sys2Proof.Claims.TranslationFault : Prop :=
  ∀ (q : Bool) (d : BitVec 6) (p : BitVec 5) (z : BitVec 3) (im : BitVec 9) (kind va : Nat) (s : State) (k : Ctx) (sp : Space),
    CanRun s k q (pairDst p ++ (dataRegs z d).map Dst.x) → s.faultQ.length < 256 → (s.plot k.c.plot).logged < 64 →
    k.acquiring s = false → (descDet k.c.desc = 1 → k.holds s = false) →
    let a := k.gAddr p z im
    let known := s.resolv.any (fun e => e.al == k.c.al && e.plot == k.c.plot && e.vpn == va / 65536)
    let held (i : Instr) (dst : List Dst) (kd : HeldKind) (ak : Acck) (late fails : Bool) : Prop :=
      ∃ s' t, exec i s = .next s' ∧ s'.thread? k.r = some t ∧
      t.retired = k.t.retired + 1 ∧ t.st = .ready ∧ t.x = k.t.x ∧
      t.flights = k.t.flights ++ (if dst = [] then [] else
        [{ dst := dst.map (fun d => (d, 0)), op := some k.c.nextOp, src := .held }]) ∧
      (s'.plot k.c.plot).oplog = (s.plot k.c.plot).oplog ++
        [{ id := s.nextHeld, cid := k.r.c, slot := k.r.t, key := k.t.key, dep := k.t.dep, pc := k.t.pc, va := a, size := 2 ^ z.toNat,
           scope := 0, ceil := acbCeil (s.acb k.c.al), kind := kd, acck := ak, op := some k.c.nextOp, late := late }] ∧
      s'.mem = s.mem ∧
      (fails = false ∨ known = true → s'.faultQ = s.faultQ) ∧
      (fails = true → known = false → ∃ r : FaultRec, s'.faultQ = s.faultQ ++ [r] ∧ r.code = .xlate ∧ r.cls = 2 ∧
        r.info.toNat = kind % 2 ^ 32 ∧ r.faddr = a ∧ r.iaddr = k.t.pc ∧ r.key = k.t.key)
    let size := 2 ^ z.toNat
    let waits (i : Instr) (dst : List Dst) (kd : HeldKind) (ak : Acck) (w : Want) : Prop :=
      (k.behind s a size ≠ [] → held i dst kd ak ((k.behind s a size).all Held.late) false) ∧
      (k.behind s a size = [] →
        (resolve s k.c k.r.c sp w .plot = .error (.xlate kind va) → held i dst kd ak false true) ∧
        (s.lag = true → descDet k.c.desc ≠ 1 → (∃ r, resolve s k.c k.r.c sp w .plot = .ok r) → held i dst kd ak true false))
    (∀ sx, (Instr.ld q d p sx z im).wf = true → k.full .ld = false → checkAcc s k.c .ld a size 0 = .ok sp →
      waits (.ld q d p sx z im) ((dataRegs z d).map Dst.x) (.load ((dataRegs z d).map Dst.x) sx) .load .read) ∧
    ((Instr.st q d p z im).wf = true → k.full .st = false → checkAcc s k.c .st a size 0 = .ok sp →
      waits (.st q d p z im) [] (.store (stored k.t d z)) .store .write)

/-- ACQP and ACQP.ALL (R227 to R230): after the checks of R63, a number beyond the allotment's plots raises PLOTID; the requests go to
the targets that hold a context of the allotment; where none does, the load at the home and the acquire at allotment scope follow at
once, pending; else the thread goes on, with the destination pending and the LD count raised, and the access waits for the
completions. The model's choice, not the spec's: the access is counted and its destination pending while its targets are served, and
it loads when the last has answered (log 16). -/
def Obligations.PromotionAcquire : Prop :=
  ∀ (q : Bool) (d : BitVec 6) (p : BitVec 5) (b : BitVec 6) (s s1 : State) (k : Ctx) (sp : Space) (l : Loc) (zr : Bool),
    CanRun s k q (pairDst p ++ [.x b, .x d]) → Reach s k .acqp (k.t.getA p) 4 0 .read .home s1 sp l zr → k.full .ld = false →
    let plots := ((look s.allots k.c.al).map Allot.plots).getD []
    let n := (k.t.getX b).toNat
    let asked (ts : List Nat) : State := ({ s1 with nextReq := s1.nextReq + 1 } : State).request k.c.al s1.nextReq ts
    let all (i : Instr) (ts : List Nat) : Prop :=
      ((asked ts).requested s1.nextReq = false →
        let r := (asked ts).readAt k.c.plot .home l zr 4
        exec i s = .next (retire ((r.1.acquire k.c.plot 3).count k .ld false).2 k
          ((k.cued q).t.pending { dst := [(.x d, BitVec.ofNat 32 r.2)], op := some k.c.nextOp }) (k.after 4) false)) ∧
      ((asked ts).requested s1.nextReq = true → ∃ h : Held, h.kind = .acqpGo s1.nextReq d ∧ h.va = k.t.getA p ∧ h.late = true ∧
        h.op = some k.c.nextOp ∧ exec i s = .next (retire (((asked ts).count k .ld false).2.hold k.c.plot h) k
          ((k.cued q).t.pending { dst := [(.x d, 0)], op := some k.c.nextOp, src := .held }) (k.after 4) false))
    (plots.length ≤ n → exec (.acqp q d p b) s = .next (raiseWith s1 (k.cued q) .plotid 0 0 0 .none)) ∧
    (∀ t, plots[n]? = some t → all (.acqp q d p b) [t]) ∧
    all (.acqpAll q d p) plots ∧
    ∀ t, (s1.plot t).holdsCtx k.c.al = true →
      ((asked [t]).plot t).preqs = (s1.plot t).preqs ++ [{ n := s1.nextReq, al := k.c.al, cut := (s1.plot t).rseq }]

/-- Memory reads back what was written, keeps its form, and equal memories are equal data: `CanonicalMemory` and `ReadAfterStore`. The
model's choice, not the spec's: an unlisted byte of memory reads 0 (log 5). -/
def Obligations.CanonicalMemory : Prop :=
  Sys2Proof.Claims.CanonicalMemory ∧ Sys2Proof.Claims.ReadAfterStore

/-- LD and ST complete with the value at the place of their address: `LoadResults` and `StoreResults`. The model's choice, not the
spec's: whether an access is performed at its issue or later is the agenda's (log 2). -/
def Obligations.LoadStoreResults : Prop :=
  Sys2Proof.Claims.LoadResults ∧ Sys2Proof.Claims.StoreResults

/-- The scoped loads and stores act at their effective scope; scratch accesses stay in their region: `ScopedResults` and
`ScratchAccess`. -/
def Obligations.ScopedResults : Prop :=
  Sys2Proof.Claims.ScopedResults ∧ Sys2Proof.Claims.ScratchAccess

/-- The atomics update the word at their effective scope and return the old value: `AtomicResults`, `AtomicUpdate` and `OrderedAtomics`. -/
def Obligations.AtomicResults : Prop :=
  Sys2Proof.Claims.AtomicResults ∧ Sys2Proof.Claims.AtomicUpdate ∧ Sys2Proof.Claims.OrderedAtomics

/-- The checks of an access, its translation and its ownership, and their faults: `AccessFaults`, `TranslationFault`, `PathTable`,
`PageWalk` and `Translation`. The model's choice, not the spec's: which accesses wait in the operand log and which run again (log
9), where the SCOPE of a trapped clamp stands (log 79), and the order of a leaf's faults (log 96). -/
def Obligations.AccessFaults : Prop :=
  Sys2Proof.Claims.AccessFaults ∧ Sys2Proof.Claims.TranslationFault ∧ Sys2Proof.Claims.PathTable ∧ Sys2Proof.Claims.PageWalk ∧ Sys2Proof.Claims.Translation

/-! ### Waits, barriers, fences -/

/-- WAITA (R237, R238, R344): a value that meets the condition is written at once, not pending, after the acquire; else the thread is
BLOCKED with its registration; either way a switch point in ORDERED mode; and a woken waiter whose word meets the condition by then
completes in the same way, under the ceiling of its issue (R425) and, in ORDERED mode, between steps. The model's choice, not the
spec's: the clamp is counted at the first load of the WAITA (log 16). -/
def Obligations.WaitResults : Prop :=
  ∀ (q : Bool) (d : BitVec 6) (p : BitVec 5) (b : BitVec 6) (sc : BitVec 3) (c : BitVec 4) (s s1 : State) (k : Ctx) (sp : Space) (l : Loc)
    (zr : Bool), sc.toNat < 6 → c.toNat < 4 →
    let a := k.t.getA p
    let x := k.t.getX b
    let holds (v : Word) : Prop := match c.toNat with
      | 0 => v = x | 1 => v ≠ x | 2 => x.toNat ≤ v.toNat | _ => v.toNat < x.toNat
    let scope (ceil : Nat) : Nat := if sp.remote then 5 else min sc.toNat ceil
    let view (e : Nat) : View := if e < 2 then .plot else .home
    let ceil := acbCeil (s.acb k.c.al)
    let sc' := scope ceil
    let r := s1.readAt k.c.plot (view sc') l zr 4
    let v : Word := BitVec.ofNat 32 r.2
    (CanRun s k q (pairDst p ++ [.x b, .x d]) → Reach s k .waita a 4 sc.toNat .read (view sc') s1 sp l zr →
      let s2 := r.1.countClamp k.r.c k.crewN (!sp.remote && decide (ceil < sc.toNat))
      (holds v → exec (.waita q d p b sc c) s =
        .next ((retire (s2.acquire k.c.plot sc') k ((k.cued q).t.setX d v) (k.after 4) false).switch k)) ∧
      (¬holds v → s.oracle = [] → ∃ s' w, exec (.waita q d p b sc c) s = .next s' ∧
        s'.thread? k.r = some { (k.cued q).t with st := .blocked (.waita w) } ∧
        w = { addr := a, loc := l, scope := sc, ceil := ceil, cond := c, cmp := x, d := d })) ∧
    (∀ w : Waiter, s.ctxAt k.r = some k → k.t.st = .blocked (.waita w) → w.woken = true → k.holds s = false →
      s.midStep k.c = false → w.addr = a → w.scope = sc → w.cond = c → w.cmp = x → w.d = d → classify s.devnum a = sp →
      ∀ s2 l2 z2, resolve s k.c k.r.c sp .read (view (scope w.ceil)) .sync = .ok (s2, l2, z2) →
      let r := s2.readAt k.c.plot (view (scope w.ceil)) l2 z2 4
      let v : Word := BitVec.ofNat 32 r.2
      holds v → exec (.waitaWake k.r.c k.r.t) s =
        .next (retire (r.1.acquire k.c.plot (scope w.ceil)) k (k.t.setX d v) (k.after 4) false))

/-- BAR (R241 to R243): the count is checked against SLOTS and against a fixed CNT; an arrival is counted, ARRIVE goes on and SYNC
waits; the last arrival, once every arriving thread's accesses are performed, lets every thread that waits on the generation go on
and begins the next; one that comes while a full generation still waits for its accesses tries again later; a WAIT does not arrive.
Where the first arrival fixes a count, a WAIT that is blocked with another one raises BARCNT. The model's choice, not the spec's: an
arrival that comes while a full generation waits for its arrivers' accesses waits for its completion (log 77). -/
def Obligations.BarrierResults : Prop :=
  ∀ (q : Bool) (n : BitVec 4) (a : BitVec 6) (s : State) (k : Ctx), CanRun s k q [.x a] →
    let c := k.t.getX a
    let b := k.c.bars[n.toNat]
    let bad := c = 0 ∨ descSlots k.c.desc < c.toNat ∨ (b.cnt ≠ 0 ∧ b.cnt ≠ c)
    let quiet := b.cnt ≠ 0 ∨ ∀ i t w e, look k.c.threads i = some t → t.st = .blocked (.barrier n.toNat b.gen w e) → w = c
    let uniq := (k.c.threads.map Prod.fst).Nodup
    let arrival (i : Instr) : Prop := i = .barArrive q n a ∨ i = .barSync q n a
    (bad → Faults (.barArrive q n a) s (k.cued q) .barcnt 0 0 .none ∧ Faults (.barWait q n a) s (k.cued q) .barcnt 0 0 .none ∧
      Faults (.barSync q n a) s (k.cued q) .barcnt 0 0 .none) ∧
    (¬bad → ∃ s', exec (.barWait q n a) s = .next s' ∧
      s'.thread? k.r = some { (k.cued q).t with st := .blocked (.barrier n.toNat b.gen c true) } ∧
      (look s'.casts k.r.c).map Cast.bars = some k.c.bars) ∧
    (¬bad → k.acquiring s = false → b.cnt ≠ 0 → b.arr = c.toNat → ∀ i, arrival i →
      exec i s = .next (s.setThread k.r { (k.cued q).t with st := .blocked .issue })) ∧
    (¬bad → uniq → quiet → k.acquiring s = false → b.arr + 1 < c.toNat →
      (∃ s' t c', exec (.barArrive q n a) s = .next s' ∧ s'.thread? k.r = some t ∧ t.st = .ready ∧ t.retired = k.t.retired + 1 ∧
        look s'.casts k.r.c = some c' ∧ c'.bars[n.toNat].cnt = c ∧ c'.bars[n.toNat].arr = b.arr + 1 ∧ c'.bars[n.toNat].gen = b.gen) ∧
      (∃ s' c', exec (.barSync q n a) s = .next s' ∧
        s'.thread? k.r = some { (k.cued q).t with st := .blocked (.barrier n.toNat b.gen c false) } ∧
        look s'.casts k.r.c = some c' ∧ c'.bars[n.toNat].cnt = c ∧ c'.bars[n.toNat].arr = b.arr + 1 ∧ c'.bars[n.toNat].gen = b.gen)) ∧
    (¬bad → uniq → ¬quiet → k.acquiring s = false → ∀ i, arrival i → ∃ j t w e, look k.c.threads j = some t ∧
      t.st = .blocked (.barrier n.toNat b.gen w e) ∧ w ≠ c ∧ exec i s = .next (raiseWith s ⟨⟨k.r.c, j⟩, k.c, t⟩ .barcnt 0 0 0 .none)) ∧
    (¬bad → uniq → quiet → b.arr + 1 = c.toNat → k.held s = [] → k.cellsOf s = [] → (∀ h ∈ (s.plot k.c.plot).oplog, h.id ∉ b.by_) →
      (∀ w ∈ (s.plot k.c.plot).mxws, w.seq ∉ b.cells) → (∀ e ∈ k.c.threads, ∀ r ∈ e.2.cellReads, r.1 ∉ b.cells) →
      ∀ i, arrival i → ∃ s' c' me, exec i s = .next s' ∧ s'.thread? k.r = some me ∧
        me.st = .ready ∧ me.retired = k.t.retired + 1 ∧ look s'.casts k.r.c = some c' ∧
        c'.bars[n.toNat] = { gen := b.gen + 1 } ∧
        ∀ j t w e, j ≠ k.r.t → look k.c.threads j = some t → t.st = .blocked (.barrier n.toNat b.gen w e) →
          ∃ t', s'.thread? ⟨k.r.c, j⟩ = some t' ∧ t'.st = .ready ∧ t'.retired = t.retired + 1)

/-- WAITC (R65, R137, R212, R217, R224, R236, R244, R280, R425): the thread waits while the class counter is above the threshold, then,
with a release side, for its accesses of memory and of cells, with an acquire side for its reads (R283), and behind an acquire, and
keeps the ceiling of its issue; then the release side, then the acquire side, at the scope under that ceiling; a scope above the
ceiling raises SCOPE at the issue where clamps trap. A release side of the ST class and an acquire side at allotment scope end the
hiding of the thread's own stores. -/
def Sys2Proof.Claims.FenceResults : Prop :=
  ∀ (q : Bool) (c : BitVec 2) (n : BitVec 6) (sc : BitVec 3) (r u : Bool) (s : State) (k : Ctx), CanRun s k q [] →
    (Instr.waitc q c n sc r u).wf = true →
    let ceil := match k.t.wceil with | some x => x | none => acbCeil (s.acb k.c.al)
    let above := (r || u) && decide (ceil < sc.toNat)
    let traps := above = true ∧ acbCtrap (s.acb k.c.al) = true ∧ k.t.wceil = none
    let cls : OpClass := match c.toNat with | 0 => .ld | 1 => .st | 2 => .cp | _ => .mx
    let waits := n.toNat < (k.crew.ops.filter (fun o => o.cls == cls)).length ∨ (r = true ∧ k.busy s = true) ∨
      (u = true ∧ ((∃ h ∈ k.held s, h.kind.reads = true) ∨ k.t.cellReads ≠ [])) ∨ k.acquiring s = true
    let sc' := min sc.toNat ceil
    let p := k.c.plot
    (traps → Faults (.waitc q c n sc r u) s (k.cued q) .scope 0 0 .none) ∧
    (¬traps → waits → exec (.waitc q c n sc r u) s = .next (s.setThread k.r { (k.cued q).t with st := .blocked (.waitc ceil) })) ∧
    (¬traps → ¬waits →
      let s1 := s.countClamp k.r.c k.crewN above
      let s2 := if r then (if sc' = 1 then (s1.promoBegin p).promoEnd p else s1.release p sc') else s1
      let s3 := if u then s2.acquire p sc' else s2
      let s4 := if u ∧ 3 ≤ sc' then s3.onPlot p (fun q => { q with roc := [], ic := [] }) else s3
      let marked := if 3 ≤ sc' ∧ r = true ∧ cls = .st then k.t.own.map (fun o => { o with rel := true }) else k.t.own
      let own := if 3 ≤ sc' ∧ u = true then marked.filter (fun o => !o.rel) else marked
      exec (.waitc q c n sc r u) s = .next (retire s4 k { (k.cued q).t with own := own } (k.after 4) false))

/-- A release and an acquire (R217): from die scope on a release leaves no dirty line in the plot's cache and no entry in its log, an
acquire leaves no line at all; below die scope neither does anything. -/
def Sys2Proof.Claims.ReleaseAcquire : Prop :=
  ∀ (s : State) (p sc : Nat),
    (sc < 2 → s.release p sc = s ∧ s.acquire p sc = s) ∧
    (2 ≤ sc → ((s.release p sc).plot p).log = [] ∧ (∀ l ∈ ((s.release p sc).plot p).cache, l.dirty = 0) ∧
      ((s.release p sc).plot p).cache.map Line.n = (s.plot p).cache.map Line.n ∧ ((s.acquire p sc).plot p).cache = []) ∧
    (((s.promoBegin p).promoEnd p).plot p).rseq = (s.plot p).rseq + 1 ∧
    (((s.promoBegin p).promoEnd p).plot p).log.getLast? = some ((s.plot p).rseq + 1) ∧
    ((s.plot p).log.length < 32 → (((s.promoBegin p).promoEnd p).plot p).log = (s.plot p).log ++ [(s.plot p).rseq + 1])

/-! ### EMIT -/

/-- EMIT (R29, R30, R33, R245, R466): EMITFULL at the region's capacity; a record above a live or a deferred key, above a buffered
record, or behind a commit write that waits, goes to the emit buffer, with its sort key, and the thread goes on; where the buffer
holds 256 records the thread stalls, and nothing is accepted; any other record is committed at once. Where its commit write meets a
translation fault the write waits in the operand log and the record takes no entry of the buffer; the thread waits while the page is
under migration. -/
def Sys2Proof.Claims.EmitResults : Prop :=
  ∀ (q : Bool) (a b : BitVec 6) (s : State) (k : Ctx), CanRun s k q [.x a, .x b] →
    let waits (r : EmitRec) : Prop :=
      k.c.lowerLives k.t.key k.t.dep.toNat = true ∨ (∃ x ∈ k.c.ebuf, x.lt r = true) ∨ s.commitHeld k.r.c k.c = true
    let cap := byteN k.c.desc 56 4
    let r : EmitRec := { key := k.t.key, dep := k.t.dep, ord := k.t.retired.toNat, w0 := k.t.getX a, w1 := k.t.getX b, slot := k.r.t,
                         pc := k.t.pc }
    (cap ≤ k.c.accepted → Faults (.emit q a b) s (k.cued q) .emitfull 0 0 .none) ∧
    (k.c.accepted < cap → waits r → s.emitUsed k.c.plot < 256 →
      exec (.emit q a b) s = .next (retire (s.onCast k.r.c (fun c => { c with accepted := c.accepted + 1, ebuf := c.ebuf ++ [r] })) k
        (k.cued q).t (k.after 4) false)) ∧
    (k.c.accepted < cap → waits r → 256 ≤ s.emitUsed k.c.plot →
      exec (.emit q a b) s = .next ((s.setThread k.r { (k.cued q).t with st := .blocked .emit }).switch k)) ∧
    (∀ s1, k.c.accepted < cap → ¬waits r → s.commit k.r.c k.c r = .ok s1 →
      exec (.emit q a b) s = .next (retire (s1.onCast k.r.c (fun c => { c with accepted := c.accepted + 1 })) k (k.cued q).t
        (k.after 4) false)) ∧
    (∀ n va x, k.c.accepted < cap → ¬waits r → s.commit k.r.c k.c r = .error (.xlate n va, x) → (s.plot k.c.plot).logged < 64 →
      s.faultQ.length < 256 → exec (.emit q a b) s = .next (retire ((s.commitStop k.r.c k.c r (.xlate n va) x).onCast k.r.c
        (fun c => { c with accepted := c.accepted + 1, ebuf := c.ebuf ++ [{ r with direct := true }] })) k (k.cued q).t (k.after 4) false)) ∧
    ∀ va x, k.c.accepted < cap → ¬waits r → s.commit k.r.c k.c r = .error (.migrating va, x) →
      exec (.emit q a b) s = .next (s.setThread k.r { (k.cued q).t with st := .blocked .issue })

/-- A committed record (R29, R32, R33, R246): the two words at the region's next entry, then the count that includes it, each through
the plot's own view of memory; and in a CHECKED cast the record is folded into the digest. -/
def Sys2Proof.Claims.CommitRecord : Prop :=
  ∀ (s s1 s2 : State) (n pa pb : Nat) (z1 z2 : Bool) (c : Cast) (r : EmitRec), look s.casts n = some c →
    let base := byteN c.desc 48 8 + c.ix * byteN c.desc 36 4
    let entry : DWord := BitVec.ofNat 64 (base + 8 + 8 * c.committed)
    access s c.plot c.al (bitsN entry 0 48) .write .plot = .ok (s1, pa, z1) →
    access (s1.putHome c.plot .plot pa 8 (r.w0.toNat + 2 ^ 32 * r.w1.toNat)) c.plot c.al (base % 2 ^ 48) .write .plot = .ok (s2, pb, z2) →
    ∃ s' c', s.commit n c r = .ok s' ∧ look s'.casts n = some c' ∧ c'.committed = c.committed + 1 ∧
      (descDet c.desc ≠ 2 → byteN c.desc 104 8 = 0 → c'.digest = c.digest) ∧
      (descDet c.desc = 2 → c'.digest = c.digest + crc64 (natBytes 8 entry.toNat ++ [8] ++
        natBytes 8 (r.w0.toNat + 2 ^ 32 * r.w1.toNat))) ∧
      s'.mem = (s2.putHome c.plot .plot pb 8 (c.committed + 1)).mem ∧
      s'.plots = (s2.putHome c.plot .plot pb 8 (c.committed + 1)).plots

/-! ### Copies, cells, reels -/

/-- CPY, CPYS and SLINV (R250 to R253): the two slates, read through the slate cache, that satisfy R250 put a copy at the end of the
plot's engine, with MODE and the completion value as they are at issue; a slate that does not raises SLATE with its address; SLINV
drops the slate from the slate cache. The model's choice, not the spec's: a slate address of the device's own remote form is refused
(log 22). -/
def Obligations.CopyIssue : Prop :=
  ∀ (q : Bool) (d a : BitVec 5) (b : BitVec 6) (s s1 s2 : State) (k : Ctx) (sp dp : Space) (sr dr : BitVec 512),
    CanRun s k q (pairDst d ++ pairDst a ++ [.x b]) →
    let sa := k.t.getA a
    let da := k.t.getA d
    checkAcc s k.c .ctrl sa 64 0 = .ok sp →
    exec (.slinv q a) s = .next (retire (s.onPlot k.c.plot (fun q => { q with slates := q.slates.filter (fun e => e.1 != sa) })) k
      (k.cued q).t (k.after 4) false) ∧
    (checkAcc s k.c .ctrl da 64 0 = .ok dp → slateWait s k sa = false → slateWait s k da = false →
      readSlate s (k.cued q) sa sp.va = .ok (s1, sr) → readSlate s1 (k.cued q) da dp.va = .ok (s2, dr) →
      let S := slateOf sr
      let D := slateOf dr
      let ro := !D.isReel && (match classify s2.devnum D.base with | .ro _ => true | _ => false)
      let entry (v : Option Word) : Copy :=
        { seq := s2.nextReq, cid := k.r.c, slot := k.r.t, op := k.c.nextOp, pc := k.t.pc, mode := k.crew.mode, key := k.t.key, dep := k.t.dep,
          ord := k.t.retired.toNat, src := sr, dst := dr, srcA := sa, dstA := da, cval := v, entry := none, begun := false,
          started := false }
      let queued (i : Instr) (v : Option Word) : Prop := exec i s = .next (retire (({ (s2.count k .cp false).2 with nextReq := s2.nextReq + 1 } : State).onPlot k.c.plot
        (fun q => { q with copies := q.copies ++ [entry v] })) k (k.cued q).t (k.after 4) false)
      let fails (code : FCode) (x : DWord) : Prop := ∀ i, i = .cpy q d a ∨ i = .cpys q d a b →
        exec i s = .next (raiseWith s2 (k.cued q) code 0 0 x .slate)
      (slateValid s2 k.c false S = false → fails .slate sa) ∧
      (slateValid s2 k.c false S = true → slateValid s2 k.c true D = false → fails .slate da) ∧
      (slateValid s2 k.c false S = true → slateValid s2 k.c true D = true →
        (ro = true → fails .prot da) ∧
        (ro = false → ¬(D.cwoff % 4 = 0 ∧ D.cwoff < 32768 * descScnt k.c.desc) →
          exec (.cpys q d a b) s = .next (raiseWith s2 (k.cued q) .slate 0 0 da .slate)) ∧
        (ro = false → k.full .cp = false →
          queued (.cpy q d a) none ∧
          (D.cwoff % 4 = 0 → D.cwoff < 32768 * descScnt k.c.desc → queued (.cpys q d a b) (some (k.t.getX b))))))

/-- MXR, MXRN and MXW (R274, R275, R276, R283, R289): an operand that names no cell of a tile of the cast raises MXCMD; behind an acquire
each waits; with no command that writes the tile in any script, and no earlier access of the cell by its thread still to come, MXR's
result is pending with the cell's value, and else it waits for them; MXRN's is the value at its return; and MXW takes effect. -/
def Obligations.CellResults : Prop :=
  ∀ (q : Bool) (d a : BitVec 6) (t : BitVec 3) (s : State) (k : Ctx), CanRun s k q [.x a, .x d] →
    let v := k.t.getX a
    let legal := v.toNat < 2 ^ 14 ∧ t.toNat < descAcnt k.c.desc
    let tile := k.c.tiles.getD t.toNat 8
    let cell := tile * 16384 + v.toNat % 128 * 128 + v.toNat / 128
    let p := k.c.plot
    let now := (look (s.plot p).tiles cell).getD 0
    let s1 : State := { s with nextReq := s.nextReq + 1 }
    let first := s1.writers p tile = [] ∧ (∀ r ∈ k.t.cellReads, r.1 < s.nextReq → r.2 ≠ cell) ∧ ∀ w ∈ k.cellWrites s, w.cell ≠ cell
    (¬legal → Faults (.mxr q d a t) s (k.cued q) .mxcmd 0 0 .none ∧ Faults (.mxrn q d a t) s (k.cued q) .mxcmd 0 0 .none ∧
      Faults (.mxw q d a t) s (k.cued q) .mxcmd 0 0 .none) ∧
    (legal → k.acquiring s = true → ∀ i, i = Instr.mxr q d a t ∨ i = .mxrn q d a t ∨ i = .mxw q d a t →
      exec i s = .next (s.setThread k.r { (k.cued q).t with st := .blocked .order })) ∧
    (legal → k.acquiring s = false →
      (first → exec (.mxr q d a t) s = .next (retire s1 k ((k.cued q).t.pending { dst := [(.x d, now)] }) (k.after 4) false)) ∧
      (¬first → exec (.mxr q d a t) s = .next (retire s1 k
        ((k.cued q).t.pending { dst := [(.x d, now)], src := .mxr s.nextReq cell (s1.writers p tile) }) (k.after 4) false)) ∧
      exec (.mxrn q d a t) s = .next (retire s1 k ((k.cued q).t.pending { dst := [(.x d, now)], src := .mxrn s.nextReq cell })
        (k.after 4) false) ∧
      (s.writers p tile = [] → (s.plot p).mxws = [] → (∀ e ∈ k.c.threads, ∀ r ∈ e.2.cellReads, r.2 ≠ cell) →
        ∃ s' me, exec (.mxw q d a t) s = .next s' ∧ s'.thread? k.r = some me ∧
          me.retired = k.t.retired + 1 ∧ me.st = .ready ∧ me.x = k.t.x ∧ look (s'.plot p).tiles cell = some (k.t.getX d) ∧
          (∀ c, c ≠ cell → look (s'.plot p).tiles c = look (s.plot p).tiles c) ∧ (s'.plot p).mxws = []))

/-- The four events of a reel (R80): a reserve waits for FREE > 0 and takes the entry at PIX; a publish takes effect in reservation
order; a take waits for FULL > 0 and takes the entry at CIX; a release takes effect in take order. -/
def Sys2Proof.Claims.ReelEvents : Prop :=
  ∀ (r : Reel) (e f : Nat), e ≠ f →
    (r.free = 0 → r.reserve = none) ∧
    (0 < r.free → r.reserve = some (r.pix,
      { r with free := r.free - 1, pix := (r.pix + 1) % r.nent, resq := r.resq ++ [(r.pix, false)] })) ∧
    (r.full = 0 → r.take = none) ∧
    (0 < r.full → r.take = some (r.cix,
      { r with full := r.full - 1, cix := (r.cix + 1) % r.nent, takq := r.takq ++ [(r.cix, false)] })) ∧
    (r.resq = [(e, false), (f, false)] → (r.publish e).full = r.full + 1 ∧ (r.publish f).full = r.full ∧
      ((r.publish f).publish e).full = r.full + 2) ∧
    (r.takq = [(e, false), (f, false)] → (r.release e).free = r.free + 1 ∧ (r.release f).free = r.free ∧
      ((r.release f).release e).free = r.free + 2)

/-- RTAKE, RTAKE.RES, RGIVE.PUB and RGIVE.REL (R80, R260 to R262, R344): SLATE for a reel that is not enabled; after the plot's engines
and any waiting thread of a lower slot, the entry's path-tagged address to the pair and the entry held, or a wait, a switch point
either way; and the publish or release of an entry that a thread holds so, else SLATE. -/
def Sys2Proof.Claims.ReelResults : Prop :=
  ∀ (q : Bool) (d b : BitVec 5) (r : BitVec 2) (s : State) (k : Ctx), CanRun s k q (pairDst d ++ pairDst b) →
    let w := k.c.reels[r.toNat]
    let p := k.t.getA b
    let entry (w : Reel) (e : Nat) : DWord := BitVec.ofNat 64 ((if w.space then 4 else 3) * 2 ^ 60 + w.base + e * w.esz)
    let keep (s : State) (w : Reel) : State := s.onCast k.r.c (fun c => c.setReel r.toNat w)
    let E (res : Bool) : State := s.engineFirst res k.r.c r.toNat
    let first (res : Bool) : Prop := ∀ i t, (i, t) ∈ k.c.threads → i < k.r.t → ∀ d', t.st ≠ .blocked (.rtake res r.toNat d')
    let took (i : Instr) (res : Bool) (w : Reel) (e : Nat) : Prop :=
      exec i s = .next ((retire (keep (E res) w) k ((k.cued q).t.setA d (entry w e)) (k.after 4) false).switch k)
    let waits (i : Instr) (res : Bool) : Prop :=
      exec i s = .next (((E res).setThread k.r { (k.cued q).t with st := .blocked (.rtake res r.toNat d) }).switch k)
    (w = none → Faults (.rtake q d r) s (k.cued q) .slate 0 0 .none ∧ Faults (.rtakeRes q d r) s (k.cued q) .slate 0 0 .none ∧
      Faults (.rgivePub q r b) s (k.cued q) .slate 0 0 .none ∧ Faults (.rgiveRel q r b) s (k.cued q) .slate 0 0 .none) ∧
    (w.isSome → k.acquiring s = false → ∀ (res : Bool) (i : Instr), i = (if res then .rtakeRes q d r else .rtake q d r) →
      ∀ c x, look (E res).casts k.r.c = some c → c.reels[r.toNat] = some x →
        (¬first res → waits i res) ∧
        ((if res then x.reserve else x.take) = none → waits i res) ∧
        (first res → ∀ e y, (if res then x.reserve else x.take) = some (e, y) →
          took i res { y with held := y.held ++ [(e, !res)] } e)) ∧
    ((s.plot k.c.plot).copies = [] → (s.plot k.c.plot).script = [] → E true = s ∧ E false = s) ∧
    ∀ x : Reel, w = some x →
      ((∀ e, (e, false) ∈ x.held → entry x e ≠ p) → Faults (.rgivePub q r b) s (k.cued q) .slate 0 0 .none) ∧
      ((∀ e, (e, true) ∈ x.held → entry x e ≠ p) → Faults (.rgiveRel q r b) s (k.cued q) .slate 0 0 .none) ∧
      (∀ e rel, x.held = [(e, rel)] → entry x e = p →
        (rel = false → k.busy s = false →
          exec (.rgivePub q r b) s = .next (retire (keep s ({ x with held := [] }.publish e)) k (k.cued q).t (k.after 4) false)) ∧
        (rel = true →
          exec (.rgiveRel q r b) s = .next (retire (keep s ({ x with held := [] }.release e)) k (k.cued q).t (k.after 4) false)))

/-- WAITC waits for its class and then releases and acquires: `FenceResults` and `ReleaseAcquire`. The model's choice, not the spec's: a
wider scope, or both sides in one WAITC, end the hiding of own stores too (log 78), and the SCOPE of a trapped clamp comes before
the counter wait (log 79). -/
def Obligations.FenceResults : Prop :=
  Sys2Proof.Claims.FenceResults ∧ Sys2Proof.Claims.ReleaseAcquire

/-- EMIT buffers, stalls, or commits its record: `EmitResults` and `CommitRecord`. The model's choice, not the spec's: commit writes go
to the plot's cache and are seen at its write-back (log 14); COUNT is written with a committed record only (log 80). -/
def Obligations.EmitResults : Prop :=
  Sys2Proof.Claims.EmitResults ∧ Sys2Proof.Claims.CommitRecord

/-- RTAKE and RGIVE move reel entries in their order: `ReelResults` and `ReelEvents`. -/
def Obligations.ReelResults : Prop :=
  Sys2Proof.Claims.ReelResults ∧ Sys2Proof.Claims.ReelEvents

/-- RECORD_COMMIT, BARRIER_COMPLETE, REEL_RESERVE and REEL_TAKE (R30, R32, R80, R242, R261): the lowest buffered record commits and
leaves the buffer, in ORDERED mode between steps, where no bad word of its cast's storage is read; a generation whose last arrival
has come, and whose arriving threads have performed the accesses that they had issued before, completes; and the waiting thread with
the lowest slot is served, after the plot's engines and in ORDERED mode between steps (R356). The model's choice, not the spec's:
commit writes go to the plot's cache (log 14); COUNT is written with a committed record only (log 80). -/
def Obligations.WaitEvents : Prop :=
  ∀ (s : State) (n : Nat) (c : Cast), look s.casts n = some c →
    (∀ (r : EmitRec) (s1 : State), r ∈ c.ebuf → (∀ x ∈ c.ebuf, x ≠ r → r.lt x = true ∧ x.lt r = false) →
      committable s n c r = true → s.midStep c = false → s.readsBad c = (0, s) → s.commit n c r = .ok s1 →
      exec (.recordCommit n) s = .next ((s1.onCast n (fun k => { k with ebuf := k.ebuf.erase r })).retry c.plot Wait.emitRoom)) ∧
    (∀ b : Fin 16, (c.threads.map Prod.fst).Nodup → c.bars[b].cnt ≠ 0 → c.bars[b].arr = c.bars[b].cnt.toNat →
      (∀ h ∈ (s.plot c.plot).oplog, h.id ∉ c.bars[b].by_) → (∀ w ∈ (s.plot c.plot).mxws, w.seq ∉ c.bars[b].cells) →
      (∀ e ∈ c.threads, ∀ r ∈ e.2.cellReads, r.1 ∉ c.bars[b].cells) →
      ∃ s' c', exec (.barrierComplete n b) s = .next s' ∧ look s'.casts n = some c' ∧
        c'.bars[b] = { gen := c.bars[b].gen + 1 } ∧
        ∀ j t w e, look c.threads j = some t → t.st = .blocked (.barrier b c.bars[b].gen w e) →
          ∃ t', s'.thread? ⟨n, j⟩ = some t' ∧ t'.st = .ready ∧ t'.retired = t.retired + 1) ∧
    ∀ (r : Fin 4) (i : Nat) (t : Thread) (d : BitVec 5) (res : Bool) (c1 : Cast) (x y : Reel) (e : Nat), c.reels[r] ≠ none →
      (∀ m ∈ s.casts, m.2.plot = c.plot → m.2.reels[r] ≠ none → m.1 = n) → (n, c) ∈ s.casts → s.midStep c = false →
      let s1 := s.engineFirst res n r
      look s1.casts n = some c1 → c1.reels[r] = some x → (i, t) ∈ c1.threads → t.st = .blocked (.rtake res r d) →
      (∀ m ∈ c1.threads, m ≠ (i, t) → ∀ d', m.2.st = .blocked (.rtake res r d') → i < m.1) →
      (if res then x.reserve else x.take) = some (e, y) →
      exec (if res then .reelReserve c.plot r else .reelTake c.plot r) s =
        .next (retire (s1.onCast n (fun c => c.setReel r { y with held := y.held ++ [(e, !res)] })) ⟨⟨n, i⟩, c1, t⟩
          (t.setA d (BitVec.ofNat 64 ((if y.space then 4 else 3) * 2 ^ 60 + y.base + e * y.esz))) (Ctx.after ⟨⟨n, i⟩, c1, t⟩ 4) false)

/-! ### Graph instructions -/

/-- BIND, BIND.WB, GRUN, GSTOP and GSTAT (R331, R332, R414): after the check of the descriptor's address and, for the first three, the
release at allotment scope, and while no page of the allotment is under migration, the request goes by the table of R332: a refused
one raises GBUSY, an accepted one completes, and GSTAT returns the state code and PERDONE. A graph that the dispatcher has never
seen is UNBOUND; the STATUS that a binding clears at once and the free PERDONE of such a graph, which it keeps when it binds, are
the model's choices (logs 31 and 90). The model's choice, not the spec's: PERDONE of a graph that no binding has succeeded for is a
free value (logs 3 and 90), BIND writes STATUS 0 at its acceptance (log 31), and a ring that cannot be read fails a GRUN (log 92). -/
def Obligations.GraphWords : Prop :=
  ∀ (q : Bool) (d a : BitVec 5) (b : BitVec 6) (s s1 : State) (k : Ctx) (sp : Space) (l : Loc) (z : Bool) (A : Allot),
    CanRun s k q (pairDst a ++ [.x (evenReg d), .x (oddReg d), .x b]) →
    checkAcc s k.c .ctrl (k.t.getA a) 64 0 = .ok sp → resolve s k.c k.r.c sp .read = .ok (s1, l, z) →
    let al := k.c.al
    let va := bitsN (k.t.getA a) 0 48
    let r := s1.release k.c.plot 3
    look r.allots al = some A →
    let ends (t : State) : Out := .next (retire t k (k.cued q).t (k.after 4) false)
    let busy (i : Instr) (t : State) : Prop := exec i s = .next (raiseWith t (k.cued q) .gbusy 0 0 0 .none)
    let free := k.acquiring s = false ∧ s.migrating al = false
    let full := 32 ≤ (A.graphs.filter (fun g => g.st != .unbound)).length
    let binds (i : Instr) (g : Nat) : Prop :=
      exec i s = ends ((r.onGraph al g (fun x => { x with st := .binding })).gstatus al va 0)
    (k.busy s = false → free → r.graphAt al va = none →
      (full → busy (.bind q a) r ∧ busy (.bindWb q a) r) ∧
      (¬full → ∀ i, i = .bind q a ∨ i = .bindWb q a → exec i s =
        ends ((({ r with freeCtr := r.freeCtr + 1 } : State).onAllot al (fun x => { x with graphs := x.graphs ++
          [{ addr := va, st := .binding, perdone := BitVec.ofNat 32 (Config.freeValue r.freeCtr) }] })).gstatus al va 0)) ∧
      busy (.grun q a b) r) ∧
    (k.behind s (k.t.getA a) 64 = [] → free → s1.graphAt al va = none →
      exec (.gstop q a) s = ends s1 ∧
      ∃ v : Word, exec (.gstat q d a) s = .next (retire { s1 with freeCtr := s1.freeCtr + 1 } k
        (((k.cued q).t.setX (evenReg d) 0).setX (oddReg d) v) (k.after 4) false)) ∧
    ∀ (g : Nat) (x : Graph),
      (k.busy s = false → free → r.graphAt al va = some g → r.graph? al g = some x →
        (x.st = .bound ∨ x.st = .failed ∨ (x.st = .unbound ∧ ¬full) → binds (.bind q a) g ∧ binds (.bindWb q a) g) ∧
        (x.st = .unbound → full → busy (.bind q a) r ∧ busy (.bindWb q a) r) ∧
        (x.st = .binding ∨ x.st = .running ∨ x.st = .stopping ∨ x.st = .rebinding → busy (.bind q a) r) ∧
        (x.st = .binding ∨ x.st = .stopping ∨ x.st = .rebinding → busy (.bindWb q a) r) ∧
        (x.st = .running →
          exec (.bindWb q a) s = ends (r.onGraph al g (fun x => { x.stopNow with st := .rebinding }))) ∧
        (x.st ≠ .bound → busy (.grun q a b) r) ∧
        (x.st = .bound → exec (.grun q a b) s = ends ((r.runGraph al g (k.t.getX b).toNat 0x80000013).onGraph al g (fun x =>
          if x.st = .running then { x with ctxQ := k.c.qn, ctxSubn := ((look r.scenes k.c.scene).map Scene.subn).getD 0 } else x)))) ∧
      (k.behind s (k.t.getA a) 64 = [] → free → s1.graphAt al va = some g → s1.graph? al g = some x →
        exec (.gstat q d a) s = .next (retire s1 k (((k.cued q).t.setX (evenReg d) (match x.st with
          | .unbound => 0 | .binding => 1 | .bound => 2 | .running => 3 | .stopping => 4 | .rebinding => 5 | .failed => 6)).setX
            (oddReg d) x.perdone) (k.after 4) false) ∧
        (x.st = .binding ∨ x.st = .rebinding ∨ x.st = .failed → busy (.gstop q a) s1) ∧
        (x.st = .unbound ∨ x.st = .stopping ∨ (x.st = .bound ∧ x.runw ≠ 1 ∧ x.runw ≠ 2) → exec (.gstop q a) s = ends s1) ∧
        (x.st = .running ∨ (x.st = .bound ∧ (x.runw = 1 ∨ x.runw = 2)) →
          exec (.gstop q a) s = ends (s1.onGraph al g (fun x => { x.stopNow with st := .stopping, eosPos := 0 }))))

/-! ### Collectives -/

namespace Sys2Proof.Machine

/-- The state in which the thread `k` has arrived at the collective `i` with the operands `vals` and its ceiling (R203, R425). -/
def Ctx.arrives (k : Ctx) (q : Bool) (s : State) (i : Instr) (vals : List Word) : State :=
  s.setThread k.r { (k.cued q).t with st := .blocked (.collective { instr := i, vals := vals, ceil := acbCeil (s.acb k.c.al) }) }

/-- The state in which the thread `k` has arrived and the set `fx` is fixed (R36). -/
def Ctx.gathered (k : Ctx) (q : Bool) (s : State) (i : Instr) (vals : List Word) (fx : FixedSet) : State :=
  (k.arrives q s i vals).markFixed k.r.c fx

/-- The arrival of the thread `k` at `i` is the last that its set waited for: the set is fixed as `fx`, the only one of its crew in this
cycle (R35, R36), and `low`, its lowest participant, stands at `i` too; in ORDERED mode the step has ended. -/
def Ctx.gathers (k : Ctx) (q : Bool) (s : State) (i : Instr) (vals : List Word) (fx : FixedSet) (low : Ctx) : Prop :=
  let t := k.arrives q s i vals
  let m := k.gathered q s i vals fx
  (∀ c, look t.casts k.r.c = some c → t.midStep c = false) ∧ t.readyGroups k.r.c k.crewN = [fx] ∧
    m.ctxAt ⟨k.r.c, fx.parts.headD 0⟩ = some low ∧ (∃ a, low.t.st = .blocked (.collective a) ∧ a.instr = i) ∧
    collHeld m low fx = false

/-- node(j, m) of the reduction tree of R209, with the flags of its steps. -/
def treeNode (op : Nat) (m : Word) (v : Nat → Option Word) : Nat → Nat → Option Word × Word
  | 0, l => (v l, 0)
  | j + 1, l =>
    let a := treeNode op m v j (2 * l)
    let b := treeNode op m v j (2 * l + 1)
    let c := combineOpt op m a.1 b.1
    (c.1, a.2 ||| b.2 ||| c.2)

/-- The fold of R209 over the lanes below `n`, with the flags of its steps. -/
def foldTo (op : Nat) (m : Word) (v : Nat → Option Word) (n : Nat) : Option Word × Word :=
  (List.range n).foldl (fun a l => ((combineOpt op m a.1 (v l)).1, a.2 ||| (combineOpt op m a.1 (v l)).2)) (none, 0)

end Sys2Proof.Machine

/-- The participant set (R35, R36): it is fixed exactly when no lane of the mask holds a live thread that is still on its way; it then
holds the slots, in lane order, of the threads of the crew that have arrived at the same address with an equal CMASK, and the crew's
MODE and OUTL at that cycle; and the sets of a crew that are fixed in one cycle stand in increasing order of their lowest slot. -/
def Sys2Proof.Claims.ParticipantSet : Prop :=
  (∀ (k : Ctx), (look k.c.threads k.r.t = some k.t) →
    let slot (l : Nat) : Nat := 32 * (k.r.t / 32) + l
    let here (u : Thread) : Prop := u.pc = k.t.pc ∧ u.cmask = k.t.cmask ∧ ∃ a, u.st = .blocked (.collective a) ∧ a.fixed = none
    let apart (u : Thread) : Prop := u.pc = k.t.pc ∧ u.cmask ≠ k.t.cmask
    (fixNow k = none ↔
      ∃ l u, l < 32 ∧ k.t.cmask.getLsbD l = true ∧ look k.c.threads (slot l) = some u ∧ ¬here u ∧ ¬apart u) ∧
    ∀ fx, fixNow k = some fx →
      (∀ i, i ∈ fx.parts ↔ ∃ l u, l < 32 ∧ i = slot l ∧ look k.c.threads i = some u ∧ here u) ∧
      fx.parts.Pairwise (fun i j => i < j) ∧ fx.mode = k.crew.mode ∧ fx.outl = k.crew.outl ∧ fx.outlh = k.crew.outlh) ∧
  ∀ (s : State) (c w : Nat),
    (∀ fx, fx ∈ s.readyGroups c w ↔ ∃ l k a, l < 32 ∧ s.ctxAt ⟨c, 32 * w + l⟩ = some k ∧ k.t.st = .blocked (.collective a) ∧
      a.fixed = none ∧ fixNow k = some fx ∧ fx.parts.head? = some (32 * w + l)) ∧
    (s.readyGroups c w).Pairwise (fun f g => f.parts.headD 0 < g.parts.headD 0)

/-- What a collective's completion does to the threads (R203, R204): a participant leaves BLOCKED at the next instruction with the
result pending and the operation's flags, which the results share as one group, and no other thread of the cast changes. -/
def Sys2Proof.Claims.CollectiveDelivery : Prop :=
  ∀ (s : State) (c : Nat) (fx : FixedSet) (res : Nat → List (Dst × Word)) (fl : Word) (i : Nat) (t : Thread),
    fx.parts.Nodup → s.thread? ⟨c, i⟩ = some t →
    (t.lc[0]).getLsbD 31 = false → (t.lc[1]).getLsbD 31 = false → (t.lc[2]).getLsbD 31 = false →
    (i ∉ fx.parts → (deliver s c fx res fl).thread? ⟨c, i⟩ = some t) ∧
    (i ∈ fx.parts → ∃ u, (deliver s c fx res fl).thread? ⟨c, i⟩ = some u ∧ u.st = .ready ∧ u.pc = t.pc + 4 ∧
      u.retired = t.retired + 1 ∧ u.x = t.x ∧ u.k = t.k ∧
      u.flights = t.flights ++ [{ dst := res i, flags := fl, grp := some s.nextReq }] ∧
      ∀ d ∈ (res i).map Prod.fst, d = .x 0 ∨ d = .k 0 ∨ d ∈ u.pend)

/-- VOTE and SHFL (R206), once the set is fixed. -/
def Sys2Proof.Claims.VoteShuffle : Prop :=
  ∀ (q : Bool) (d a b : BitVec 6) (kd ka : BitVec 3) (s : State) (k low : Ctx) (fx : FixedSet) (res : Nat → List (Dst × Word)),
    CanRun s k q [.x d, .x a, .x b, .k kd, .k ka] →
    let slot (l : Nat) : Nat := 32 * k.crewN + l
    let arg (i : Instr) (vals : List Word) (j n : Nat) : Word := (k.gathered q s i vals fx).arrVal k.r.c j n
    let gives (i : Instr) (vals : List Word) (v : Nat → List (Dst × Word)) : Prop :=
      k.gathers q s i vals fx low → (∀ j ∈ fx.parts, res j = v j) →
      exec i s = .next (deliver (k.gathered q s i vals fx) k.r.c fx res 0)
    let vote (i : Instr) (v : (Nat → Word) → List (Dst × Word)) : Prop :=
      let l : List Word := [if k.t.getK ka then 1 else 0]
      gives i l (fun _ => v (fun j => arg i l j 0))
    let shfl (i : Instr) (src : Nat → Nat → Option Nat) : Prop :=
      let l : List Word := [k.t.getX a, k.t.getX b]
      gives i l (fun j => [(.x d, match src (j % 32) (arg i l j 1).toNat with
        | some m => if slot m ∈ fx.parts then arg i l (slot m) 0 else arg i l j 0
        | none => arg i l j 0)])
    (∀ m : Word, (∀ l, l < 32 → (m.getLsbD l = true ↔
        slot l ∈ fx.parts ∧ arg (.voteBal q d ka) [if k.t.getK ka then 1 else 0] (slot l) 0 ≠ 0)) →
      vote (.voteBal q d ka) (fun _ => [(.x d, m)])) ∧
    vote (.voteAny q kd ka) (fun v => [(.k kd, if fx.parts.any (fun j => v j != 0) then 1 else 0)]) ∧
    vote (.voteAll q kd ka) (fun v => [(.k kd, if fx.parts.all (fun j => v j != 0) then 1 else 0)]) ∧
    shfl (.shflIdx q d a b) (fun _ x => some (x % 32)) ∧
    shfl (.shflUp q d a b) (fun l x => if x ≤ l then some (l - x) else none) ∧
    shfl (.shflDn q d a b) (fun l x => if l + x ≤ 31 then some (l + x) else none) ∧
    shfl (.shflXor q d a b) (fun l x => some (l ^^^ (x % 32)))

/-- CRED, CSCAN and CSCANX (R208, R209), once the set is fixed: the tree, the folds, and the eleven operations with their empty
values. -/
def Sys2Proof.Claims.ReduceScan : Prop :=
  (∀ (q : Bool) (d a : BitVec 6) (o : BitVec 4) (s : State) (k low : Ctx) (fx : FixedSet) (res : Nat → List (Dst × Word)),
    CanRun s k q [.x a, .x d] → o.toNat ≤ 10 →
    let gives (i : Instr) (r : (Nat → Option Word) → Nat → Word) (fl : (Nat → Option Word) → Word) : Prop :=
      let t := k.gathered q s i [k.t.getX a] fx
      let v (l : Nat) : Option Word := if 32 * k.crewN + l ∈ fx.parts then some (t.arrVal k.r.c (32 * k.crewN + l) 0) else none
      k.gathers q s i [k.t.getX a] fx low → (∀ j ∈ fx.parts, res j = [(.x d, r v (j % 32))]) →
      exec i s = .next (deliver t k.r.c fx res (fl v))
    let last := (fx.parts.getLast?).getD 0 % 32
    gives (.cred q d a o) (fun v _ => (treeNode o.toNat fx.mode v 5 0).1.getD 0) (fun v => (treeNode o.toNat fx.mode v 5 0).2) ∧
    gives (.cscan q d a o) (fun v l => (foldTo o.toNat fx.mode v (l + 1)).1.getD 0) (fun v => (foldTo o.toNat fx.mode v (last + 1)).2) ∧
    gives (.cscanx q d a o) (fun v l => (foldTo o.toNat fx.mode v l).1.getD (match o.toNat with
      | 1 => 0x7FFFFFFF | 2 => 0x80000000 | 3 => 0xFFFFFFFF | 5 => 0xFFFFFFFF | 9 => 0x7F800000 | 10 => 0xFF800000 | _ => 0))
      (fun v => (foldTo o.toNat fx.mode v last).2)) ∧
  ∀ (m u v : Word), combine 0 m u v = (BitVec.ofNat 32 (u.toNat + v.toNat), 0) ∧
    combine 1 m u v = (if v.toInt < u.toInt then v else u, 0) ∧ combine 2 m u v = (if u.toInt < v.toInt then v else u, 0) ∧
    combine 3 m u v = (if v.toNat < u.toNat then v else u, 0) ∧ combine 4 m u v = (if u.toNat < v.toNat then v else u, 0) ∧
    combine 5 m u v = (u &&& v, 0) ∧ combine 6 m u v = (u ||| v, 0) ∧ combine 7 m u v = (u ^^^ v, 0) ∧
    (combine 8 m u v).1 = BitVec.ofNat 32 (fp32.addOp (modeF32 m) u.toNat v.toNat).1 ∧
    (combine 9 m u v).1 = BitVec.ofNat 32 (fp32.minMax (modeSubn m) false u.toNat v.toNat).1 ∧
    (combine 10 m u v).1 = BitVec.ofNat 32 (fp32.minMax (modeSubn m) true u.toNat v.toNat).1

/-- The elements of a block (R95 to R101): AUTO takes the smallest scale at which every finite value fits, and SL is n − 2 below it; a
scale counts a value in its units, rounded by the code; an element that fits SL decodes to its rounded integer at SL, else at SH
where it fits there; an overflow is the largest magnitude at SH under saturation, and else the outlier marker, which decodes to +0. With
SH = 511 the largest magnitude stands at SL, or a zero at SH, which decodes as NaN as every element at that scale does, where SL is 511
too. The flags are those of the rules. -/
def Sys2Proof.Claims.BlockElements : Prop :=
  ∀ (n rnd : Nat) (vs : List FpVal), n = 4 ∨ n = 6 ∨ n = 8 →
    let fits (x : FpVal) (sc : Nat) : Prop := ∃ r, dbQ rnd x sc = some r ∧ r.1 < 2 ^ (n - 2)
    (let a := dbAuto n rnd vs;
      n - 2 ≤ a.1 ∧ a.1 ≤ 510 ∧ a.2 = a.1 - (n - 2) ∧
      (a.1 < 510 → ∀ v ∈ vs, v.isFin = true → fits v a.1) ∧
      ∀ c, n - 2 ≤ c → c < a.1 → ∃ v ∈ vs, v.isFin = true ∧ ¬fits v c) ∧
    (∀ (x : FpVal) (sc : Nat), x.isFin = false ∨ sc = 511 → dbQ rnd x sc = none) ∧
    (∀ (neg : Bool) (m : Nat) (e : Int) (sc : Nat), sc ≠ 511 → rnd < 4 → ∃ q nx, dbQ rnd (.fin neg m e) sc = some (q, nx) ∧
      let e0 := min e ((sc : Int) - 256)
      let M := m * 2 ^ (e - e0).toNat
      let U := 2 ^ ((sc : Int) - 256 - e0).toNat
      (nx = false ↔ q * U = M) ∧ q * U < M + U ∧ M < q * U + U ∧
      (rnd = 0 → 2 * M ≤ 2 * (q * U) + U ∧ 2 * (q * U) ≤ 2 * M + U ∧ (2 * M = 2 * (q * U) + U ∨ 2 * (q * U) = 2 * M + U → q % 2 = 0)) ∧
      (rnd = 1 → q * U ≤ M) ∧ (rnd = 2 → if neg then M ≤ q * U else q * U ≤ M) ∧ (rnd = 3 → if neg then q * U ≤ M else M ≤ q * U)) ∧
    ∀ (sat : Bool) (sh sl i : Nat) (x : FpVal) (w : Word) (es : List DbEnc), sh < 512 → sl < 512 →
      es[i]? = some (dbEncode n rnd sat sh sl x w) →
      let v := dbElem n (dbBlock n sh sl es) i
      let e := dbEncode n rnd sat sh sl x w
      let val (q sc : Nat) : FpVal := if q = 0 then .fin false 0 0 else .fin x.sign q ((sc : Int) - 256)
      let zero : Bool := match x with | .fin _ 0 _ => true | _ => false
      let exact (r : Nat × Bool) : Word :=
        (if r.2 then fNX else 0) ||| (if r.1 = 0 ∧ zero = false then fUF else 0)
      let top (sc : Nat) : FpVal := .fin x.sign (2 ^ (n - 2) - 1) ((sc : Int) - 256)
      let marked := e.out = some (if x.isNan then 0x7FC00000 else w) ∧ e.flags = fOUT ||| (if x.isSig then fNV else 0)
      (∀ r, dbQ rnd x sl = some r → r.1 < 2 ^ (n - 2) → v = val r.1 sl ∧ e.out = none ∧ e.flags = exact r) ∧
      (¬fits x sl → ∀ r, dbQ rnd x sh = some r → r.1 < 2 ^ (n - 2) → v = val r.1 sh ∧ e.out = none ∧ e.flags = exact r) ∧
      (¬fits x sl → ¬fits x sh →
        (sat = true → x.isNan = false → v = (if sh ≠ 511 then top sh else if sl ≠ 511 then top sl else .nan false) ∧ e.out = none ∧
          e.flags = fOF ||| fNX ||| fSAT) ∧
        (sat = true → x.isNan = true → v = (if sh ≠ 511 then .fin false 0 0 else .nan false) ∧ e.out = none ∧ e.flags = fNV) ∧
        (sat = false → v = (if sh ≠ 511 then .fin false 0 0 else .nan false) ∧ marked))

/-- BPACK, BPACK.FX, BUNPK and MXC (R198 to R201, R268), once the set is fixed: the words of the block, or the elements, are written
to the participants before they leave BLOCKED, the flags of the elements go to the crew, and outliers to the list of R103; MXC
appends one command with the operands of the lowest participant, and every participant leaves. -/
def Sys2Proof.Claims.BlockResults : Prop :=
  ∀ (q : Bool) (d a b : BitVec 6) (p : BitVec 5) (f : BitVec 2) (s : State) (k low : Ctx) (fx : FixedSet), f.toNat < 3 →
    CanRun s k q ([.x d, .x a, .x b] ++ pairDst p) →
    let n := match f.toNat with | 0 => 8 | 1 => 6 | _ => 4
    let slot (l : Nat) : Nat := 32 * k.crewN + l
    let lane (t : State) (l : Nat) : Word := if slot l ∈ fx.parts then t.arrVal k.r.c (slot l) 0 else 0
    let flag (t : State) (fl : Word) : State := t.onCast k.r.c (fun c => c.onCrew k.crewN (fun w => w.setFlags fl))
    let packs (i : Instr) (fixed : Bool) : Prop :=
      let vals := [k.t.getX a, k.t.getX (pairLo p), k.t.getX (pairHi p)]
      let t := k.gathered q s i vals fx
      k.gathers q s i vals fx low →
        let blkNo := t.arrVal k.r.c low.r.t 1
        let sc := t.arrVal k.r.c low.r.t 2
        let ss := if fixed then (bitsN sc 0 9, bitsN sc 9 9) else
          dbAuto n (modeDbRnd fx.mode n) ((List.range 32).map (fun l => fp32.read false (lane t l).toNat))
        let es := (List.range 32).map (fun l =>
          dbEncode n (modeDbRnd fx.mode n) (modeDbSat fx.mode n) ss.1 ss.2 (fp32.read false (lane t l).toNat) (lane t l))
        let outs := ((List.range 32).zip es).filterMap (fun e => e.2.out.map (fun v => (v, BitVec.ofNat 32 (32 * blkNo.toNat + e.1))))
        let blk := dbBlock n ss.1 ss.2 es
        ∀ t1, (outs = [] → t1 = t) → (outs ≠ [] → appendOutliers t low fx outs = .ok t1) →
          exec i s = .next (deliverNow (flag t1 (orFlags (es.map DbEnc.flags))) k.r.c fx (fun j u =>
            u.setX d (if j % 32 < 1 + n then BitVec.ofNat 32 (blk / 2 ^ (32 * (j % 32))) else 0)))
    packs (.bpack q d a p f) false ∧ packs (.bpackFx q d a p f) true ∧
    (let i := Instr.bunpk q d a f
      let t := k.gathered q s i [k.t.getX a] fx
      k.gathers q s i [k.t.getX a] fx low →
        let blk := ((List.range (1 + n)).map (fun l => (lane t l).toNat * 2 ^ (32 * l))).sum
        let r (l : Nat) : Nat × Word := fp32.finish (modeF32 fx.mode) (.val (dbElem n blk l))
        exec i s = .next (deliverNow (flag t (orFlags (fx.parts.map (fun j => (r (j % 32)).2)))) k.r.c fx (fun j u =>
          u.setX d (BitVec.ofNat 32 (r (j % 32)).1)))) ∧
    (let i := Instr.mxc q p a b
      let vals := [k.t.getX (pairLo p), k.t.getX (pairHi p), k.t.getX a, k.t.getX b]
      let t := k.gathered q s i vals fx
      k.gathers q s i vals fx low →
        let arg := t.arrVal k.r.c low.r.t
        ∀ t1, mxcAppend t low fx (arg 1 ++ arg 0) (arg 2) (arg 3) = .ok t1 →
          exec i s = .next (deliverNow t1 k.r.c fx (fun _ u => u)) ∧
          (t.plot k.c.plot).script.length < 32 ∧
          ∃ m : MxCmd, (t1.plot k.c.plot).script = (t.plot k.c.plot).script ++ [m] ∧ m.opnd = arg 2 ∧ m.pitch = arg 3 ∧
            m.block = arg 1 ++ arg 0 ∧ m.mode = fx.mode ∧ m.started = false ∧ m.slot = low.r.t)

/-- When a participant set is fixed, and what its completion does to the threads: `ParticipantSet` and `CollectiveDelivery`. The model's
choice, not the spec's: the sets of a crew are fixed at an issue of one of its threads or by the event (log 6). -/
def Obligations.CollectiveSets : Prop :=
  Sys2Proof.Claims.ParticipantSet ∧ Sys2Proof.Claims.CollectiveDelivery

/-- Votes, shuffles, reductions and scans deliver their values: `VoteShuffle` and `ReduceScan`. -/
def Obligations.CollectiveResults : Prop :=
  Sys2Proof.Claims.VoteShuffle ∧ Sys2Proof.Claims.ReduceScan

/-- Block packing, unpacking and MXC complete as their rules say: `BlockResults` and `BlockElements`. The model's choice, not the
spec's: an OUTP that is not allowed raises MXCMD (log 89), and the rules of R264 on a layout are applied to a command with a bank
operand only (log 82). -/
def Obligations.BlockResults : Prop :=
  Sys2Proof.Claims.BlockResults ∧ Sys2Proof.Claims.BlockElements

/-! ### Events of threads, casts and plots -/

/-- The events that end a thread's waits (R36, R48, R50, R204, R212): a result that returns is written, its flags are set, and those of a
collective once for its crew, the last one that writes a register ends CUEWAIT, and its counted operation is done; done operations leave their class in issue
order; a HELD thread leaves HELD when every other thread with its MEET is there or has arrived since, waits at WAITA or BAR, or once
that has come to be so, or when its timer has run out; and a set that is complete is fixed and its operation performed. -/
def Sys2Proof.Claims.ThreadEvents : Prop :=
  ∀ (s : State) (c i : Nat) (k : Ctx), s.ctxAt ⟨c, i⟩ = some k →
    (∀ (n : Nat) (f : Flight), k.t.flights[n]? = some f → f.src = .value → s.settleCells k.c.plot = s →
      let rest := k.t.flights.eraseIdx n
      let t := { k.t.setDsts f.dst with flights := rest, st := if ¬WritesReg rest ∧ k.t.st = .cueWait then .ready else k.t.st }
      let s1 := ((s.setThread ⟨c, i⟩ t).flag k f.flags).onCast c (fun x => match f.grp with
        | none => x
        | some g => { x with threads := x.threads.map (fun e => (e.1, { e.2 with
            flights := e.2.flights.map (fun h => if h.grp = some g then { h with flags := 0 } else h) })) })
      exec (.pendingResultReturn c i n) s = .next (match f.op with
        | some id => s1.opDone c k.crewN id
        | none => s1)) ∧
    (∀ (w : Nat) (cl : OpClass), w < k.c.crews.length → ∃ s' c', exec (.memoryOpRetire c w cl) s = .next s' ∧
      look s'.casts c = some c' ∧
      (c'.crew w).ops.filter (fun o => o.cls == cl) = ((k.c.crew w).ops.filter (fun o => o.cls == cl)).dropWhile OutOp.done ∧
      (c'.crew w).ops.filter (fun o => o.cls != cl) = (k.c.crew w).ops.filter (fun o => o.cls != cl) ∧
      (∀ v, v ≠ w → c'.crew v = k.c.crew v) ∧ s' = { s with casts := s'.casts }) ∧
    (k.t.st = .held →
      (k.t.pass = true ∨ ∀ e ∈ k.c.threads, e.1 ≠ i → e.2.meet ≠ k.t.meet ∨ e.2.pc.setWidth 32 = k.t.meet ∨
        (∃ w, e.2.st = .blocked (.waita w)) ∨ (∃ b g n w, e.2.st = .blocked (.barrier b g n w)) ∨ (e.2.key, e.2.dep) ∈ k.t.met) →
      exec (.meetRejoin c i) s = .next (s.setThread ⟨c, i⟩ { k.t with st := .ready, pass := true, met := [] })) ∧
    (256 ≤ k.t.timer → descDet k.c.desc ≠ 1 →
      (k.t.st = .held → exec (.fairnessTimerExpiry c i) s = .next (s.setThread ⟨c, i⟩ { k.t with st := .ready, pass := true, met := [] })) ∧
      (k.t.st = .ready → exec (.fairnessTimerExpiry c i) s = .next { s with cur := some ⟨c, i⟩ })) ∧
    ∀ (a b : Arrival) (fx : FixedSet) (low : Ctx) (t : State), k.t.st = .blocked (.collective a) → a.fixed = none →
      s.midStep k.c = false → s.readyGroups c k.crewN = [fx] →
      let m := s.markFixed c fx
      m.ctxAt ⟨c, fx.parts.headD 0⟩ = some low → low.t.st = .blocked (.collective b) → collHeld m low fx = false →
      performColl m low b.instr fx = .ok t → exec (.participantSetFixed c i) s = .next t

/-- BUNDLE_REGROUP and QUANTUM_EXPIRY (R45, R342, R344): the READY threads of each cast outside ORDERED mode form bundles of at most
32 threads of one cast at one address, none left out; the turn goes to the crew with the next higher logical index that can issue,
and from the highest to the lowest. -/
def Sys2Proof.Claims.IssueOrder : Prop :=
  ∀ (s : State) (p : Nat),
    (∃ B : List (List (Nat × Nat)), exec (.bundleRegroup p) s = .next (s.onPlot p (fun q => { q with bundles := B })) ∧
      (∀ b ∈ B, b ≠ [] ∧ b.length ≤ 32 ∧ ∃ n c pc, n ∈ (s.plot p).rr ∧ look s.casts n = some c ∧ descDet c.desc ≠ 1 ∧
        ∀ e ∈ b, e.1 = n ∧ ∃ t, (e.2, t) ∈ c.threads ∧ t.st = .ready ∧ t.pc = pc) ∧
      ∀ n c i t, n ∈ (s.plot p).rr → look s.casts n = some c → descDet c.desc ≠ 1 → c.threads.length ≤ 512 →
        (c.threads.map Prod.fst).Nodup → (i, t) ∈ c.threads → t.st = .ready → (n, i) ∈ B.flatten) ∧
    ((s.plot p).turn.holder ≠ none → (s.plot p).turn.members = [] → s.quant p ≤ (s.plot p).turn.count →
      ∀ last ix n w, (s.plot p).turn.last = some last → (ix, n, w) ∈ s.turnCrews p →
        ((last < ix ∧ ∀ x ∈ s.turnCrews p, last < x.1 → x ≠ (ix, n, w) → ix < x.1) ∨
          ((∀ x ∈ s.turnCrews p, x.1 ≤ last) ∧ ∀ x ∈ s.turnCrews p, x ≠ (ix, n, w) → ix < x.1)) →
        exec (.quantumExpiry p) s = .next (s.onPlot p (fun q => { q with turn := { holder := some (n, w), last := some ix } })))

/-- SEEDBED_RELEASE and DISPLACEMENT (R25 to R27, R31): the deferred thread with the lowest key starts in the free slot from its
record's snapshot, with its ordinal in DREG and in its key, and the record goes on to the next ordinal or frees; where every slot
holds a thread stalled at an EMIT above the lowest deferred key, the thread with the highest key leaves its slot, and a record of
KIND 2 holds its state, from which the release gives the same thread back; results in flight that write no register are dropped. The
model's choice, not the spec's: the seedbed position is the oracle's choice (log 59), and a displaced thread keeps its latched
RETIREDH and what raises PEND (log 71). -/
def Obligations.SeedEvents : Prop :=
  ∀ (s : State) (n : Nat) (c : Cast), look s.casts n = some c → s.seedHeld n c = false → s.midStep c = false → c.bad = false →
    (∀ (i : Nat) (r : SeedRec) (s1 s2 : State) (r' : Option SeedRec), c.emptySlots = [i] → r ∈ c.seeds →
      (∀ x ∈ c.seeds, x ≠ r → keyLt r.low.1 r.low.2 x.low.1 x.low.2 = true) →
      s.readSeed c r = .ok s1 → s1.advanceSeed c r = .ok (s2, r') →
      (r.olo < r.ohi → r' = some { r with olo := r.olo + 1 }) ∧ (r.ohi ≤ r.olo → r' = none) ∧
      exec (.seedbedRelease n) s = .next (s2.setCast n {
        (Cast.meetNote c.latchMeet r.thread) with
        threads := put (Cast.meetNote c.latchMeet r.thread).threads i r.thread
        seeds := c.seeds.filterMap (fun x => if x.pos = r.pos then r' else some x) })) ∧
    (∀ r : SeedRec, r.thread.pc = r.pc ∧ r.thread.key = keySet r.key r.depth r.olo ∧ r.thread.dep = BitVec.ofNat 4 (r.depth + 1) ∧
      r.thread.lc = r.lc ∧ r.thread.meet = r.meet ∧ r.thread.cmask = r.cmask ∧ r.thread.k = r.k ∧ r.thread.e = r.e ∧
      r.thread.st = .ready ∧ r.thread.retired = (if r.kind = 2 then r.ret else 0) ∧
      r.thread.retLatch = (if r.kind = 2 then r.latch else 0) ∧ r.thread.ll = r.ll ∧
      ∀ x, r.thread.getX x = if x = 0 then 0 else if x = r.dreg then BitVec.ofNat 32 r.olo else r.x[x.toNat]) ∧
    (∀ (i pos : Nat) (t : Thread) (s0 s1 : State), c.emptySlots = [] → (∀ e ∈ c.threads, e.2.st = .blocked .emit) →
      (∃ r ∈ c.seeds, (∀ x ∈ c.seeds, x ≠ r → keyLt r.low.1 r.low.2 x.low.1 x.low.2 = true) ∧
        ∀ e ∈ c.threads, keyLt e.2.key e.2.dep.toNat r.low.1 r.low.2 = false) →
      c.displaced = none → (i, t) ∈ c.threads →
      (∀ e ∈ c.threads, e ≠ (i, t) → keyLt e.2.key e.2.dep.toNat t.key t.dep.toNat = true) →
      (WritesReg t.flights → exec (.displacement n) s = .next (s.setCast n { c with displaced := some i })) ∧
      (¬WritesReg t.flights → s.seedPos c = (some pos, s0) → s0.writeSeed c (displacement t pos) = .ok s1 →
        exec (.displacement n) s = .next (t.flights.foldl (State.dropFlight { r := ⟨n, i⟩, c := c, t := t }) (s1.onCast n (fun c => { c with
          threads := del c.threads i, seeds := c.seeds ++ [displacement t pos], displaced := none }))))) ∧
    ∀ (t : Thread) (pos : Nat), 1 ≤ t.dep.toNat → t.dep.toNat ≤ 8 →
      let r := displacement t pos
      r.kind = 2 ∧ r.dreg = 0 ∧ r.olo = r.ohi ∧ r.depth + 1 = t.dep.toNat ∧ r.thread.key = t.key ∧ r.thread.dep = t.dep ∧
      r.thread.pc = t.pc ∧ r.thread.retired = t.retired ∧ r.thread.retLatch = t.retLatch ∧ r.thread.pend = t.pend ∧
      (∀ x, r.thread.getX x = t.getX x) ∧ r.thread.k = t.k ∧ r.thread.e = t.e ∧ r.thread.lc = t.lc ∧ r.thread.ll = t.ll ∧
      r.thread.meet = t.meet ∧ r.thread.cmask = t.cmask ∧ r.thread.own = t.own

/-- CAST_END, DEFERRED_LIST_APPLY, WDOG and LEASE_GRANT (R39, R224, R350, R378, R386, R426): a cast that meets R39 ends with a
promotable release, leaves its plot, and counts for its scene, its clamps for its allotment, or waits for its deferred list; the
list is applied after the cast before it, and the cast and its clamps then count; a watchdog count at its limit fails the cast with
a class 1 record that names no thread; and a cast without a lease, or with one that leaves out a bucket of its path, whose rest goes
back first, receives the lowest balance of the buckets on its path, 1,024 at most, which each of them is charged. The model's
choice, not the spec's: the accesses of a deferred list that fail (log 26), and which cast of a path is charged (log 32). -/
def Obligations.CastEvents : Prop :=
  ∀ (s : State) (n : Nat) (c : Cast), look s.casts n = some c →
    (s.castDone n c = true → c.deferred = [] → c.fire = none → ∃ s', exec (.castEnd n) s = .next s' ∧ look s'.casts n = none ∧
      (s'.plot c.plot).rseq = (s.plot c.plot).rseq + 1 ∧ (s'.plot c.plot).rr = (s.plot c.plot).rr.filter (fun m => m != n) ∧
      (∀ sc, look s.scenes c.scene = some sc →
        look s'.scenes c.scene = some { sc with nEnd := sc.nEnd + 1, digests := put sc.digests c.ix c.digest }) ∧
      ∀ a, look s.allots c.al = some a → ∃ a', look s'.allots c.al = some a' ∧
        a'.clamps = satAdd32 a.clamps ((c.crews.map (fun w => w.clampn.toNat)).sum)) ∧
    (s.castDone n c = true → c.deferred ≠ [] → ∃ s' c', exec (.castEnd n) s = .next s' ∧ look s'.casts n = some c' ∧
      c'.st = .listWait ∧ c'.deferred = c.deferred ∧ c'.scrBanks = [] ∧ c'.opdBanks = [] ∧ c'.tiles = [] ∧
      ∀ a, look s.allots c.al = some a → ∃ a', look s'.allots c.al = some a' ∧ a'.clamps = a.clamps) ∧
    (c.st = .listWait → s.prevCast c ≠ none → exec (.deferredListApply n) s = .next s) ∧
    (∀ (d : Deferred) (s1 : State), c.st = .listWait → s.prevCast c = none → c.deferred = [d] → s.applyOne n c d = .ok s1 →
      look s1.casts n = some c →
      let c0 : Cast := { c with deferred := [] }
      let s2 := ((s1.setCast n c0).promoBegin c.plot).promoEnd c.plot
      exec (.deferredListApply n) s = .next ((({ s2 with casts := del s2.casts n } : State).addClamps c0).countEnd { c0 with st := .ended })) ∧
    (∀ sc, look s.scenes c.scene = some sc → sc.wdlim ≠ 0 → 1024 * sc.wdlim ≤ c.wdog → s.recFull = false →
      ∃ r : FaultRec, r.code = .wdog ∧ r.cls = 1 ∧ r.slot = 0xFFFF ∧ r.key = 0 ∧ r.iaddr = 0 ∧ r.castix = BitVec.ofNat 32 c.ix ∧
        exec (.wdog n) s = .next (s.fatal n r) ∧ (s.repairing c = false → s.fatal n r = (s.record r).failCast n .wdog)) ∧
    ∀ (sc : Scene) (s1 : State) (l : List (DWord × Int)) (g : Nat), look s.scenes c.scene = some sc → sc.path ≠ [] →
      (c.lease = 0 ∨ s.leaseShort c = true) → c.st ≠ .listWait →
      let s0 := if c.lease = 0 then s.payOwed c.al
        else ((s.payOwed c.al).returnLease c).onCast n (fun k => { k with lease := 0, leased := [] })
      s0.balances c.al sc.path = .ok (s1, l) → l ≠ [] → 0 < g → g ≤ 1024 →
      (∀ x ∈ l, (g : Int) ≤ x.2) → (g = 1024 ∨ ∃ x ∈ l, x.2 = (g : Int)) →
      exec (.leaseGrant n) s = .next ((l.foldl (fun s x => s.nodeAdd c.al x.1 40 (-(g : Int))) s1).onCast n
        (fun c => { c with lease := g, leased := l.map Prod.fst }))

/-- COPY_START, COPY_RETIRE, PROMOTION_REQUEST and ALL_ZERO_WRITEBACK (R73, R228 to R230, R257 to R259): the oldest copy that can run
performs its payload, fewer than 8 in progress, behind any earlier one that may write where it does; a started one retires with its
completion word; a plot serves a request up to its cut-off, unless its context there is being saved, counted where it still holds a
context of the allotment, and the last completion lets the ACQP load; and the first write-back to an all-zero frame leaves every
other byte of the frame zero. The model's choice, not the spec's: a copy's payload is performed in the step that starts it (log 56),
and an element address off its path raises PATH of class 1 (log 81). -/
def Obligations.PlotEvents : Prop :=
  ∀ (s : State) (p : Nat),
    (∀ (k k1 : Copy) (c : Cast) (s1 s2 : State), (s.plot p).copies.find? (fun x => copyReady s p x) = some k →
      look s.casts k.cid = some c → c.bad = false → copyReserve s k = some (s1, k1) →
      copyPayload { k1 with begun := true } (copyBase s1 { k1 with begun := true }) s1 = .ok s2 →
      exec (.copyStart p) s = .next (s2.onPlot p (fun q => q.setCopy { k1 with begun := true, started := true }))) ∧
    (∀ (k : Copy) (l m : List Copy), (s.plot p).copies = l ++ k :: m → (∀ x ∈ l, ¬(x.cid = k.cid ∧ x.op = k.op)) →
      (copyReady s p k = true ↔ k.started = false ∧ (∀ h ∈ (s.plot p).oplog, ¬(h.cid = k.cid ∧ h.kind = .copy k.op)) ∧
        (k.begun = true ∨ ((∀ x ∈ l, x.begun = true) ∧ ((s.plot p).copies.filter Copy.begun).length < 8)) ∧
        ∀ x ∈ l, x.started = true ∨ copiesMeet s x k = false)) ∧
    (∀ (n : Nat) (k : Copy), (s.plot p).copies[n]? = some k → k.started = true → k.entry = none → k.cval = none →
      (∃ c, look s.casts k.cid = some c) → ∃ s', exec (.copyRetire p n) s = .next s' ∧
        (s'.plot p).copies = (s.plot p).copies.filter (fun x => !(x.cid == k.cid && x.op == k.op)) ∧
        ∀ c, look s.casts k.cid = some c → k.slot / 32 < c.crews.length → ∃ c', look s'.casts k.cid = some c' ∧
          (c'.crew (k.slot / 32)).ops = drainOps .cp ((c.crew (k.slot / 32)).ops.map (fun o => if o.id = k.op then { o with done := true } else o))) ∧
    (∀ (r : PromReq) (l : List PromReq), (s.plot p).preqs = r :: l → s.plotSaving p r.al = true → exec (.promotionRequest p) s = .next s) ∧
    (∀ (r : PromReq) (l : List PromReq) (s1 : State), (s.plot p).preqs = r :: l → s.plotSaving p r.al = false → s1 = s.serveProm p r →
      (s1.plot p).preqs = l ∧
      (s1.plot p).proms = (s.plot p).proms + (if ∃ e ∈ (s.plot p).ctx, e.1 = r.al then 1 else 0) ∧
      (∀ x ∈ (s1.plot p).cache, x.dirty ≠ 0 → seqLe x.stamp r.cut = false) ∧
      (∀ e, e ∈ (s1.plot p).log ↔ e ∈ (s.plot p).log ∧ seqLe e r.cut = false) ∧
      (s1.acqpOf r.n = none → exec (.promotionRequest p) s = .next s1) ∧
      ∀ n i, s1.acqpOf r.n = some (n, i) → exec (.promotionRequest p) s = .next (s1.performLate n i)) ∧
    (∀ (h : Held) (m : Nat) (d : BitVec 6) (k : Ctx) (s1 : State) (l : Loc) (z : Bool),
      (s.plot p).oplog.find? (fun x => x.id == h.id) = some h → h.kind = .acqpGo m d → h.late = true → h.set = none →
      (s.requested m = true → s.performLate p h.id = s) ∧
      (s.requested m = false → (∀ x ∈ (s.plot p).oplog, x.id < h.id → ¬(x.cid = h.cid ∧ x.key = h.key ∧ x.dep = h.dep)) →
        s.heldCtx h = some k → (∃ f ∈ k.t.flights, f.src = .held ∧ f.op = h.op) → resolve s k.c h.cid (classify s.devnum h.va) .read .home .plot = .ok (s1, l, z) →
        let v := (s1.unlist p h.id).readAt k.c.plot .home l z 4
        s.performLate p h.id = ((v.1.acquire k.c.plot 3).onHeldThread h (fun t =>
          t.fill h.op [(.x d, BitVec.ofNat 32 v.2)])).retry p Wait.room)) ∧
    ∀ (x : Line), (s.plot p).cache.find? (fun y => y.n == x.n) = some x → x.dirty ≠ 0 → (s.frame (x.n * 128 / 65536)).zero = true →
      s.wbOk p (x.n * 128) = true → s.memWf = true → (∀ i, i < 128 → s.qcbAt (x.n * 128 + i) = none ∧ s.acbRoByte (x.n * 128 + i) = none) →
      ∃ s', exec (.allZeroWriteback p x.n) s = .next s' ∧ (s'.frame (x.n * 128 / 65536)).zero = false ∧
        (∀ i, i < 128 → Memory.byte s'.mem (x.n * 128 + i) = if x.dirty.getLsbD i then BitVec.ofNat 8 (byteN x.data i 1) else 0) ∧
        (∀ a, a / 65536 = x.n * 128 / 65536 → a / 128 ≠ x.n → Memory.byte s'.mem a = 0) ∧
        (∀ a, a / 65536 ≠ x.n * 128 / 65536 → Memory.byte s'.mem a = Memory.byte s.mem a) ∧
        ∃ y, (s'.plot p).cache.find? (fun y => y.n == x.n) = some y ∧ y.data = x.data ∧ y.dirty = 0

/-- MATRIX_COMMAND_START and MATRIX_COMMAND_RETIRE (R113, R269, R270, R272): a command starts once the commands that it names have
retired, no command across a weight change stands before it, and its array is free; it retires with its effect, its flags, MXSEQ
raised and its count released, its completion word as an allotment-scope release; ZERO clears rows 0 to M − 1 of its tile, a WLOAD latches its rows, and an integer sum is the exact sum
of its products, narrowed by INTSAT. -/
def Sys2Proof.Claims.MatrixEvents : Prop :=
  (∀ (s : State) (p n : Nat) (k : MxCmd) (c : Cast), (s.plot p).script[n]? = some k → look s.casts k.cid = some c →
    (k.started = false → n < 32 → (∀ i ∈ k.preds, s.inScript i = false) →
      (∀ j ∈ (s.plot p).script, j.id < k.id → ¬(k.b.kind = 1 ∧ j.b.kind = 0) ∧ ¬(k.b.kind = 0 ∧ j.b.kind = 1)) →
      s.arrayFree p k = true → s.mxwBefore c k = false → ¬(k.b.kind < 2 ∧ k.b.asrc = 2) →
      exec (.matrixCommandStart p n) s = .next (s.onPlot p (fun q => { q with
        script := q.script.map (fun x => if x.id = k.id then { k with started := true } else x) }))) ∧
    (∀ (s1 s2 : State) (fl : Word), k.started = true → (s.plot p).cmdHeld k = false → s.behindShown c k = false → c.bad = false → runCmd s c k = .ok (s1, fl) → cmdWord s1 c k = .ok s2 →
      exec (.matrixCommandRetire p n) s = .next (cmdEnd s2 p k fl) ∧
      ((cmdEnd s2 p k fl).plot p).mxseq = (s2.plot p).mxseq + 1 ∧
      (∀ x ∈ ((cmdEnd s2 p k fl).plot p).script, x.id ≠ k.id)) ∧
    (∀ (s1 : State) (l : Loc) (z : Bool), k.b.cwaddr ≠ 0 → l.isScr = false →
      resolve s c k.cid (classify s.devnum (BitVec.ofNat 64 k.b.cwaddr)) .write .home .mx = .ok (s1, l, z) →
      cmdWord s c k = .ok (((s1.release c.plot 3).writeAt c.plot .home l 4 k.b.cwval).wakeRange l 4)) ∧
    (k.b.kind = 2 → ∃ s1, runCmd s c k = .ok (s1, 0) ∧
      (∀ i j, i < k.b.m → j < 128 → (s1.plot c.plot).cell (c.tile k.b.acct * 16384 + i * 128 + j) = 0) ∧
      ∀ a, (∀ i j, i < k.b.m → j < 128 → a ≠ c.tile k.b.acct * 16384 + i * 128 + j) →
        (s1.plot c.plot).cell a = (s.plot c.plot).cell a) ∧
    (k.b.kind = 0 → k.b.fuse = 0 → k.b.asrc = 0 → ∃ s1, runCmd s c k = .ok (s1, 0) ∧ (s1.plot c.plot).wrows = k.rows ∧
      (s1.plot c.plot).wfmt = BitVec.ofNat 8 k.b.fmt)) ∧
  ∀ (k : MxCmd) (row j : Nat) (w : Weights) (start : Word), mxClass k.b.fmt = some 1 → k.b.fuse = 0 → k.b.accum = 1 →
    let sum : Int := start.toInt + ((List.range (fmtK k.b.fmt)).map (fun i => rowInt row i * rowInt (w.lo.2.getD j 0) i)).sum
    (cellSums k row w j start []).1.headD 0 =
      if modeIntSat k.mode = true then BitVec.ofInt 32 (max (-2 ^ 31) (min (2 ^ 31 - 1) sum)) else BitVec.ofInt 32 sum

/-- The sums of an MMA (R114 to R116, R269): row i and column j of the tile take the sum of row i of A and column j of the latched
weights, over K elements, or with vertical fusion over 2K with the second array's weights; in FP16 and BF16 each product is added in
increasing k with one rounding to FP32 by nearest-even; in the DB formats the exact sum of each block of 32 products is rounded and then
added, in increasing order, and then the outliers of the row, in the list's order. -/
def Sys2Proof.Claims.MatrixSums : Prop :=
  (∀ (k : MxCmd) (row j : Nat) (w : Weights) (start : Word) (outs : List (Word × Nat)),
    let K := fmtK k.b.fmt
    let tot := if k.b.fuse = 2 then 2 * K else K
    let A (i : Nat) : FpVal := rowElem k.b.fmt row i
    let W (i : Nat) : FpVal := if i < K then rowElem w.lo.1 (w.lo.2.getD j 0) i else rowElem w.hi.1 (w.hi.2.getD j 0) (i - K)
    let st : Word := if k.b.accum = 1 then start else 0
    let step (x y : FpVal) (v : Word) : Word := BitVec.ofNat 32 (fp32.finish nearest (FpVal.fma 0 x y (fp32.read false v.toNat))).1
    let block (b : Nat) : Nat := match blockSum A W b 32 with
      | some v => (fp32.round nearest (decide (v < 0)) v.natAbs (-512)).1
      | none => fp32.nan
    let sum := (cellSums k row w j start outs).1.headD 0
    (mxClass k.b.fmt = some 0 → ∃ t : Nat → Word, t 0 = st ∧ (∀ i, i < tot → t (i + 1) = step (A i) (W i) (t i)) ∧ sum = t tot) ∧
    (mxClass k.b.fmt = some 2 ∨ mxClass k.b.fmt = some 3 → ∃ t u : Nat → Word, t 0 = st ∧
      (∀ b, b < tot / 32 → t (b + 1) = BitVec.ofNat 32 (fp32.addOp nearest (t b).toNat (block b)).1) ∧ u 0 = t (tot / 32) ∧
      (∀ n e, outs[n]? = some e → u (n + 1) = step (fp32.read false e.1.toNat) (W e.2) (u n)) ∧ sum = u outs.length) ∧
    ∀ (x : Word × Nat) (l : List (Word × Nat)) (i : Nat), rowOuts k [] i = [] ∧
      rowOuts k (x :: l) i = if x.2 / tot = i then (x.1, x.2 % tot) :: rowOuts k l i else rowOuts k l i) ∧
  (∀ (a w : Nat → FpVal) (b : Nat) (na nw : Nat → Bool) (ma mw : Nat → Nat) (ea ew : Nat → Int),
    (∀ i, i < 32 → a (32 * b + i) = .fin (na i) (ma i) (ea i) ∧ w (32 * b + i) = .fin (nw i) (mw i) (ew i) ∧ -512 ≤ ea i + ew i) →
    blockSum a w b 32 = some ((List.range 32).map (fun i => unitsAt (na i != nw i) (ma i * mw i) (ea i + ew i) (-512))).sum) ∧
  (∀ (a w : Nat → FpVal) (b i : Nat), i < 32 → ((a (32 * b + i)).isFin = false ∨ (w (32 * b + i)).isFin = false) →
    blockSum a w b 32 = none) ∧
  ∀ (s : State) (c : Cast) (k : MxCmd), k.b.kind = 1 → k.b.fuse = 0 → k.b.nout = 0 → cmdFits c k = true →
    mxClass (s.plot c.plot).wfmt.toNat = mxClass k.b.fmt →
    ∃ s1 fl, runCmd s c k = .ok (s1, fl) ∧
      (∀ i j, i < k.b.m → j < 128 → (s1.plot c.plot).cell (c.tile k.b.acct * 16384 + i * 128 + j) =
        (cellSums k (rowOfA c k i) { lo := ((s.plot c.plot).wfmt.toNat, (s.plot c.plot).wrows) } j
          ((s.plot c.plot).cell (c.tile k.b.acct * 16384 + i * 128 + j)) []).1.headD 0) ∧
      ∀ a, (∀ i j, i < k.b.m → j < 128 → a ≠ c.tile k.b.acct * 16384 + i * 128 + j) →
        (s1.plot c.plot).cell a = (s.plot c.plot).cell a

/-- The events that end a thread's waits, and the order of issue: `ThreadEvents` and `IssueOrder`. The model's choice, not the spec's:
an ORDERED set is fixed between steps (log 15). -/
def Obligations.ThreadEvents : Prop :=
  Sys2Proof.Claims.ThreadEvents ∧ Sys2Proof.Claims.IssueOrder

/-- Matrix commands start and retire in script order with exact integer sums: `MatrixEvents` and `MatrixSums`. The model's choice, not
the spec's: a command's effect is performed in the step that retires it (log 2), MXFUSE of a WLOAD (log 88), which sum an MXRN has
shown (log 57), and INFO and FADDR of its faults (log 83). -/
def Obligations.MatrixEvents : Prop :=
  Sys2Proof.Claims.MatrixEvents ∧ Sys2Proof.Claims.MatrixSums

/-! ### Scenes, graphs and contexts -/

/-- SCENE_ACCEPT, CAST_PLACEMENT, END_OF_LAUNCH and COMPLETION_RECORD_WRITE (R371, R381 to R384): the next queue in round robin that
has work is stopped with ERR, or its slot HEAD is copied, checked and accepted with HEAD as its submission number, and HEAD rises; the
first ready scene in priority and acceptance order, once the predecessor words have been read, places its next cast on the lowest-numbered plot that takes it, a COHORT scene
all its casts or none; a scene whose casts have all retired releases every plot and settles; and its record goes to the slots from
CQTAIL on once they are free, CQTAIL passes them, and the signal word is written. -/
def Sys2Proof.Claims.SceneEvents : Prop :=
  ∀ (s : State) (al : Nat) (a : Allot), look s.allots al = some a →
    (∀ q : Nat, a.rrQ < 64 → q < 64 → s.queueWork al q = true →
      (∀ r, r < 64 → (r + 64 - a.rrQ) % 64 < (q + 64 - a.rrQ) % 64 → s.queueWork al r = false) →
      (s.qcbBad al q = true → exec (.sceneAccept al) s = .next (s.stopQueue al q) ∧ ((s.stopQueue al q).queue al q).err = true) ∧
      (s.qcbBad al q = false →
        let h := (s.queue al q).head
        let d : BitVec 1024 := BitVec.ofNat 1024 (s.dpRead (s.qcb al q 0 8 + 128 * (h.toNat % 2 ^ (s.qcb al q 16 4 % 32))) 128 al)
        exec (.sceneAccept al) s = .next (s.acceptScene al q) ∧
        (refusal s al d = none → s.acceptScene al q = s) ∧
        ∀ (s1 : State) (r : Nat) (e : Effective) (b : Allot), refusal s al d = some (s1, r, e) → look s1.allots al = some b →
          ((s.acceptScene al q).queue al q).head = h + 1 ∧
          ∃ sc, look (s.acceptScene al q).scenes s1.nextScene = some sc ∧ sc.al = al ∧ sc.qn = q ∧ sc.subn = h ∧ sc.desc = d ∧
            sc.reason = r ∧ sc.acc = b.nAcc ∧ sc.nextC = 0 ∧ sc.phase = (if r = 0 then .running else .settled) ∧
            sc.prio = e.prio ∧ sc.path = e.path)) ∧
    (let s0 := s
      let s := s.predSees al
      ∀ (n : Nat) (sc : Scene), (n, sc) ∈ s.scenes → sc.al = al → s.sceneReady sc = true →
      (∀ e ∈ s.scenes, e ≠ (n, sc) → e.2.al = al → s.sceneReady e.2 = true → sc.before e.2 = true ∧ e.2.before sc = false) →
      look s.scenes n = some sc →
      (descCohort sc.desc = false ∨ sc.fire ≠ none → ∀ i p : Nat, (s.plotsOf al)[i]? = some p → s.allowsPlot sc i = true →
        s.canTake p n sc.desc = true →
        (∀ j q, j < i → (s.plotsOf al)[j]? = some q → s.allowsPlot sc j = true → s.canTake q n sc.desc = false) →
        exec (.castPlacement al) s0 = .next (s.placeOn n sc p i)) ∧
      (descCohort sc.desc = true → sc.fire = none →
        exec (.castPlacement al) s0 = .next ((s.placeAll n (descCasts sc.desc - sc.nextC)).getD s))) ∧
    ∀ (n : Nat) (sc : Scene), look s.scenes n = some sc → sc.al = al →
      (sc.phase = .running → sc.fire = none → sc.reason = 0 → descDet sc.desc ≠ 2 → sc.rerun = false →
        descCasts sc.desc ≤ sc.nEnd + sc.nFail →
        let s1 := (s.plotsOf al).foldl (fun s p => s.release p 3) s
        exec (.endOfLaunch al n) s = .next ((s1.onScene n (fun x => { x with
          phase := .settled, setOrd := ((look s1.allots al).map Allot.nSet).getD 0 })).onAllot al (fun a => { a with nSet := a.nSet + 1 }))) ∧
      (sc.phase = .settled →
        let cq := s.qcb al sc.qn 16 4 / 256 % 32
        let t := (s.queue al sc.qn).cqtail
        let m := 1 + (sc.nList cq + 3) / 4
        let s1 := s.putSlots al (s.qcb al sc.qn 8 8) cq t.toNat (sc.slots cq)
        let s2 := (s1.onQueue al sc.qn (fun q => { q with cqtail := t + BitVec.ofNat 32 m })).setIndex al sc.qn 36 (t + BitVec.ofNat 32 m)
        2 ≤ cq → cq ≤ 20 → ¬((s.queue al sc.qn).err = true ∧ (s.queue al sc.qn).errCq = true) → idxDiff t.toNat (s.qcb al sc.qn 40 4) + m ≤ 2 ^ cq →
        (∀ e ∈ s.scenes, e.2.al = al → e.2.qn = sc.qn → e.2.fire = none → e.2.phase = .settled → sc.setOrd ≤ e.2.setOrd) →
        (sc.slots cq).length = m ∧
        (descCwaddr sc.desc = 0 →
          exec (.completionRecordWrite al n) s = .next (({ s2 with scenes := del s2.scenes n } : State).idle al sc.qn)) ∧
        (descCwaddr sc.desc ≠ 0 → isGlobal (descCwaddr sc.desc) = true → descCwaddr sc.desc % 4 = 0 →
          isCommons (descCwaddr sc.desc) = false →
        ∀ s3, s2.agentPut al (descCwaddr sc.desc) 4 (byteN sc.desc 60 4) true = .ok s3 →
          exec (.completionRecordWrite al n) s = .next (({ s3 with scenes := del s3.scenes n } : State).idle al sc.qn)))

/-- A placed cast (R15, R34, R66 to R70, R74, R381): its threads stand in slots 0 to n − 1 with the state of R15, its crews with MODE,
FLAGS and counters 0; its scratch banks and then its operand banks are the lowest-numbered unclaimed ones, which leave the cache written
back and empty, and hold zeros; its tiles are unclaimed ones, and hold zeros; and its scene goes on to the next cast. -/
def Sys2Proof.Claims.PlacedCast : Prop :=
  ∀ (s : State) (n : Nat) (sc : Scene) (p rel : Nat), look s.scenes n = some sc → sc.fire = none → s.canTake p n sc.desc = true →
    let d := sc.desc
    let s1 := s.placeOn n sc p rel
    let free := (List.range 8).filter (fun b => (s.plot p).roles.toList.getD b 0 == 0)
    let param : DWord := BitVec.ofNat 64 (descParam d)
    ∃ c, look s1.casts s.nextCast = some c ∧ s1.nextCast = s.nextCast + 1 ∧
      look s1.scenes n = some { sc with nextC := sc.nextC + 1 } ∧
      c.al = sc.al ∧ c.qn = sc.qn ∧ c.scene = n ∧ c.ix = sc.nextC ∧ c.plot = p ∧ c.st = .resident ∧ c.desc = d ∧ c.param = param ∧
      c.seeds = [] ∧ c.ebuf = [] ∧ c.accepted = 0 ∧ c.committed = 0 ∧ c.clk = 0 ∧ c.lease = 0 ∧
      (∀ i, i < descStart d → ∃ t, look c.threads i = some t ∧ t.pc = BitVec.ofNat 64 (descEntry d) ∧
        t.getX 1 = BitVec.ofNat 32 i ∧ t.getX 2 = param.setWidth 32 ∧ t.getX 3 = (param >>> 32).setWidth 32 ∧
        (∀ r : BitVec 6, r ≠ 1 → r ≠ 2 → r ≠ 3 → t.getX r = 0) ∧ t.key = keySet 0 0 i ∧ t.dep = 1 ∧
        t.k = Vector.replicate 8 false ∧ t.e = Vector.replicate 4 0 ∧ t.lc = Vector.replicate 3 0 ∧ t.meet = 0 ∧
        t.cmask = 0xFFFFFFFF ∧ t.retired = 0 ∧ t.st = .ready ∧ t.pend = [] ∧ t.flights = []) ∧
      (∀ i, descStart d ≤ i → look c.threads i = none) ∧
      c.crews.length = descCrews d ∧
      (∀ w, w < descCrews d → (c.crew w).mode = 0 ∧ (c.crew w).flags = 0 ∧ ∀ cl, (c.crew w).count cl = 0) ∧
      c.scrBanks.length = descScnt d ∧ c.opdBanks.length = descOcnt d ∧ c.scrBanks ++ c.opdBanks = free.take (descScnt d + descOcnt d) ∧
      (∀ b, b < 8 → (s1.plot p).roles.toList.getD b 0 =
        if b ∈ c.scrBanks then 1 else if b ∈ c.opdBanks then 2 else (s.plot p).roles.toList.getD b 0) ∧
      (c.scrBanks ++ c.opdBanks ≠ [] → (s1.plot p).cache = []) ∧
      (∀ a m, Memory.read c.scr a m = 0 ∧ Memory.read c.opd a m = 0) ∧
      c.tiles.length = descAcnt d ∧ c.tiles.Nodup ∧
      (∀ t ∈ c.tiles, t < 8 ∧ (∀ e ∈ s.casts, e.2.plot = p → e.2.st ≠ .listWait → t ∉ e.2.tiles) ∧
        ∀ a, a / 16384 = t → (s1.plot p).cell a = 0)

/-- The balance engine (R327 to R329): a stage's ports in increasing channel number; what the checks of step 1 leave; the smallest
positive repetition counts that balance every channel, or the lowest stage that no chain of channels joins to stage 0, or a channel
that no counts balance; the limits of step 3; and the simulated period, whose firings take and make their tokens, the lowest stage that
can fire first, until every stage has fired its count, or until none can. -/
def Sys2Proof.Claims.GraphBalance : Prop :=
  (∀ (cs : List Chan) (st i : Nat), (i ∈ inPorts cs st ↔ ∃ c, cs[i]? = some c ∧ c.dst = st) ∧
    (i ∈ outPorts cs st ↔ ∃ c, cs[i]? = some c ∧ c.src = st) ∧
    (inPorts cs st).Pairwise (fun x y => x < y) ∧ (outPorts cs st).Pairwise (fun x y => x < y)) ∧
  (∀ (s s1 : State) (al a : Nat) (r : GRead), readGraph s al a = (s1, .ok r) →
    r.stages.length = r.head.nstg ∧ 1 ≤ r.head.nstg ∧ r.head.nstg ≤ 64 ∧ r.chans.length = r.head.nch ∧ r.head.nch ≤ 128 ∧
    (∀ c ∈ r.chans, c.src < r.head.nstg ∧ c.dst < r.head.nstg ∧ 1 ≤ c.p ∧ c.p ≤ 65535 ∧ 1 ≤ c.c ∧ c.c ≤ 65535 ∧ c.init < 2 ^ 31 ∧
      c.rsz % 4 = 0 ∧ 4 ≤ c.rsz ∧ c.rsz ≤ 65536 ∧ c.made = c.init ∧ c.claimed = 0) ∧
    (∀ st, st < r.head.nstg → (inPorts r.chans st).length ≤ 4 ∧ (outPorts r.chans st).length ≤ 4) ∧
    ∀ x ∈ r.stages, descCasts x.desc = 1 ∧ isGlobal (descParam x.desc) = true ∧ descParam x.desc % 256 = 0) ∧
  (∀ (nstg : Nat) (cs : List Chan), 1 ≤ nstg → (∀ c ∈ cs, c.src < nstg ∧ c.dst < nstg ∧ 1 ≤ c.p ∧ 1 ≤ c.c) →
    let joined : Nat → Nat → Prop := Relation.ReflTransGen (fun a b => ∃ c ∈ cs, (c.src = a ∧ c.dst = b) ∨ (c.src = b ∧ c.dst = a))
    let bal (v : List Nat) (c : Chan) : Prop := c.p * v.getD c.src 0 = c.c * v.getD c.dst 0
    let pos (v : List Nat) : Prop := v.length = nstg ∧ ∀ x ∈ v, 1 ≤ x
    (∀ q, repetition nstg cs = .ok q → pos q ∧ (∀ c ∈ cs, bal q c) ∧
      ∀ v, pos v → (∀ c ∈ cs, bal v c) → ∀ i, i < nstg → q.getD i 0 ≤ v.getD i 0) ∧
    (∀ e, repetition nstg cs = .error e →
      (∃ n, e = .stage n ∧ n < nstg ∧ ¬joined 0 n ∧ ∀ m, m < n → joined 0 m) ∨
      ∃ n, e = .chan n ∧ (∀ m, m < nstg → joined 0 m) ∧ (¬∃ v, pos v ∧ ∀ c ∈ cs, bal v c) ∧
        ∃ v c, pos v ∧ (∀ x ∈ cs.take n, bal v x) ∧ cs[n]? = some c ∧ ¬bal v c)) ∧
  (∀ (q : List Nat), (limits q = .ok () ↔ (∀ x ∈ q, x ≤ 65535) ∧ q.sum ≤ 65536) ∧
    (∀ n, limits q = .error (.stage n) ↔ (∃ x, q[n]? = some x ∧ 65535 < x) ∧ ∀ x ∈ q.take n, x ≤ 65535) ∧
    (limits q = .error .none ↔ (∀ x ∈ q, x ≤ 65535) ∧ 65536 < q.sum)) ∧
  (∀ (cs : List Chan) (p : Period),
    let may (st : Nat) : Prop := 0 < p.left.getD st 0 ∧ ∀ i c, cs[i]? = some c → c.dst = st → c.c ≤ p.tok.getD i 0
    (∀ st, p.next cs = some st ↔ st < p.left.length ∧ may st ∧ ∀ m, m < st → ¬may m) ∧
    (p.tok.length = cs.length → p.req.length = cs.length → ∀ st, may st →
      let p' := p.fire cs st
      (∀ i c, cs[i]? = some c → p'.tok.getD i 0 = p.tok.getD i 0 - (if c.dst = st then c.c else 0) + (if c.src = st then c.p else 0) ∧
        p'.req.getD i 0 = max (p.req.getD i 0) (p'.tok.getD i 0)) ∧
      (∀ m, p'.left.getD m 0 = p.left.getD m 0 - if m = st then 1 else 0) ∧
      (∀ l n, p.table = l ++ [(st, n)] → p'.table = l ++ [(st, n + 1)]) ∧
      ((∀ l n, p.table ≠ l ++ [(st, n)]) → p'.table = p.table ++ [(st, 1)]))) ∧
  (∀ (cs : List Chan) (q tok req : List Nat),
    let p0 : Period := { tok := tok, req := req, left := q, table := [] }
    (∀ p, p0.run cs q.sum = .ok p → (∀ x ∈ p.left, x = 0) ∧
      ∀ st, st < q.length → ((p.table.filter (fun e => e.1 == st)).map Prod.snd).sum = q.getD st 0) ∧
    ∀ p, p0.run cs q.sum = .error p → p.next cs = none ∧ ∃ x ∈ p.left, 0 < x) ∧
  ∀ (s s1 : State) (al a : Nat),
    (∀ h d, readGraph s al a = (s1, .error (h, d)) → balance s al a none = (s1, .bad h d)) ∧
    ∀ r, readGraph s al a = (s1, .ok r) →
      (∀ d, repetition r.head.nstg r.chans = .error d → balance s al a none = (s1, .bad r.head d)) ∧
      ∀ q, repetition r.head.nstg r.chans = .ok q →
        (∀ d, limits q = .error d → balance s al a none = (s1, .bad r.head d)) ∧
        (limits q = .ok () →
          let p0 : Period := { tok := r.chans.map Chan.init, req := r.chans.map Chan.init, left := q, table := [] }
          (∀ p, p0.run r.chans q.sum = .error p → balance s al a none = (s1, .dead r.head q p.tok)) ∧
          ∀ p, p0.run r.chans q.sum = .ok p → balance s al a none =
            (s1, if r.head.fcap < p.table.length then .bad r.head .none else .done r q p))

/-- BINDING, REBINDING, FIRING_START, EOS_FIRING and GRAPH_FAILURE_STOP (R329, R333, R337 to R339): the engine writes STATUS 0, then
a binding's tables and STATUS 1, or a failure's code, all of it outside a migration of the allotment's pages (R414); the next firing in order starts once its records and ring slots allow, its input
records claimed and its output records counted, and its cast is launched from the copy of the stage's descriptor with its own record's
address for a parameter block; after a drained stop the stages' EOS firings start one by one and move no counter;
and a failed run ends with its code in RUNW. -/
def Sys2Proof.Claims.GraphEvents : Prop :=
  ∀ (s : State) (al g : Nat) (x : Graph), s.graph? al g = some x →
    (x.st = .binding → s.migrating al = false →
      let s0 := s.gstatus al x.addr 0
      (∀ (s1 : State) (r : GRead) (q : List Nat) (p : Period), balance s0 al x.addr none = (s1, .done r q p) →
        exec (.binding al g) s = .next (((((s1.putBinding al x.addr r.head q p).onGraph al g (fun x =>
          { boundGraph x false r q p with st := .bound, k := 0, j := 0, target := none })).setPerdone al g 0).setRunw al g 0).gstatus al x.addr 1)) ∧
      (∀ (s1 : State) (h : GHead) (d : Detail), balance s0 al x.addr none = (s1, .bad h d) →
        exec (.binding al g) s = .next ((((match d with
          | .none => s1
          | .chan n => s1.gput al (h.ctab + 48 * n + 32) 4 0xFFFFFFFF
          | .stage n => s1.gput al (h.stab + 32 * n + 16) 4 0xFFFFFFFF).gstatus al x.addr 0x80000013)).onGraph al g (fun x =>
            { x with st := .unbound }))) ∧
      (∀ (s1 : State) (h : GHead) (q tok : List Nat), balance s0 al x.addr none = (s1, .dead h q tok) →
        exec (.binding al g) s = .next ((((s1.gputs al (h.stab + 16) 32 q).gputs al (h.ctab + 32) 48 tok).gstatus al x.addr
          0x80000014).onGraph al g (fun x => { x with st := .unbound })))) ∧
    (s.mayFire al x = true → s.migrating al = false → ∀ st i, ordinal x.table x.j [] = some (st, i) →
      let s1 := s.startFiring al g x x.k x.j st i false
      exec (.firingStart al g) s = .next (s1.onGraph al g (fun x =>
        if x.j + 1 = x.perf then { x with k := x.k + 1, j := 0 } else { x with j := x.j + 1 }))) ∧
    (x.st = .stopping → x.failed = none → x.drained = true → s.ctxOpen al x.ctxQ = true → s.migrating al = false → ∀ st, x.eosOrder[x.eosPos]? = some st →
      exec (.eosFiring al g) s = .next ((s.startFiring al g x x.k x.eosPos st 0 true).onGraph al g (fun x => { x with
        eosPos := x.eosPos + 1 }))) ∧
    (∀ (sg : Stage) (st k j i : Nat) (eos : Bool) (y : Graph), x.stages[st]? = some sg →
      (s.startFiring al g x k j st i eos).graph? al g = some y →
      ∃ f, y.firings.getLast? = some f ∧ f.k = k ∧ f.j = j ∧ f.stage = st ∧ f.eos = eos ∧ f.ended = false ∧ f.plot = none ∧
        f.ins = (x.ports st eos).1 ∧ f.outs = (x.ports st eos).2 ∧ (∀ o ∈ f.outs, eos = true → o.cnt = 0) ∧
        (∀ r : PortRange, r ∈ f.ins ↔ ∃ c, x.chans[r.ch]? = some c ∧ c.dst = st ∧ r.first = c.claimed ∧ r.cnt = if eos then c.init else c.c) ∧
        (∀ r : PortRange, r ∈ f.outs ↔ ∃ c, x.chans[r.ch]? = some c ∧ c.src = st ∧ r.first = c.made ∧ r.cnt = if eos then 0 else c.p) ∧
        (∀ (n : Nat) (c : Chan), x.chans[n]? = some c → ∃ d, y.chans[n]? = some d ∧
          d.claimed = c.claimed + (if eos = false ∧ c.dst = st then c.c else 0) ∧
          d.made = c.made + (if eos = false ∧ c.src = st then c.p else 0)) ∧
        ∃ n sc, look (s.startFiring al g x k j st i eos).scenes n = some sc ∧ sc.fire = some { g := g, k := k, j := j, stage := st, eos := eos } ∧
          sc.al = al ∧ sc.qn = x.ctxQ ∧ sc.subn = x.ctxSubn ∧ sc.phase = .running ∧ sc.nextC = 0 ∧
          sc.desc = descSet sg.desc 8 8 (descParam sg.desc + 256 * (k % 2 * sg.q + i))) ∧
    (∀ c, x.failed = some c → x.runs = true → (∀ f ∈ x.firings, f.ended = true) → s.migrating al = false →
      exec (.graphFailureStop al g) s = .next (((((s.countPeriods al g).onGraph al g (fun x => { x with st := .failed })).setRunw al g
        (0x80000000 + c.toNat))).idle al x.ctxQ)) ∧
    (x.st = .rebinding → x.failed = none → x.drained = true → s.migrating al = false →
      let s0 := s.gstatus al x.addr 0
      (∀ (s1 : State) (r : GRead) (q : List Nat) (p : Period), balance s0 al x.addr (some x) = (s1, .done r q p) →
        let s2 := ((s1.putBinding al x.addr r.head q p).onGraph al g (fun x => boundGraph x true r q p)).gstatus al x.addr 1
        (x.target = none → exec (.rebinding al g) s = .next ((s2.runGraph al g 0 2).idle al x.ctxQ)) ∧
        (∀ n, x.target = some n → x.k < n → exec (.rebinding al g) s = .next ((s2.runGraph al g (n - x.k) 2).idle al x.ctxQ)) ∧
        (∀ n, x.target = some n → n ≤ x.k →
          exec (.rebinding al g) s = .next (((s2.onGraph al g (fun x => { x with st := .bound })).setRunw al g 2).idle al x.ctxQ))) ∧
      (∀ (s1 : State) (h : GHead) (d : Detail), balance s0 al x.addr (some x) = (s1, .bad h d) →
        exec (.rebinding al g) s = .next (((s1.putFailure al x.addr (.bad h d)).onGraph al g (fun x => { x with
          st := .failed })).idle al x.ctxQ)))

/-- SLICE_END, SOFT_SAVE_COMPLETE, HARD_PREEMPTION, CONTEXT_RESTORE, PAGE_OUT and CONTEXT_RECALL (R387 to R389, R392, R393): a
candidate whose slice has ended drains, or is saved at once, where a ready scene of a higher priority cannot be placed and no better
victim exists, one decision for every slice that has ended, and else its slice begins again; a drained context saves its scene records; one whose drain limit has expired is saved
with its casts; a saved one whose images match is restored to its plots with CTXST 1; and a paged-out one with casts comes back to CTXST 2, with its bytes where the key slot still holds its key. -/
def Sys2Proof.Claims.ContextEvents : Prop :=
  ∀ (s : State) (al qn : Nat),
    (∀ (x : Scene), s.topScene al qn = some x → (s.queue al qn).ctxst = 1 → (s.queue al qn).draining = none →
      (s.queue al qn).saving = false → x.slice ≠ 0 → (s.queue al qn).since + 1024 * x.slice ≤ s.dieClk.toNat →
      let picked := s.savea al qn ≠ 0 ∧ s.pressed al qn x.prio = true ∧ s.betterVictim al qn x.prio = false
      let s1 := s.sliceTogether al qn
      (picked → x.drain ≠ 0 → exec (.sliceEnd al qn) s = .next (s1.startDrain al qn (1024 * x.drain)) ∧
        (∀ e ∈ (s1.startDrain al qn (1024 * x.drain)).casts, e.2.al = al → e.2.qn = qn → e.2.st ≠ .resident)) ∧
      (picked → x.drain = 0 → exec (.sliceEnd al qn) s = .next (s1.hardSave al qn)) ∧
      (¬picked → exec (.sliceEnd al qn) s = .next (s.onQueue al qn (fun x => { x with since := s.dieClk.toNat }))) ∧
      ∀ (a : Allot) (r : Nat) (y : Scene), look s.allots al = some a → r < 64 → r ≠ qn → s.topScene al r = some y →
        (s1.queue al r).since = (if s.candidate al r = true ∧ (s.queue al r).since + 1024 * y.slice ≤ s.dieClk.toNat then s.dieClk.toNat
          else (s.queue al r).since)) ∧
    ((s.queue al qn).draining ≠ none → s.placed al qn = [] →
      let r := (s.offPlots al qn).putArea al qn false []
      exec (.softSaveComplete al qn) s = .next ((((r.1.onAllot al (fun a => { a with
        saved := a.saved.filter (fun v => v.qn != qn) ++ [{ qn := qn, casts := [], turns := [], size := r.2.2, nvme := none }] })).onQueue
          al qn (fun x => { x with draining := none })).setCtxst al qn 2).idle al qn)) ∧
    ((s.queue al qn).saving = true → exec (.hardPreemption al qn) s = .next (s.hardSave al qn)) ∧
    (∀ n, (s.queue al qn).saving = false → (s.queue al qn).draining = some n → (s.queue al qn).drainLim ≤ n → s.placed al qn ≠ [] →
      exec (.hardPreemption al qn) s = .next (s.hardSave al qn)) ∧
    ∀ (a : Allot) (v : Saved), look s.allots al = some a → a.saved = [v] → v.qn = qn →
      ((s.queue al qn).ctxst = 2 → v.casts ≠ [] → s.canRestore v.casts = true → (∀ x ∈ v.casts, s.imageOk (s.savea al qn) x = true) →
        let s1 := ((s.onAllot al (fun a => { a with saved := [] })).onQueue al qn (fun x => { x with
          since := s.dieClk.toNat, candAt := s.dieClk.toNat })).setCtxst al qn 1
        exec (.contextRestore al qn) s =
          .next ((v.turns.foldl (fun s e => s.restoreTurn e.1 e.2) (s1.restoreCasts v.casts)).idle al qn)) ∧
      ((s.queue al qn).ctxst = 2 → qn < 64 → ∃ s' b w, exec (.pageOut al qn) s = .next s' ∧ (s'.queue al qn).ctxst = 3 ∧
        look s'.allots al = some b ∧ b.saved = [w] ∧ w.casts = v.casts ∧
        w.nvme = some ((List.range v.size).map (fun i => BitVec.ofNat 8 (s.dpRead (s.savea al qn + i) 1 al)), s.slotKey al)) ∧
      (∀ bs, v.nvme = some (bs, s.slotKey al) → (s.queue al qn).ctxst = 3 → (s.queue al qn).recalled = true →
        let s4 := s.setCtxst al qn 4
        exec (.contextRecall al qn) s = .next ((((s4.dpBytes al (s4.savea al qn) bs).onAllot al (fun x => { x with
          saved := x.saved.map (fun w => if w.qn = qn then { w with nvme := none } else w) })).setCtxst al qn 2).idle al qn)) ∧
      ((s.queue al qn).ctxst = 3 → (s.queue al qn).recalled = true → qn < 64 → v.casts ≠ [] → ∃ s' b w, exec (.contextRecall al qn) s = .next s' ∧
        (s'.queue al qn).ctxst = 2 ∧ look s'.allots al = some b ∧ b.saved = [w] ∧ w.casts = v.casts ∧ w.nvme = none)

/-- A hard save and its restore (R44, R389 to R392): no thread of the context issues and no cast of it is placed once it is being saved;
step 2 goes on until nothing that it waits for is left; then the plots are drained, every placed cast is saved with its threads, its
deferred threads, its buffered records and its storage, and leaves its plot, and CTXST is 2; a copy that waits for a reel entry is
withdrawn with every later copy of its cast; the save area's header and images lie as R390 and R391 say; a cast whose image does not
match fails with MEMERR; and a restored one is as it was, with its registers below BUDGET. -/
def Sys2Proof.Claims.ContextSave : Prop :=
  (∀ (s : State) (al q : Nat), (s.queue al q).saving = true → s.ctxOpen al q = false ∧ ∀ c : Cast, c.al = al → c.qn = q → s.issues c = false) ∧
  (∀ (s : State) (al q : Nat),
    let s0 := s.onQueue al q (fun x => { x with saving := true })
    let s1 := s0.drainAll (s0.placedIds al q)
    let s2 := s1.drainPlots al q
    let s3 := s2.drainAll (s2.placedIds al q)
    ((∃ c ∈ s1.placedIds al q, s1.draining c (fun h => !s1.waitsSave al h) = true) → s.hardSave al q = s1) ∧
    ((∀ c ∈ s1.placedIds al q, s1.draining c (fun h => !s1.waitsSave al h) = false) →
      ((∃ c ∈ s3.placedIds al q, s3.draining c = true) → s.hardSave al q = s3) ∧
      ((∀ c ∈ s3.placedIds al q, s3.draining c = false) → badArea (s3.savea al q) = false → s.hardSave al q = s3.finishSave al q))) ∧
  (∀ (s : State) (al q n : Nat) (a : Allot) (c : Cast), look s.allots al = some a → q < 64 → badArea (s.savea al q) = false →
    look s.casts n = some c → c.al = al → c.qn = q → c.st ≠ .listWait →
    let t := s.finishSave al q
    look t.casts n = none ∧ t.placed al q = [] ∧ (t.queue al q).ctxst = 2 ∧ (t.queue al q).saving = false ∧
    ∃ b v x, look t.allots al = some b ∧ v ∈ b.saved ∧ v.qn = q ∧ x ∈ v.casts ∧ x.cid = n ∧ x.cast = { c with withdrawn := [] } ∧
      x.copies = c.withdrawn ∧ x.held = (s.plot c.plot).oplog.filter (fun h => h.cid == n) ∧
      x.mxws = (s.plot c.plot).mxws.filter (fun w => w.cid == n) ∧
      x.cmds = ((s.plot c.plot).script.filter (fun k => k.cid == n)).map (fun k => { k with started := false })) ∧
  (∀ (s : State) (p : Nat) (k : Copy) (c : Cast) (l m : List Copy), (s.plot p).copies = l ++ k :: m → look s.casts k.cid = some c →
    ((s.plot p).copies.map (fun x => (x.cid, x.op))).Nodup →
    let t := s.withdraw p k
    (t.plot p).copies = l ++ m.filter (fun x => x.cid != k.cid) ∧
    ∃ d, look t.casts k.cid = some d ∧ d.withdrawn = c.withdrawn ++ k :: m.filter (fun x => x.cid == k.cid) ∧ d.threads = c.threads ∧
      ∀ w, w < c.crews.length → (d.crew w).ops = (c.crew w).ops.filter (fun o => !(k :: m.filter (fun x => x.cid == k.cid)).any (fun x => x.op == o.id))) ∧
  (∀ (s : State) (al q : Nat) (hard : Bool) (xs : List SavedCast),
    let r := s.putArea al q hard xs
    let n := min 16 ((s.accepted al q).filter (fun e => e.2.phase == .running && !e.2.retired)).length
    (∃ s' : State, r.1 = s'.dpWrite (s.savea al q) 64 (packN [(0x53415631, 4), (1, 4), (if hard then 2 else 1, 1), (n, 1), (0, 2),
      (xs.length, 4), (r.2.2, 8), (64, 8), (64 + 192 * n, 8), (64 + 192 * n + 32 * xs.length, 8)]) al) ∧
    (∀ (i : Nat) (x : SavedCast), r.2.1[i]? = some x → x.isize = x.body + 128 ∧ x.isize % 128 = 0 ∧ x.ioff + x.isize ≤ r.2.2 ∧
      ∀ (y : SavedCast), r.2.1[i + 1]? = some y → y.ioff = x.ioff + x.isize)) ∧
  (∀ (s : State) (a : Nat) (x : SavedCast) (l : List SavedCast), s.imageOk a x = false → s.recFull = false →
    s.failImages a (x :: l) = (s.failImage a x).failImages a l ∧
    ∃ r : FaultRec, r.code = .memerr ∧ r.cls = 1 ∧ r.castix = BitVec.ofNat 32 x.cast.ix ∧ r.faddr = BitVec.ofNat 64 (a + x.ioff) ∧
      s.failImage a x = ((s.record r).addClamps x.cast).countFail x.cast .memerr) ∧
  ∀ (s : State) (base shift : Nat) (nums : List Nat) (x : SavedCast),
    ∃ c, look (s.restoreCast base shift nums x).casts x.cid = some c ∧ c.st = .resident ∧ c.plot = x.cast.plot ∧ c.desc = x.cast.desc ∧
      c.al = x.cast.al ∧ c.qn = x.cast.qn ∧ c.scene = x.cast.scene ∧ c.ix = x.cast.ix ∧ c.seeds = x.cast.seeds ∧ c.ebuf = x.cast.ebuf ∧
      c.accepted = x.cast.accepted ∧ c.committed = x.cast.committed ∧ c.scr = x.cast.scr ∧ c.opd = x.cast.opd ∧ c.reels = x.cast.reels ∧
      c.clk = x.cast.clk ∧ c.digest = x.cast.digest ∧ c.steps = x.cast.steps ∧ c.deferred = x.cast.deferred ∧
      c.crews.length = x.cast.crews.length ∧
      (∀ w, w < c.crews.length → { c.crew w with ops := [] } = { x.cast.crew w with ops := [] }) ∧
      c.threads.map Prod.fst = x.cast.threads.map Prod.fst ∧
      ∀ i t, look x.cast.threads i = some t → ∃ u, look c.threads i = some u ∧ u.pc = t.pc ∧ u.key = t.key ∧ u.dep = t.dep ∧
        u.k = t.k ∧ u.e = t.e ∧ u.lc = t.lc ∧ u.ll = t.ll ∧ u.meet = t.meet ∧ u.cmask = t.cmask ∧ u.retired = t.retired ∧
        (∀ r : BitVec 6, u.getX r = if r.toNat < descBudget x.cast.desc then t.getX r else 0) ∧
        (u.st = t.st ∨ ∃ w, t.st = .blocked (.waita w) ∧ u.st = .blocked (.waita { w with woken := true }))

/-- Scenes are accepted, placed, ended and recorded: `SceneEvents` and `PlacedCast`. The model's choice, not the spec's: ERR is looked
at while a descriptor is pending (log 24); a nonzero high word of RESV stops the queue (log 13); a cast claims the lowest free tiles
(log 84). -/
def Obligations.SceneEvents : Prop :=
  Sys2Proof.Claims.SceneEvents ∧ Sys2Proof.Claims.PlacedCast

/-- Graphs bind, fire, stop, rebind and fail: `GraphEvents` and `GraphBalance`. The model's choice, not the spec's: each firing is a
scene of its own (log 28), with zero region values where its chain is bad (log 91); the writes of STATUS, RUNW and PERDONE are
releases (log 29); PIN and a rebinding (log 90), and a rebinding with no period left (log 93). -/
def Obligations.GraphEvents : Prop :=
  Sys2Proof.Claims.GraphEvents ∧ Sys2Proof.Claims.GraphBalance

/-- Contexts drain, are saved, restored, paged out and recalled: `ContextEvents` and `ContextSave`. The model's choice, not the spec's:
the saved image's contents are free and its check is over those bytes (log 33); a paged-out area comes back under the key that wrote
it (log 34); what a restore goes by (log 94) and whose SLICE counts (log 95). -/
def Obligations.ContextEvents : Prop :=
  Sys2Proof.Claims.ContextEvents ∧ Sys2Proof.Claims.ContextSave

/-! ### Fault records, answers, errors -/

/-- FAULT_RECORD_WRITE, FRESP_REPLAY and FRESP_FAIL (R416, R417, R419, R420, R443): the oldest record goes to the system ring, and to its
allotment's ring where it has one, once they have room, and the tails pass it; the record's fields stand at their offsets, the codes have their numbers;
a fatal fault fails its cast with its code, or with MEMERR in step 2 of a core repair; and an
answer to an outstanding record lets the held accesses to its page replay, after the failure of the cast that the record names where
ACTION is 1, be it placed or saved; another SEQ does nothing. -/
def Sys2Proof.Claims.FaultEvents : Prop :=
  ∀ s : State,
    (s.faultQ = [] → exec .faultRecordWrite s = .next s) ∧
    (∀ (r : FaultRec) (rs : List FaultRec), s.faultQ = r :: rs →
      let t := s.win.sfrtail
      let s1 := s.dpWrite (s.win.sfrbase.toNat + 64 * (t.toNat % 2 ^ s.win.sfrlog.toNat)) 64 r.bytes
      (2 ^ s.win.sfrlog.toNat ≤ idxDiff t.toNat s.win.sfrhead.toNat → exec .faultRecordWrite s = .next s) ∧
      (idxDiff t.toNat s.win.sfrhead.toNat < 2 ^ s.win.sfrlog.toNat →
        (r.both = false → ∃ s', exec .faultRecordWrite s = .next s' ∧ s'.faultQ = rs ∧ s'.win = { s.win with sfrtail := t + 1 } ∧
          s'.mem = s1.mem ∧ s'.allots = s.allots) ∧
        (∀ a, r.both = true → look s.allots r.al.toNat = some a →
          let head := s.dpRead (a.acbA + 0x50) 4 (acbOwner a.acb)
          let log := bitsN a.acb (8 * 0x48) 5
          (2 ^ log ≤ idxDiff a.frtail.toNat head → exec .faultRecordWrite s = .next s) ∧
          (idxDiff a.frtail.toNat head < 2 ^ log →
            let s2 := s1.dpWrite (byteN a.acb 0x40 8 + 64 * (a.frtail.toNat % 2 ^ log)) 64 r.bytes r.al.toNat
            ∃ s', exec .faultRecordWrite s = .next s' ∧ s'.faultQ = rs ∧ s'.win = { s.win with sfrtail := t + 1 } ∧
              s'.mem = (s2.dpWrite (a.acbA + 0x4C) 4 (a.frtail + 1).toNat r.al.toNat).mem ∧
              look s'.allots r.al.toNat = some { a with frtail := a.frtail + 1 })))) ∧
    (∀ r : FaultRec, let f (o n : Nat) : Nat := r.bytes / 2 ^ (8 * o) % 2 ^ (8 * n)
      f 0 1 = r.code.num ∧ f 1 1 = r.cls.toNat + (if r.agent then 4 else 0) ∧ f 2 1 = acckNum r.acck ∧ f 3 1 = r.dep.toNat ∧
      f 4 2 = r.al.toNat ∧ f 6 1 = r.qn.toNat ∧ f 7 1 = 0 ∧
      f 8 4 = r.seq.toNat ∧ f 12 4 = r.subn.toNat ∧ f 16 4 = r.castix.toNat ∧ f 20 2 = r.slot.toNat ∧ f 22 2 = r.plot.toNat ∧
      f 24 8 = r.iaddr.toNat ∧ f 32 8 = r.faddr.toNat ∧ f 40 4 = bitsN r.key 96 32 ∧ f 44 4 = bitsN r.key 64 32 ∧
      f 48 4 = bitsN r.key 32 32 ∧ f 52 4 = bitsN r.key 0 32 ∧ f 56 4 = r.info.toNat ∧ f 60 4 = r.time.toNat) ∧
    ([.ill, .pend, .align, .path, .xlate, .prot, .fown, .scope, .bcnt, .bdepth, .seedfull, .budget, .barcnt, .plotid, .outlmax, .slate,
      .mxcmd, .mxfuse, .grate, .gdead, .gbusy, .digest, .trap, .brk, .wdog, .memerr, .priv, .emitfull] : List FCode).map FCode.num =
      (List.range 28).map (fun n => n + 1) ∧
    (∀ (n : Nat) (c : Cast) (r : FaultRec), look s.casts n = some c →
      (s.repairing c = false ∨ s.repairWaits = true → s.fatal n r = (s.record r).failCast n r.code) ∧
      (s.repairing c = true → s.repairWaits = false → s.fatal n r = (s.record { r with code := .memerr }).failCast n .memerr)) ∧
    ∀ (sq : BitVec 32),
      ((∀ x ∈ s.resolv, x.seq ≠ sq) → exec (.frespReplay sq) s = .next s ∧ exec (.frespFail sq) s = .next s) ∧
      ∀ x : Resolv, x ∈ s.resolv → x.seq = sq → (∀ y ∈ s.resolv, y.seq = sq → y = x) →
        let s1 : State := { s with resolv := s.resolv.filter (fun y => y.seq != sq) }
        exec (.frespReplay sq) s = .next (s1.replayPage x.al x.plot x.vpn) ∧
        (∀ c, look s.casts x.cid = some c →
          exec (.frespFail sq) s = .next ((s1.failCast x.cid .xlate).replayPage x.al x.plot x.vpn)) ∧
        (look s.casts x.cid = none → exec (.frespFail sq) s = .next ((s1.failSaved x.al x.cid .xlate).replayPage x.al x.plot x.vpn))

/-- UNCORRECTABLE_ERROR, CORRECTED_ERROR and PATROL_SCRUB (R421, R445, R446): a line of memory that cannot be corrected keeps
failing; a clean line of a plot, a slice, or the READONLY and instruction copies is dropped, a dirty one is lost with a MEMERR record of class 1, once the record has room; a cast's storage
keeps the error until the cast reads it; a corrected error counts for its island, and a macro's sixteenth within 24 hours puts its row
in the repair map; and a line that the patrol reads is a transfer of the system. -/
def Sys2Proof.Claims.ErrorEvents : Prop :=
  ∀ s : State,
    (∀ l i, i = Instr.uncorrectableError (.memoryLine l) ∨ i = Instr.patrolScrub l .uncorrectable →
      ∃ s', exec i s = .next s' ∧ l ∈ s'.errLines ∧ s'.mem = s.mem ∧ s'.faultQ = s.faultQ) ∧
    (∀ p l, (∃ x ∈ (s.plot p).cache, x.n = l ∧ x.dirty = 0) → ∃ s', exec (.uncorrectableError (.cleanLine p l)) s = .next s' ∧
      (∀ x ∈ (s'.plot p).cache, x.n ≠ l) ∧ s'.lostLines = s.lostLines ∧ s'.faultQ = s.faultQ ∧ s'.mem = s.mem) ∧
    (∀ l, (∃ x ∈ s.slines, x.n = l ∧ x.dirty = false) → ∃ s', exec (.uncorrectableError (.cleanShared l)) s = .next s' ∧
      (∀ x ∈ s'.slines, x.n ≠ l) ∧ s'.lostLines = s.lostLines ∧ s'.faultQ = s.faultQ ∧ s'.mem = s.mem) ∧
    (∀ p l, (∃ x ∈ (s.plot p).roc, x.n = l) → ∃ s', exec (.uncorrectableError (.roLine p l)) s = .next s' ∧
      (∀ x ∈ (s'.plot p).roc, x.n ≠ l) ∧ s'.lostLines = s.lostLines ∧ s'.faultQ = s.faultQ ∧ s'.mem = s.mem) ∧
    (∀ p l, (∃ x ∈ (s.plot p).ic, x.n = l) → ∃ s', exec (.uncorrectableError (.codeLine p l)) s = .next s' ∧
      (∀ x ∈ (s'.plot p).ic, x.n ≠ l) ∧ s'.lostLines = s.lostLines ∧ s'.faultQ = s.faultQ ∧ s'.mem = s.mem) ∧
    (∀ p l, (∃ x ∈ (s.plot p).cache, x.n = l ∧ x.dirty ≠ 0) →
      (s.recFull = true → exec (.uncorrectableError (.dirtyPlot p l)) s = .next s) ∧
      (s.recFull = false → ∃ s' r, exec (.uncorrectableError (.dirtyPlot p l)) s = .next s' ∧
        (∀ x ∈ (s'.plot p).cache, x.n ≠ l) ∧ l ∈ s'.lostLines ∧ s'.faultQ = s.faultQ ++ [r] ∧ r.code = .memerr ∧ r.cls = 1 ∧
        s'.mem = s.mem)) ∧
    (∀ c k, look s.casts c = some k → ∃ s', exec (.uncorrectableError (.castStorage c)) s = .next s' ∧
      look s'.casts c = some { k with bad := true } ∧ s'.faultQ = s.faultQ ∧ s'.mem = s.mem) ∧
    (∀ isl m row, isl < 512 → ∃ s', exec (.correctedError isl m row) s = .next s' ∧
      ((look s'.mg.life.isl isl).getD {}).cec = satAdd32 ((look s.mg.life.isl isl).getD {}).cec 1 ∧
      let n := (s.mg.recent.filter (fun e => decide (e.1 = 2 * m ∧ s.mg.usec.toNat < e.2 + 86400000000))).length + 1
      (n < 16 → s'.mg.repairs = s.mg.repairs ∧ s'.mg.events = s.mg.events) ∧
      (16 ≤ n → (∀ e ∈ s'.mg.recent, e.1 ≠ 2 * m) ∧
        (s.mg.repairs.length < 16382 → s'.mg.repairs = s.mg.repairs ++ [sramEnt isl m row]) ∧
        (16382 ≤ s.mg.repairs.length → s'.mg.repairs = s.mg.repairs ∧ s'.mg.extra = s.mg.extra ++ [sramEnt isl m row]))) ∧
    ∀ l, exec (.patrolScrub l .clean) s = .next (s.charge (memArb (l * 128)) .system 1) ∧
      (l < 2 ^ 32 → ∃ s', exec (.patrolScrub l .corrected) s = .next s' ∧ s'.errLines = s.errLines ∧
        ((look s'.mg.life.isl (memIsland l)).getD {}).cec = satAdd32 ((look s.mg.life.isl (memIsland l)).getD {}).cec 1)

/-! ### The memory-system window -/

/-- ASSIGN, SHARE, FREE, SCRUB_COMPLETE, QUERY and KGEN (R407, R408, R412): each acts from the states that R407 gives it and leaves
the other frames as they are; elsewhere RESULT is 1, or 2 for a bad frame or key slot; a scrub drops the frame from every plot and
leaves it free with KEY 0, and with no hidden store; a key slot that a frame names keeps its key. -/
def Sys2Proof.Claims.FrameCommands : Prop :=
  ∀ (s : State) (f : BitVec 28) (o k : BitVec 12), s.windowUp = true →
    let e := s.frame f.toNat
    let becomes (i : Instr) (v : FrameEnt) : Prop := ∃ s', exec i s = .next s' ∧ s'.frame f.toNat = v ∧
      (∀ g, g ≠ f.toNat → s'.frame g = s.frame g) ∧ s'.win = { s.win with fresult := 0, fentry := v.bits } ∧ s'.mem = s.mem
    let result (i : Instr) (r : BitVec 2) : Prop := ∃ s', exec i s = .next s' ∧ s'.win.fresult = r ∧ s'.frames = s.frames
    (s.win.fbusy = false → frameOk f.toNat = true →
      (e.st = 0 → o ≠ 0xFFF → becomes (.assign f o k) { e with owner := o, key := k, st := 2 }) ∧
      (¬(e.st = 0 ∧ o ≠ 0xFFF) → result (.assign f o k) 1) ∧
      (e.st = 2 → 0x800 ≤ o.toNat → o.toNat ≤ 0xFFE → becomes (.share f o) { e with owner := o, st := 3 }) ∧
      (¬(e.st = 2 ∧ 0x800 ≤ o.toNat ∧ o.toNat ≤ 0xFFE) → result (.share f o) 1) ∧
      (2 ≤ e.st.toNat → ∃ s', exec (.free f) s = .next s' ∧ s'.frame f.toNat = { e with st := 1, zero := true } ∧
        (∀ g, g ≠ f.toNat → s'.frame g = s.frame g) ∧ s'.win.fbusy = true ∧ s'.win.scrub = some f.toNat ∧ s'.win.fresult = 0) ∧
      (e.st.toNat < 2 → result (.free f) 1) ∧ becomes (.query f) e) ∧
    (s.win.fbusy = false → frameOk f.toNat = false →
      result (.assign f o k) 2 ∧ result (.share f o) 2 ∧ result (.free f) 2 ∧ result (.query f) 2) ∧
    (s.win.fbusy = true → exec (.assign f o k) s = .next s ∧ exec (.share f o) s = .next s ∧ exec (.free f) s = .next s ∧
      exec (.query f) s = .next s) ∧
    (∀ g, s.win.scrub = some g → ∃ s', exec .scrubComplete s = .next s' ∧
      s'.frame g = { owner := 0xFFF, st := 0, key := 0, zero := true } ∧ (∀ h, h ≠ g → s'.frame h = s.frame h) ∧
      s'.win.fbusy = false ∧ s'.win.scrub = none ∧ s'.mem = s.mem ∧ (∀ l ∈ s'.slines, l.n / 512 ≠ g) ∧ (∀ l ∈ s'.lostLines, l / 512 ≠ g) ∧
      (∀ o ∈ s'.owns, o.pa / 65536 ≠ g) ∧
      ∀ p, ∀ l ∈ (s'.plot p).cache ++ (s'.plot p).roc ++ (s'.plot p).ic, l.n / 512 ≠ g) ∧
    (s.win.kbusy = false →
      (2 ≤ k.toNat → (∀ x ∈ s.frames, x.2.key ≠ k) → ∃ s', exec (.kgen k) s = .next s' ∧ look s'.keys k.toNat = some s.nextKey ∧
        s'.nextKey = s.nextKey + 1 ∧ s'.win.kresult = 0 ∧ ∀ j, j ≠ k.toNat → look s'.keys j = look s.keys j) ∧
      (2 ≤ k.toNat → (∃ x ∈ s.frames, x.2.key = k) → exec (.kgen k) s = .next { s with win := { s.win with kresult := 1 } }) ∧
      (k.toNat < 2 → exec (.kgen k) s = .next { s with win := { s.win with kresult := 2 } }))

/-- XINV_PAGE, XINV_ALLOTMENT, XINV_COMPLETE and REGISTER_WRITE (R9, R410, R411, R455): an invalidation sets BUSY, and at its end neither a plot
nor the migration engine holds a translation that it names while the others stay; a plain register takes the written bits of its field, MIGVA while MSTAT is not
busy; and MCMD takes a request while it is not busy. -/
def Sys2Proof.Claims.WindowCommands : Prop :=
  ∀ (s : State) (al : BitVec 12) (vpn : BitVec 32) (v : BitVec 64), s.windowUp = true →
    (s.win.xbusy = false →
      exec (.xinvPage al vpn) s = .next { s with win := { s.win with xbusy := true, xinv := some (al.toNat, some vpn.toNat) } } ∧
      exec (.xinvAllotment al) s = .next { s with win := { s.win with xbusy := true, xinv := some (al.toNat, none) } }) ∧
    (∀ (a : Nat) (n : Option Nat), s.win.xinv = some (a, n) → ∃ s', exec .xinvComplete s = .next s' ∧ s'.win.xbusy = false ∧
      s'.win.xinv = none ∧ s'.mem = s.mem ∧
      (∀ t, t ∈ s'.mtlb ↔ t ∈ s.mtlb ∧ ¬(t.al = a ∧ ∀ m, n = some m → t.vpn = m)) ∧
      ∀ p t, t ∈ (s'.plot p).tlb ↔ t ∈ (s.plot p).tlb ∧ ¬(t.al = a ∧ ∀ m, n = some m → t.vpn = m)) ∧
    (∃ s', exec (.registerWrite .sfrBase v) s = .next s' ∧ s'.win.sfrbase.toNat = v.toNat % 2 ^ 44 / 64 * 64) ∧
    (∃ s', exec (.registerWrite .sfrHead v) s = .next s' ∧ s'.win.sfrhead = v.setWidth 32) ∧
    (s.win.mbusy = false →
      ∃ s', exec (.registerWrite .migva v) s = .next s' ∧ s'.win.migvpn = v.setWidth 32 ∧ s'.win.migal = (v >>> 32).setWidth 12) ∧
    (s.win.mbusy = true → exec (.registerWrite .migva v) s = .next s) ∧
    (s.win.mcBusy = true → exec (.registerWrite .mcmd v) s = .next s) ∧
    (s.win.mcBusy = false → let o := v.toNat % 256
      (1 ≤ o ∧ o ≤ 11 → exec (.registerWrite .mcmd v) s =
        .next { s with win := { s.win with mcBusy := true, mcOp := BitVec.ofNat 8 o, mcNew := v.extractLsb' 16 16 } }) ∧
      (¬(1 ≤ o ∧ o ≤ 11) → exec (.registerWrite .mcmd v) s = .next { s with win := { s.win with mcResult := 1, mcTag := v.extractLsb' 16 16 } })) ∧
    (∀ i, i < 7 → ∃ s', exec (.registerWrite (.mdata i) v) s = .next s' ∧ s'.win.mdata[i]? = some v) ∧
    (∀ d i, d < 4 → i < 8 → ∃ s', exec (.registerWrite (.wpmask d i) v) s = .next s' ∧
      look s'.wpmask (8 * d + i) = some (v.setWidth 16))

/-- MIGDST and MIGRATION_COMPLETE (R402, R413, R414, R420, R421): the first check that fails gives RESULT and changes nothing else but
what the engine's translation cache holds; where all pass, M is set in the leaf, the page's translations are dropped, and its dirty lines
are written back; then the 64 KiB are copied once, the leaf maps the destination, the source frame goes to its scrub, and what waited for
the page goes on. A line that cannot be read leaves bytes that the spec does not state (log 85, the model's choice), with one record for
each as far as there is room; every other byte is the source's. -/
def Sys2Proof.Claims.MigrationEvents : Prop :=
  (∀ (s : State) (f : BitVec 28), s.windowUp = true → s.win.mbusy = false →
    let al := s.win.migal.toNat
    let vpn := s.win.migvpn.toNat
    (∀ r, s.migCheck al (vpn * 65536) f.toNat = .error r →
      exec (.migdst f) s = .next { s.migKeep al (vpn * 65536) with win := { s.win with migdst := f, mresult := BitVec.ofNat 4 r } } ∧
      (s.migKeep al (vpn * 65536) = { s with mtlb := (s.migKeep al (vpn * 65536)).mtlb }) ∧
      ∀ t ∈ (s.migKeep al (vpn * 65536)).mtlb, t ∈ s.mtlb ∨ (t.al = al ∧ t.vpn = vpn ∧ bitsN t.leaf 13 1 = 0 ∧
        migWalk s al (vpn * 65536) = .ok (t.leaf, t.ea))) ∧
    (∀ l ea, s.migCheck al (vpn * 65536) f.toNat = .ok (l, ea) →
      let s1 := ((s.leafStep ea leafM).dropTlb al vpn).flushFrame (bitsN l 16 28)
      exec (.migdst f) s = .next { s1 with win := { s1.win with
        migdst := f, mresult := 0, mbusy := true, migEa := ea, migSrc := bitsN l 16 28, migLeft := none } })) ∧
  (∀ s : State, s.win.mbusy = true →
    let al := s.win.migal.toNat
    let vpn := s.win.migvpn.toNat
    let sf := s.win.migSrc
    let df := s.win.migdst.toNat
    let r := s.migCopy al sf df
    (r.2 = false ∨ s.win.fbusy = true → exec .migrationComplete s = .next r.1) ∧
    (r.2 = true → s.win.fbusy = false →
      let s1 := ((r.1.leafStep s.win.migEa (fun l => migratedLeaf l df)).startScrub sf).rouse al (fun n => n == vpn)
      let s2 : State := { s1 with win := { s1.win with mbusy := false, migLeft := none } }
      let s3 := s2.plots.foldl (fun r e => r.replayPage al e.1 vpn) s2
      exec .migrationComplete s = .next ((s3.payOwed al).afterFirings al).retryAll)) ∧
  (∀ s : State, s.win.mbusy = false → exec .migrationComplete s = .next s) ∧
  (∀ (s : State) (al sf df : Nat),
    (∀ l, s.win.migLeft = some l → let r := s.migReport al df l
      s.migCopy al sf df = ({ r.1 with win := { r.1.win with migLeft := some r.2 } }, r.2.isEmpty)) ∧
    (s.win.migLeft = none → let r := ((s.copyFrame al sf df).moveOwns sf df).migReport al df (if (s.frame sf).zero then [] else s.badIn sf)
      s.migCopy al sf df = ({ r.1 with win := { r.1.win with migLeft := some r.2 } }, r.2.isEmpty)) ∧
    s.migReport al df [] = (s, []) ∧
    ∀ l r, (s.recFull = true → s.migReport al df (l :: r) = (s, l :: r)) ∧
      (s.recFull = false → s.migReport al df (l :: r) = (s.migLost al df l).migReport al df r ∧
        (∃ e : FaultRec, e.code = .memerr ∧ e.cls = 1 ∧ (s.migLost al df l).faultQ = s.faultQ ++ [e]) ∧
        (Memory.wf s.mem = true → ∀ a, Memory.byte (s.migLost al df l).mem a =
          if a / 128 = df * 512 + l % 512 then BitVec.ofNat 8 (Config.freeValue (s.freeCtr + a % 128)) else Memory.byte s.mem a))) ∧
  (∀ (s : State) (al sf df o : Nat), Memory.wf s.mem = true → sf ≠ df → o < 65536 → (s.frame sf).zero = false →
    Memory.byte (s.copyFrame al sf df).mem (df * 65536 + o) = Memory.byte s.mem (sf * 65536 + o) ∧
    (∀ a, a / 65536 ≠ df → Memory.byte (s.copyFrame al sf df).mem a = Memory.byte s.mem a) ∧
    (∀ l ∈ (s.copyFrame al sf df).errLines, l / 512 ≠ df) ∧
    ((s.copyFrame al sf df).frame df).zero = false) ∧
  (∀ (s : State) (al sf df : Nat), (s.frame sf).zero = true → s.copyFrame al sf df = s) ∧
  ∀ (l : DWord) (df : BitVec 28), let m := migratedLeaf l df.toNat
    m.extractLsb' 16 28 = df ∧ m.getLsbD 13 = false ∧ m.extractLsb' 14 2 = (if df.toNat < 2 ^ 23 then 0 else 1) ∧
    m.extractLsb' 0 13 = l.extractLsb' 0 13 ∧ m.extractLsb' 44 20 = l.extractLsb' 44 20

/-- CREATE, UPDATE, DESTROY, RTSYNC and CREPAIR (R424, R425, R437, R443, R444): each checks in the order of its RESULT codes; CREATE
makes the plots the allotment's, with FRTAIL and CLAMPS 0; UPDATE takes the block anew; DESTROY drops the allotment and its
translations; RTSYNC takes the routing table; and CREPAIR starts the repair of a core where a spare is left, which puts the spare
behind the core's number, with empty caches and a cycle counter of 0. The model's choice, not the spec's: CREATE takes HEAD and
CQTAIL from the control block (log 58), and a repair goes on by turns until its casts are at rest (log 45); the routing table is
renewed in one step (log 36). -/
def Obligations.AllotmentCommands : Prop :=
  ∀ (s : State) (a : BitVec 44), s.windowUp = true → s.win.abusy = false →
    let result (i : Instr) (r : BitVec 4) : Prop := exec i s = .next { s with win := { s.win with aresult := r } }
    (s.readAcb a.toNat = none → result (.create a) 1 ∧ result (.update a) 1 ∧ result (.destroy a) 1) ∧
    (∀ v, s.readAcb a.toNat = some v →
      let al := acbOwner v
      (look s.allots al = none →
        result (.update a) 2 ∧ result (.destroy a) 2 ∧
        (s.mapOk (s.plotMap v) = false → result (.create a) 3) ∧
        (s.mapOk (s.plotMap v) = true → s.sharesOk al v = false → result (.create a) 4) ∧
        (s.mapOk (s.plotMap v) = true → s.sharesOk al v = true → ∃ s' x, exec (.create a) s = .next s' ∧ s'.win = { s.win with aresult := 0 } ∧
          look s'.allots al = some x ∧ x.acb = v ∧ x.plots = s.plotMap v ∧ x.frtail = 0 ∧ x.clamps = 0 ∧ x.acbA = a.toNat ∧ x.owed = [])) ∧
      (∀ x, look s.allots al = some x → result (.create a) 2 ∧
        ((v &&& ~~~acbMutable) ≠ (x.acb &&& ~~~acbMutable) → result (.update a) 1) ∧
        ((v &&& ~~~acbMutable) = (x.acb &&& ~~~acbMutable) → s.sharesOk al v = false → result (.update a) 4) ∧
        ((v &&& ~~~acbMutable) = (x.acb &&& ~~~acbMutable) → s.sharesOk al v = true → ∃ s', exec (.update a) s = .next s' ∧
          look s'.allots al = some { x with acb := v, acbA := a.toNat } ∧ s'.win.aresult = 0 ∧ s'.mem = s.mem) ∧
        ((∃ q, q < 64 ∧ (s.queue al q).ctxst ≠ 0) ∨ (∃ e ∈ s.scenes, e.2.al = al) → result (.destroy a) 5) ∧
        ((∀ q, q < 64 → (s.queue al q).ctxst = 0) → (∀ e ∈ s.scenes, e.2.al ≠ al) → ∃ s', exec (.destroy a) s = .next s' ∧
          look s'.allots al = none ∧ (∀ m, m ≠ al → look s'.allots m = look s.allots m) ∧ s'.win.aresult = 0 ∧ s'.mem = s.mem ∧
          ∀ p, ∀ t ∈ (s'.plot p).tlb, t.al ≠ al))) ∧
    (∃ s', exec .rtsync s = .next s' ∧ ∀ d, d < 2048 →
      (look s'.routes d).getD 0 = BitVec.ofNat 128 (s.dpRead (s.win.rtbase.toNat + 16 * d) 16)) ∧
    (∀ c : BitVec 9,
      (s.win.crep = none →
        (384 ≤ c.toNat → exec (.crepair c) s = .next { s with win := { s.win with cresult := 2 } }) ∧
        (c.toNat < 384 → s.mg.spares.toList.getD (c.toNat / 96) 0 = 0 →
          exec (.crepair c) s = .next { s with win := { s.win with cresult := 1 } }) ∧
        (c.toNat < 384 → 0 < s.mg.spares.toList.getD (c.toNat / 96) 0 →
          exec (.crepair c) s = .next { s with win := { s.win with crep := some c.toNat } })) ∧
      ∀ k, s.win.crep = some k →
        (k = c.toNat → exec (.crepair c) s = .next { s with win := { s.win with cresult := 3 } }) ∧
        (k ≠ c.toNat → exec (.crepair c) s = .next s)) ∧
    ∀ k, k < 384 → s.win.crep = some k → s.repairCasts = [] →
      s.repairGo.win = { s.win with crep := none, cresult := 0 } ∧ look s.repairGo.clks k = some 0 ∧ s.repairGo.casts = s.casts ∧
      s.repairGo.mg.spares.toList.getD (k / 96) 0 = s.mg.spares.toList.getD (k / 96) 0 - 1 ∧
      ∀ i, i < 4 → (s.repairGo.plot (4 * k + i)).cache = [] ∧ (s.repairGo.plot (4 * k + i)).tlb = []

/-- Fault records are written and answered; errors of storage are contained: `FaultEvents` and `ErrorEvents`. The model's choice, not
the spec's: a failing macro and its row, and whether an instruction reads a bad word, are the oracle's (logs 67 and 86); the record
of a lost line is of class 1 (log 37), and records wait for both rings (log 97). -/
def Obligations.FaultEvents : Prop :=
  Sys2Proof.Claims.FaultEvents ∧ Sys2Proof.Claims.ErrorEvents

/-- The window's frame, key, invalidation, migration and register commands: `FrameCommands`, `WindowCommands` and `MigrationEvents`. The
model's choice, not the spec's: a command written while its BUSY is set changes nothing (log 10); the FREE of the source frame waits
while FSTAT is busy (log 51); a line that the migration cannot read gives free bytes (log 85). -/
def Obligations.WindowCommands : Prop :=
  Sys2Proof.Claims.FrameCommands ∧ Sys2Proof.Claims.WindowCommands ∧ Sys2Proof.Claims.MigrationEvents

/-! ### The host link and the fabric -/

/-- RDMA_WRITE, RDMA_READ, ATOMIC_FETCH_AND_ADD, ATOMIC_COMPARE_AND_SWAP, INVALID_REQUEST_NAK, ECN_MARKED_PACKET,
PRIORITY_FLOW_CONTROL_FRAME and ETHERNET_OPEN (R429 to R431, R456): a packet brings its request only by the IP of the pair and to
UDP port 4791, and what the pair sends goes out so; a request with the pair's R_Key and a GLOBAL address goes through at the home of
its bytes, within one line here, and is answered; another R_Key, bytes past 2^48, or an address that does not go through, takes a
NAK and the error state, with a class 3 record in the last case; a page under migration, or a request before it, makes it wait; the
atomics act on the low word; a paused priority holds back what the pair sends; and the link answers no request before both ports are
open. The model's choice, not the spec's: what a request that fails leaves, and the creation of a queue pair (log 46); a misaligned
atomic is an invalid request (log 47). -/
def Obligations.HostLink : Prop :=
  ∀ (s : State) (qp : Nat) (q : QPair) (rk : BitVec 32) (va x y : BitVec 64) (d : List (BitVec 8)) (n : Nat),
    s.ethOpen = true → look s.qps qp = some q → q.err = false →
    let naks (i : Instr) (r : State) : Prop := exec i s = .next ((r.ethSend qp (.nakAccess qp)).qpError qp)
    (∀ (ip udp : Nat) (r : RdmaReq), s.packet ip udp qp r = if udp = 4791 ∧ ip = (if q.ip6 then 6 else 4) then s.rdma qp r else s) ∧
    (q.wait ≠ [] → exec (.rdmaRead qp rk va n) s =
      .next { s with qps := put s.qps qp { q with wait := q.wait ++ [{ rk := rk, va := va, op := .read n }] } }) ∧
    (q.wait = [] →
      (rk ≠ q.rkey → naks (.rdmaWrite qp rk va d) s ∧ naks (.rdmaRead qp rk va n) s ∧
        (va.toNat % 8 = 0 → naks (.atomicFetchAndAdd qp rk va x) s ∧ naks (.atomicCompareAndSwap qp rk va x y) s)) ∧
      (rk = q.rkey → 2 ^ 48 < va.toNat + n → naks (.rdmaRead qp rk va n) s) ∧
      (rk = q.rkey → 2 ^ 48 < va.toNat + d.length → naks (.rdmaWrite qp rk va d) s) ∧
      (rk = q.rkey → va.toNat + n ≤ 2 ^ 48 → va.toNat < 2 ^ 48 →
        (∀ (s1 : State) (pa : Nat) (z : Bool), agentAccess s q.al va.toNat .write = .ok (s1, pa, z) →
          (0 < d.length → d.length < 128 → va.toNat % 128 + d.length ≤ 128 →
            exec (.rdmaWrite qp rk va d) s = .next ((s1.deviceWrite (.home pa) d.length (bytesNat d)).ethSend qp (.writeAck qp))) ∧
          (va.toNat % 8 = 0 →
            let answer (r : State × Word) : State :=
              r.1.ethSend qp (.atomicOld qp (BitVec.ofNat 64 (r.2.toNat + r.1.homeRead (pa + 4) 4 * 2 ^ 32)))
            exec (.atomicFetchAndAdd qp rk va x) s = .next (answer (s1.update 0 .home (.home pa) false (.op 0 (x.setWidth 32) 0))) ∧
            exec (.atomicCompareAndSwap qp rk va x y) s = .next (answer (s1.update 0 .home (.home pa) false (.op 10 (x.setWidth 32)
              (y.setWidth 32)))))) ∧
        (∀ (s1 : State) (pa : Nat) (z : Bool), agentAccess s q.al va.toNat .read = .ok (s1, pa, z) → 0 < n → va.toNat % 128 + n ≤ 128 →
          n ≤ q.mtu →
          exec (.rdmaRead qp rk va n) s = .next (s1.ethSend qp (.readData qp (natBytes n (if z then 0 else s1.homeRead pa n))))) ∧
        (∀ kind a, agentAccess s q.al va.toNat .read = .error (.xlate kind a) → 0 < n → s.recFull = false →
          ∃ r, naks (.rdmaRead qp rk va n) ((s.seesTo q.al va.toNat 1).record r) ∧ r.code = .xlate ∧ r.cls = 3 ∧ r.al = BitVec.ofNat 16 q.al ∧ r.faddr = va) ∧
        (∀ a, agentAccess s q.al va.toNat .read = .error (.migrating a) → 0 < n →
          exec (.rdmaRead qp rk va n) s =
            .next { s with qps := put s.qps qp { q with wait := [{ rk := rk, va := va, op := .read n }] } })) ∧
      exec (.invalidRequestNak qp) s = .next ((s.ethSend qp (.nakInvalid qp)).qpError qp)) ∧
    exec (.ecnMarkedPacket qp) s = .next (s.ethSend qp (.cnp qp)) ∧
    (s.qpError qp).qps = put s.qps qp { q with err := true, wait := [] } ∧
    (∀ m, let x := Sent.roce q.ip6 4791 m
      ((q.port, q.prio) ∉ s.pfc → s.ethSend qp m = { s with sent := s.sent ++ [x] }) ∧
      ((q.port, q.prio) ∈ s.pfc → s.ethSend qp m = { s with ethQ := s.ethQ ++ [(q.port, q.prio, x)] })) ∧
    (∀ port prio pause, port < 2 → ∃ s', exec (.priorityFlowControlFrame port prio pause) s = .next s' ∧
      ((port, prio) ∈ s'.pfc ↔ pause = true) ∧ (∀ e, e ≠ (port, prio) → (e ∈ s'.pfc ↔ e ∈ s.pfc)) ∧
      (pause = true → s'.sent = s.sent ∧ s'.ethQ = s.ethQ) ∧
      (pause = false → s'.ethQ = s.ethQ.filter (fun e => !(e.1 == port && e.2.1 == prio)) ∧
        s'.sent = s.sent ++ (s.ethQ.filter (fun e => e.1 == port && e.2.1 == prio)).map (fun e => e.2.2))) ∧
    (∀ m (p : QPair), s.windowUp = true → look s.qps m = none → s.qps.length < 16384 → p.port < 2 → p.mtu ∈ [1024, 2048, 4096] →
      (look s.allots p.al).isSome = true → s.newPair m p = { s with qps := put s.qps m { p with err := false, wait := [] } }) ∧
    ∀ (r : State), r.windowUp = true → r.mg.stage = 6 → ∃ r', exec .ethernetOpen r = .next r' ∧ r'.ethOpen = true ∧ r'.mg.stage = 7 ∧
      (r.ethOpen = false → exec (.rdmaWrite qp rk va d) r = .next r)

/-- REMOTE_REQUEST, FLIT_RECEIVE, LANE_RETIRE, LANE_FAILURE, LANE_RETRAIN_COMPLETE and ARBITRATION_WINDOW (R427, R428, R433 to R435,
R437 to R440): a message of an accepted flit is refused without an entry of the peer's table, and else performed in the peer's
GLOBAL space and answered, an ATOMT's wake by its threshold; an access of this device goes out as a request to the peer allotment:
XLATE of kind 7 where no entry names the device or the target refuses it, MEMERR without a port; a flit carries its fields where
R433 puts them; one that cannot be corrected is refused from the expected LSEQ on, and the next one in order brings its messages and
moves the sequence on; the flits after a refused one are sent again; a lane that goes takes a spare of its group and a retrain, or,
with no spare, is lost; and a window serves an allotment what it is charged, at most its cap. The model's choice, not the spec's:
whether a target refuses (log 35), a request that fails in any way is refused (log 48), a flit out of sequence is ignored, and
PAYLOAD and FEC are uninterpreted (log 49), both lane events take a spare (log 50), and the pending requests of an arbiter (log 68). -/
def Obligations.FabricEvents : Prop :=
  ∀ s : State,
    (∀ r : FabricRequest, let m := (r.src, r.peer, r.reqa)
      (m ∉ s.rx → exec (.remoteRequest r) s = .next s) ∧
      (s.windowUp = true → m ∈ s.rx → (s.routePort r.src.toNat (r.addr.toNat / 128)).isSome = true →
        let t : State := { s with rx := s.rx.erase m }
        (t.accepts r = false → exec (.remoteRequest r) s = .next (t.answer r .refuse)) ∧
        ∀ (va : Nat), t.accepts r = true → classify t.devnum r.addr = .glob va →
          (∀ (s1 : State) (pa : Nat) (z : Bool),
            (∀ n, r.op = .load n → agentAccess t r.peer.toNat va .read = .ok (s1, pa, z) →
              exec (.remoteRequest r) s = .next (s1.answer r (.data (natBytes n (if z then 0 else s1.homeRead pa n))))) ∧
            (∀ d rel, r.op = .store d rel → agentAccess t r.peer.toNat va .write = .ok (s1, pa, z) →
              let s2 := s1.quietWrite (.home pa) d.length (bytesNat d)
              exec (.remoteRequest r) s = .next ((if rel then s2.wakeRange (.home pa) d.length else s2).answer r .ack)) ∧
            (∀ o x y, r.op = .atomic o x y → agentAccess t r.peer.toNat va .write = .ok (s1, pa, z) →
              let u := s1.update 0 .home (.home pa) z (.op o.toNat x y)
              exec (.remoteRequest r) s = .next (u.1.answer r (.data (natBytes 4 u.2.toNat)))) ∧
            (∀ x lim, r.op = .atomt x lim → agentAccess t r.peer.toNat va .write = .ok (s1, pa, z) →
              let u := s1.update 0 .home (.home pa) z (.thresh x lim)
              exec (.remoteRequest r) s = .next (u.1.answer r (.data (natBytes 4 u.2.toNat))))) ∧
          (∀ n k a, r.op = .load n → agentAccess t r.peer.toNat va .read = .error (.xlate k a) →
            exec (.remoteRequest r) s = .next ((t.sees r.peer.toNat va).answer r .refuse)) ∧
          (∀ n a, r.op = .load n → agentAccess t r.peer.toNat va .read = .error (.migrating a) → exec (.remoteRequest r) s = .next s))) ∧
    (∀ (p : Packet) (n : Nat), s.routePort p.dest.toNat p.line = some n →
      ((s.port n).retrain = true → s.fabricSend p = s.setPort n { s.port n with wait := (s.port n).wait ++ [p] }) ∧
      ((s.port n).retrain = false → (s.fabricSend p).sent = s.sent ++ [.flit n (flitBytes s.devnum (s.port n).tseq p) p] ∧
        ((s.fabricSend p).port n).tseq = (s.port n).tseq + 1 ∧ ((s.port n).tseq, p) ∈ ((s.fabricSend p).port n).replay)) ∧
    (∀ (dev : BitVec 11) (lseq : BitVec 12) (p : Packet), let v := flitBytes dev lseq p
      v.extractLsb' 0 11 = p.dest ∧ v.extractLsb' 11 11 = dev ∧ v.extractLsb' 22 12 = p.peer ∧ v.extractLsb' 34 12 = p.reqa ∧
      v.extractLsb' 46 2 = 0 ∧ v.extractLsb' 48 12 = lseq ∧ v.extractLsb' 60 4 = 1) ∧
    (∀ (c : Cast) (dev a pal n : Nat) (w : Want), peerOf s c.al dev = some pal → s.routePort dev (a / 128) = some n →
      (s.oracle.head? = some 1 → remoteLoc s c dev a w = .error (.xlate 7 (a + 2 ^ 59 + dev * 2 ^ 48))) ∧
      (s.oracle.head? ≠ some 1 → dev < 2048 → (s.port n).retrain = false → ∃ t l,
        remoteLoc s c dev a w = .ok (t, l, false) ∧ t.mem = s.mem ∧ t.peers = s.peers ∧ 
        let p : Packet := { dest := BitVec.ofNat 11 dev, peer := BitVec.ofNat 12 pal, reqa := BitVec.ofNat 12 c.al, line := a / 128
                            msg := .request (BitVec.ofNat 64 a) (w == .write) }
        t.sent = s.sent ++ [.flit n (flitBytes s.devnum (s.port n).tseq p) p])) ∧
    (∀ (c : Cast) (dev a : Nat) (w : Want),
      (peerOf s c.al dev = none → remoteLoc s c dev a w = .error (.xlate 7 (a + 2 ^ 59 + dev * 2 ^ 48))) ∧
      ((peerOf s c.al dev).isSome = true → s.routePort dev (a / 128) = none → remoteLoc s c dev a w = .error (.fatal .memerr 1 0 false))) ∧
    (∀ (port : Nat) (q : BitVec 12), s.portUp port = true → (s.port port).retrain = false → (s.resend port q).sent = s.sent ++
      ((s.port port).replay.dropWhile (fun e => e.1 != q)).map (fun e => Sent.flit port (flitBytes s.devnum e.1 e.2) e.2)) ∧
    (∀ (port : Nat) (v : BitVec 2048), port < 128 → s.portUp port = true → (s.port port).retrain = false →
      exec (.flitReceive port v false) s = .next { s with sent := s.sent ++ [.linkRetry port (s.port port).lseq] } ∧
      (v.extractLsb' 48 12 ≠ (s.port port).lseq → exec (.flitReceive port v true) s = .next s) ∧
      (v.extractLsb' 48 12 = (s.port port).lseq →
        let ms := if v.extractLsb' 0 11 = s.devnum ∧ v.extractLsb' 46 2 = 0 then
          List.replicate (bitsN v 60 4) (v.extractLsb' 11 11, v.extractLsb' 22 12, v.extractLsb' 34 12) else []
        exec (.flitReceive port v true) s =
          .next ({ s.setPort port { s.port port with lseq := (s.port port).lseq + 1 } with rx := s.rx ++ ms }.charge (portArb port true)
            (.remoteIn (v.extractLsb' 22 12).toNat) 1))) ∧
    (∀ (port : Nat) (lane : Bool) (i : Instr), i = .laneRetire port lane ∨ i = .laneFailure port lane → port < 128 →
      (s.port port).laneUp lane = true →
      let left := s.spareLanes.toList.getD (port / 16) 0
      (0 < left → ∃ s', exec i s = .next s' ∧ s'.port port = { s.port port with retrain := true } ∧
        s'.spareLanes.toList.getD (port / 16) 0 = left - 1 ∧ ∀ p, p ≠ port → s'.port p = s.port p) ∧
      (left = 0 → ∃ s', exec i s = .next s' ∧ (s'.port port).laneUp lane = false ∧
        ∀ p l, (p, l) ≠ (port, lane) → (s'.port p).laneUp l = (s.port p).laneUp l)) ∧
    (∀ port, (s.port port).retrain = true → ∃ s', exec (.laneRetrainComplete port) s = .next s' ∧
      ((s.port port).wait = [] → s'.port port = { s.port port with retrain := false } ∧ s'.sent = s.sent) ∧
      (∀ w, (s.port port).wait = [w] → let t := s.setPort port { s.port port with retrain := false, wait := [] }
        (t.routePort w.dest.toNat w.line).isSome = true → s'.sent = (t.fabricSend w).sent)) ∧
    (∀ arb c n, s.pend = [] → (s.charge arb c n).pend = [(arb, chargedTo c, n)]) ∧
    ∀ (arb al n : Nat) (a : Allot), s.allots = [(al, a)] → al < 4096 → 0 < n → s.pend = [(arb, some al, n)] →
      acbFcap a.acb ≤ 256 → acbMcap a.acb ≤ 256 → ∃ s', exec (.arbitrationWindow arb) s = .next s' ∧
        let got := min (16 * (if arb < 256 then acbFcap a.acb else acbMcap a.acb)) n
        (s.serves arb = true → look s'.arb (arb * 4096 + al) = some got ∧ s'.pend = if got < n then [(arb, some al, n - got)] else []) ∧
        (s.serves arb = false → look s'.arb (arb * 4096 + al) = none ∧ s'.pend = s.pend)

/-! ### The management island -/

/-- The requests of R455 (SENSOR, SETOP, PCAP, EVREAD, LIFEREAD, FWWRITE, FWSEAL, FWCOMMIT, ATTEST, ATREAD), with the firmware rules of
R450 to R453: each answers RESULT 1 for an argument out of range, and else has its effect and answers its data. A request of the
sideband has its own arguments, one of the mailbox those that MDATA holds, in the order of the table (log 65). The model's choice,
not the spec's: the order of a report's fields (log 66), the source and the place of a request's arguments (log 65), and FWCOMMIT of
a good slot (log 43). -/
def Obligations.ManagementRequests : Prop :=
  ∀ s : State,
    let answers (i : Instr) (s1 : State) (op : Nat) (r : BitVec 4) (d : List Byte) : Prop := exec i s = .next (s1.respond op r d)
    (∀ (op : Nat), let here := s.windowUp = true ∧ s.win.mcBusy = true ∧ s.win.mcOp.toNat = op
      (¬here → (∀ o n v, s.arg op o n v = v) ∧ (∀ o n d, s.argBytes op o n d = d) ∧
        ∀ r d, s.respond op r d = { s with sent := s.sent ++ [.response op r s.mg.status d] }) ∧
      (here → (∀ o n d, s.argBytes op o n d = (s.win.box.drop o).take n) ∧ (∀ o n v, s.arg op o n v = bytesNat ((s.win.box.drop o).take n)) ∧
        ∀ r d, s.respond op r d = { s with win := { s.win with mcBusy := false, mcResult := r, mcTag := s.win.mcNew
                                                               mdata := if d = [] then s.win.mdata else mdataOf d } })) ∧
    (∀ isl : BitVec 16, let i := s.arg 1 0 2 isl.toNat
      (512 ≤ i → answers (.sensor isl) s 1 1 []) ∧ (i < 512 → answers (.sensor isl) s 1 0
        (natBytes 2 (s.island i).temp.toNat ++ natBytes 2 (s.island i).mv.toNat ++ natBytes 2 s.mg.power))) ∧
    (∀ (isl : BitVec 16) (pt : BitVec 8), let i := s.arg 2 0 2 isl.toNat
      let n := s.arg 2 2 1 pt.toNat
      (512 ≤ i ∨ 5 < n → answers (.setop isl pt) s 2 1 []) ∧
      (i < 512 → n ≤ 5 → s.mg.down = true ∨ s.mg.failed = true ∨ (n < 2 ∧ s.islandBusy i = true) → answers (.setop isl pt) s 2 2 []) ∧
      (i < 512 → n ≤ 5 → 2 ≤ n ∨ s.islandBusy i = false → s.mg.down = false → s.mg.failed = false →
        let x := s.island i
        let g := min n (min x.thermal.toNat x.power.toNat)
        let s1 : State := { s with mg := { s.mg with isl := put s.mg.isl i { x with req := BitVec.ofNat 3 n, point := BitVec.ofNat 3 g } } }
        let s2 := s1.respond 2 0 (natBytes 1 g)
        exec (.setop isl pt) s = .next (if n = 0 then s2.powerOff i else s2))) ∧
    (∀ v : BitVec 16, let w := s.arg 3 0 2 v.toNat
      (w < 400 ∨ 2200 < w → answers (.pcap v) s 3 1 []) ∧
      (400 ≤ w → w ≤ 2200 → answers (.pcap v) { s with mg := { s.mg with pcap := BitVec.ofNat 16 w } } 3 0 [])) ∧
    (∀ sq : BitVec 32, let n := s.arg 4 0 4 sq.toNat
      ((∀ e ∈ s.mg.events, e.seq.toNat ≠ n) → answers (.evread sq) s 4 1 []) ∧
      ∀ e, e ∈ s.mg.events → e.seq.toNat = n → (∀ f ∈ s.mg.events, f.seq.toNat = n → f = e) → answers (.evread sq) s 4 0 e.bytes) ∧
    (∀ off : BitVec 32, let o := s.arg 5 0 4 off.toNat
      (2097152 < o + 48 → answers (.liferead off) s 5 1 []) ∧
      (o + 48 ≤ 2097152 → answers (.liferead off) s 5 0 ((s.mg.life.bytes.drop o).take 48))) ∧
    (∀ (sl : BitVec 8) (off : BitVec 32) (v : List (BitVec 8)), let n := s.arg 6 0 1 sl.toNat
      let o := s.arg 6 1 4 off.toNat
      let d := s.argBytes 6 5 40 v
      (1 < n ∨ 2 ^ 24 < o + 40 ∨ d.length ≠ 40 → answers (.fwwrite sl off v) s 6 1 []) ∧
      ∀ b : Bool, n = (if b then 1 else 0) → o + 40 ≤ 2 ^ 24 → d.length = 40 →
        (s.mg.running = some b → answers (.fwwrite sl off v) s 6 2 []) ∧
        (s.mg.running ≠ some b → answers (.fwwrite sl off v)
          { s with mg := s.mg.onSlot b (fun x => { st := 0, img := Memory.writeList x.img o d }) } 6 0 [])) ∧
    (∀ sl : BitVec 8, let n := s.arg 7 0 1 sl.toNat
      (1 < n → answers (.fwseal sl) s 7 1 []) ∧
      ∀ b : Bool, n = (if b then 1 else 0) → (s.mg.running = some b → answers (.fwseal sl) s 7 2 []) ∧
        (s.mg.running ≠ some b → if (s.mg.slot b).verifies then
          answers (.fwseal sl) { s with mg := s.mg.onSlot b (fun x => { x with st := 1 }) } 7 0 []
          else answers (.fwseal sl) (s.event 8 2 0xFFFF n) 7 3 [])) ∧
    (∀ x : BitVec 8, let v := s.arg 8 0 1 x.toNat
      (1 < v → answers (.fwcommit x) s 8 1 []) ∧ (v ≤ 1 → s.mg.running = none → answers (.fwcommit x) s 8 2 []) ∧
      ∀ b, v ≤ 1 → s.mg.running = some b →
        let f := max s.mg.fuses (s.mg.slot b).svn
        ((s.mg.slot b).st = 3 → answers (.fwcommit x) s 8 0 []) ∧
        ((s.mg.slot b).st ≠ 3 → s.oracle = [] → ∃ s', exec (.fwcommit x) s = .next s' ∧ (s'.mg.slot b).st = 3 ∧
          s'.mg.fuses = (if v = 1 then f else s.mg.fuses) ∧ s'.mg.slot (!b) = s.mg.slot (!b)) ∧
        ((s.mg.slot b).st ≠ 3 → v = 1 → s.mg.fuses < f → ∀ n l, s.oracle = (n + 1) :: l → ∃ s', exec (.fwcommit x) s = .next s' ∧
          (s'.mg.slot b).st = 3 ∧ s'.mg.stage = 0 ∧ s'.mg.fuses = min f (s.mg.fuses + n))) ∧
    (∀ (nonce : BitVec 256) (al : BitVec 12), (s.mg.layer = none → answers (.attest nonce al) s 9 2 []) ∧
      ∀ x, s.mg.layer = some x → let r := s.report x (BitVec.ofNat 256 (s.arg 9 0 32 nonce.toNat)) (s.arg 9 32 2 al.toNat)
        answers (.attest nonce al) { s with mg := { s.mg with report := r } } 9 0 (natBytes 4 r.length)) ∧
    ∀ off : BitVec 32, let o := s.arg 10 0 4 off.toNat
      (s.mg.report.length ≤ o → answers (.atread off) s 10 1 []) ∧
      (o < s.mg.report.length → ∃ d, answers (.atread off) s 10 0 d ∧ d.length = 48 ∧
        ∀ i, i < 48 → o + i < s.mg.report.length → d[i]? = s.mg.report[o + i]?)

/-- THERMAL_SAMPLE, LIFETIME_RECORD_SAVE, ORDERLY_SHUTDOWN, POWER_LOSS, POWER_ON, RESET and I3C_DYNAMIC_ADDRESS (R447, R451, R454 to
R456): a sample at 105 °C lowers the thermal limit to 2 at the lowest, one below 100 °C the tenth time raises it, and the granted
point is the lowest of the request and the limits; 115 °C shuts the package down; a save goes to the older copy; without power only
what was saved stays; and bring-up counts a boot and ends at stage 2, with no island's clock running, where the image does not
verify, and else with the running slot's image in memory. The model's choice, not the spec's: the floor of the power limit (log 40),
what a shutdown wipes (log 42), a voltage reading (log 60), and the outcomes of the stages are the oracle's (log 67). -/
def Obligations.PackageEvents : Prop :=
  ∀ s : State,
    (∀ (isl : Nat) (t : BitVec 16) (pw : Nat), isl < 512 → s.mg.down = false → s.mg.failed = false → s.mg.stage ≠ 0 → t.toInt < 920 →
      let v := s.choose.1
      let x : IslSt := { s.island isl with mv := if v = 0 then (s.island isl).mv else BitVec.ofNat 16 v }
      let y := ((x.heat t).load (decide (isl < 384)) s.mg.pcap.toNat pw).grant
      ∃ s', exec (.thermalSample isl t pw) s = .next s' ∧ s'.island isl = y ∧ s'.mg.power = pw ∧
        y.point.toNat = min x.req.toNat (min y.thermal.toNat y.power.toNat) ∧
        (840 ≤ t.toInt → y.thermal.toNat = max 2 (x.thermal.toNat - 1)) ∧
        (t.toInt < 800 → x.cool = 9 → y.thermal.toNat = min 5 (x.thermal.toNat + 1)) ∧
        (800 ≤ t.toInt → t.toInt < 840 → y.thermal = x.thermal) ∧ s'.casts = s.casts ∧ s'.mem = s.mem) ∧
    (∀ (isl : Nat) (t : BitVec 16) (pw : Nat), isl < 512 → s.mg.down = false → s.mg.failed = false → s.mg.stage ≠ 0 → 920 ≤ t.toInt →
      ∃ s', exec (.thermalSample isl t pw) s = .next s' ∧ s'.mg.down = true ∧ s'.ethOpen = false ∧ s'.casts = [] ∧
        ∀ j, j < 512 → (s'.island j).point = 0) ∧
    (∃ r : LifeRec, r = { s.mg.life with gen := max s.mg.saveA.gen s.mg.saveB.gen + 1 } ∧
      (s.mg.saveA.gen ≤ s.mg.saveB.gen → exec .lifetimeRecordSave s = .next { s with mg := { s.mg with life := r, saveA := r } }) ∧
      (s.mg.saveB.gen < s.mg.saveA.gen → exec .lifetimeRecordSave s = .next { s with mg := { s.mg with life := r, saveB := r } }) ∧
      ∃ s', exec .orderlyShutdown s = .next s' ∧ s'.mg.stage = 0 ∧ s'.mg.life = r ∧ s'.mg.fuses = s.mg.fuses) ∧
    (∃ s', exec .powerLoss s = .next s' ∧ s'.mg.stage = 0 ∧ s'.casts = [] ∧ s'.mem = [] ∧ s'.mg.saveA = s.mg.saveA ∧
      s'.mg.saveB = s.mg.saveB ∧ s'.mg.usec = 0 ∧
      s'.mg.life = (if s.mg.saveA.gen ≤ s.mg.saveB.gen then s.mg.saveB else s.mg.saveA)) ∧
    (∀ i : Instr, (i = .powerOn ∧ s.mg.stage = 0) ∨ i = .reset → s.oracle = [] → (∀ l, s.mg.readMap = some l → l = []) →
      (s.mg.cfgOk = false → ∃ s', exec i s = .next s' ∧ s'.mg.stage = 1 ∧ s'.mg.failed = true ∧ s'.mg.running = none ∧ ∀ j, j < 512 → s'.runs j = false) ∧
      (s.mg.cfgOk = true → s.mg.slotA.st = 3 → s.mg.slotB.st = 0 → s.mg.fuses ≤ s.mg.slotA.svn →
        let n := s.mg.slotA.field 16 4
        let a := s.mg.slotA.field 24 8
        ∃ s', exec i s = .next s' ∧ s'.mg.life.bootn = satAdd32 s.mg.life.bootn 1 ∧ s'.casts = [] ∧ s'.allots = [] ∧
          s'.mg.usec = s.mg.usec ∧ s'.mg.secretOpen = false ∧
          if s.mg.slotA.verifies then
            s'.mg.stage = 6 ∧ s'.mg.failed = false ∧ s'.mg.running = some false ∧ s'.devnum = s.mg.cfgDev ∧
            s'.mg.entry = some (BitVec.ofNat 64 (s.mg.slotA.field 32 8)) ∧
            s'.mg.layer = some { img := s.mg.slotA.img, fuses := s.mg.fuses } ∧
            ∀ o, o < n → Memory.byte s'.mem (a + o) = Memory.byte s.mg.slotA.img (8192 + s.mg.slotA.field 12 4 + o)
          else s'.mg.stage = 2 ∧ s'.mg.failed = true ∧ s'.mg.running = none ∧ ∀ j, j < 512 → s'.runs j = false)) ∧
    ∀ x : BitVec 7, exec (.i3cDynamicAddress x) s = .next { s with mg := { s.mg with i3cAddr := x } }

/-! ### Where words complete -/

namespace Sys2Proof.Machine

/-- No loop level of the thread is active (R178). -/
def Thread.straight (t : Thread) : Prop :=
  (t.lc[0]).getLsbD 31 = false ∧ (t.lc[1]).getLsbD 31 = false ∧ (t.lc[2]).getLsbD 31 = false

/-- The word `i` of the thread `k` completes: in the next state the thread is READY at the instruction that follows, with one more
instruction retired, and `P` holds of that state and that thread. -/
def Ctx.runs (k : Ctx) (i : Instr) (s : State) (P : State → Thread → Prop) : Prop :=
  ∃ t u, exec i s = .next t ∧ t.thread? k.r = some u ∧ u.st = .ready ∧ u.pc = k.t.pc + 4 ∧ u.retired = k.t.retired + 1 ∧ P t u

/-- The thread `k` meets no other at a collective (R35, R36): its CMASK names its own lane alone, no other thread of its crew has arrived
at a collective, and its cast, which is not in ORDERED mode, has no access that is not performed. -/
def Ctx.lone (k : Ctx) (s : State) : Prop :=
  k.t.cmask = 1#32 <<< (k.r.t % 32) ∧ descDet k.c.desc ≠ 1 ∧ k.t.straight ∧
    (∀ i t, look k.c.threads i = some t → i / 32 = k.crewN → t.arrival = none) ∧
    ∀ h ∈ (s.plot k.c.plot).oplog, h.cid ≠ k.r.c

/-- The set of a thread that is alone (R36, R203). -/
def Ctx.loneSet (k : Ctx) : FixedSet := { parts := [k.r.t], mode := k.crew.mode, outl := k.crew.outl, outlh := k.crew.outlh }

end Sys2Proof.Machine

/-- RCP to COS, the extended-register words, and BECOME (R20, R194 to R196) complete for every operand: a special function leaves its
destination pending and every register as it was; a chain word changes its extended register alone; ERND, for its three codes, and
EGET change their general registers alone; a BECOME of 0 ends its thread, one of 1 writes 0, and one of more copies goes on as
ordinal 0 where the cast has the slots free, no deferred thread, and no access of the thread waits, memory's or a cell's. The
model's choice, not the spec's: the values of the special functions inside the stated bound are one uninterpreted function (log 20). -/
def Obligations.LaneWordsComplete : Prop :=
  ∀ (q : Bool) (d a : BitVec 6) (e f g : BitVec 2) (p : BitVec 5) (s : State) (k : Ctx), k.t.straight →
    (CanRun s k q [.x a, .x d] →
      let pends (i : Instr) (n : Sfu) : Prop := k.runs i s (fun _ u => u.x = k.t.x ∧ u.e = k.t.e ∧ u.k = k.t.k ∧
        ∃ fl, u.flights = k.t.flights ++ [{ dst := [(.x d, (sfu n k.crew.mode (k.t.getX a)).1)], flags := fl }])
      pends (.rcp q d a) .rcp ∧ pends (.rsq q d a) .rsq ∧ pends (.sqrt q d a) .sqrt ∧ pends (.exp2 q d a) .exp2 ∧
      pends (.log2 q d a) .log2 ∧ pends (.tanh q d a) .tanh ∧ pends (.sin q d a) .sin ∧ pends (.cos q d a) .cos) ∧
    (CanRun s k q [.x a, .x d] →
      let chains (i : Instr) : Prop := k.runs i s (fun _ u => u.x = k.t.x ∧ u.k = k.t.k ∧ ∀ r, r ≠ e → u.getE r = k.t.getE r)
      chains (.faddE q e f a) ∧ chains (.fmulE q e a d) ∧ chains (.ffmaE q e a d) ∧ chains (.eadd q e f g) ∧ chains (.efrom q e a) ∧
      ∀ z : BitVec 6, 1 ≤ z.toNat → z.toNat ≤ 3 →
        k.runs (.ernd q d f z) s (fun _ u => u.e = k.t.e ∧ ∀ r, r ≠ d → u.getX r = k.t.getX r)) ∧
    (CanRun s k q [.x (evenReg p), .x (oddReg p)] →
      k.runs (.eget q p f) s (fun _ u => u.e = k.t.e ∧ (p ≠ 0 → u.getX (evenReg p) = (k.t.getE f).setWidth 32) ∧
        u.getX (oddReg p) = (k.t.getE f >>> 32).setWidth 32) ∧
      k.runs (.eset q e p) s (fun _ u => u.x = k.t.x ∧ u.getE e = k.t.getX (oddReg p) ++ k.t.getX (evenReg p))) ∧
    (CanRun s k true [] → let n := (k.t.getX a).toNat
      (n = 0 → ∃ t, exec (.become q d a) s = .next t ∧ t.thread? k.r = none) ∧
      (n = 1 → k.runs (.become q d a) s (fun _ u => u.getX d = 0 ∧ u.key = k.t.key ∧ u.dep = k.t.dep)) ∧
      (2 ≤ n → n ≤ 65535 → k.t.dep.toNat < 8 → k.c.seeds = [] → k.holds s = false → k.t.cellReads = [] →
        n - 1 ≤ ((List.range (descSlots k.c.desc)).filter (fun i => (look k.c.threads i).isNone)).length →
        k.runs (.become q d a) s (fun _ u => u.getX d = 0 ∧ u.dep = k.t.dep + 1)))

/-- VOTE, SHFL, CRED, CSCAN, CSCANX, BPACK, BPACK.FX, BUNPK and MXC (R198 to R201, R206 to R209, R268) complete for a thread that is alone at
them: a vote gives its own bit, a shuffle its own value, a reduction and a scan its own value, an exclusive scan the empty value of its
operation, all pending; a block is written at once, where its mode saturates, so that no element needs the outlier list; and MXC
appends its command where the block's line can be read and written, the block is valid, and the script and the counter have room. -/
def Obligations.CollectiveWordsComplete : Prop :=
  ∀ (q : Bool) (d a b : BitVec 6) (kd ka : BitVec 3) (p : BitVec 5) (f : BitVec 2) (o : BitVec 4) (s : State) (k : Ctx),
    CanRun s k q ([.x d, .x a, .x b, .k kd, .k ka] ++ pairDst p) → k.lone s → f.toNat < 3 → o.toNat ≤ 10 →
    let gives (i : Instr) (r : Dst × Word) : Prop := k.runs i s (fun _ u => u.x = k.t.x ∧ u.k = k.t.k ∧
      ∃ n, u.flights = k.t.flights ++ [{ dst := [r], flags := 0, grp := some n }])
    let writes (i : Instr) : Prop := k.runs i s (fun _ u => u.k = k.t.k ∧ u.flights = k.t.flights ∧ ∀ r, r ≠ d → u.getX r = k.t.getX r)
    let v := k.t.getX a
    let n := match f.toNat with | 0 => 8 | 1 => 6 | _ => 4
    gives (.voteBal q d ka) (.x d, if k.t.getK ka then 1#32 <<< (k.r.t % 32) else 0) ∧
    gives (.voteAny q kd ka) (.k kd, if k.t.getK ka then 1 else 0) ∧ gives (.voteAll q kd ka) (.k kd, if k.t.getK ka then 1 else 0) ∧
    gives (.shflIdx q d a b) (.x d, v) ∧ gives (.shflUp q d a b) (.x d, v) ∧ gives (.shflDn q d a b) (.x d, v) ∧
    gives (.shflXor q d a b) (.x d, v) ∧ gives (.cred q d a o) (.x d, v) ∧ gives (.cscan q d a o) (.x d, v) ∧
    gives (.cscanx q d a o) (.x d, match o.toNat with
      | 1 => 0x7FFFFFFF | 2 => 0x80000000 | 3 => 0xFFFFFFFF | 5 => 0xFFFFFFFF | 9 => 0x7F800000 | 10 => 0xFF800000 | _ => 0) ∧
    (modeDbSat k.crew.mode n = true → writes (.bpack q d a p f) ∧ writes (.bpackFx q d a p f)) ∧ writes (.bunpk q d a f) ∧
    (let t := k.gathered q s (.mxc q p a b) [k.t.getX (pairLo p), k.t.getX (pairHi p), k.t.getX a, k.t.getX b] k.loneSet
      ∀ (low : Ctx) (sp : Space) (t1 t2 : State) (pa : Nat) (z : Bool), t.ctxAt k.r = some low →
        checkAcc t low.c .ctrl (k.t.getA p) 64 0 = .ok sp → access t k.c.plot k.c.al sp.va .read .plot = .ok (t1, pa, z) →
        let l := t1.readAt k.c.plot .plot (.home pa) z 64
        let blk := blockOf (BitVec.ofNat 512 l.2)
        blockValid l.1 low.c blk (k.t.getX a) (k.t.getX b) = true → blk.nout ≤ 4096 → blk.fuse = 0 →
        (s.plot k.c.plot).script.length < 32 → k.full .mx = false → (blk.kind = 1 → blk.asrc = 0 → k.t.flights = []) →
        appendWrites l.1 low.c sp.va (k.t.getX a) (k.t.getX b) = .ok t2 →
        k.runs (.mxc q p a b) s (fun u me => me.x = k.t.x ∧ ∃ m : MxCmd,
          (u.plot k.c.plot).script = (s.plot k.c.plot).script ++ [m] ∧ m.block = k.t.getA p ∧ m.opnd = k.t.getX a ∧ m.pitch = k.t.getX b))

/-- MXR, MXRN, MXW, CPY, CPYS, SLINV, BIND, BIND.WB, GRUN, GSTOP and GSTAT (R250 to R253, R274 to R276, R331 to R338) complete: the cell
words wherever their operand names a cell of the cast's tiles and no acquire is held; a copy where both slates can be read and obey R250 and the CP counter
has room; SLINV where its address is a slate's; and a graph word where the descriptor's address passes its check and resolves, nothing
of the thread waits before it, no page of the allotment is under migration, and the table of R332 accepts it. -/
def Obligations.EngineWordsComplete : Prop :=
  (∀ (q : Bool) (d a : BitVec 6) (t : BitVec 3) (s : State) (k : Ctx), CanRun s k q [.x a, .x d] → k.t.straight →
    (k.t.getX a).toNat < 2 ^ 14 → t.toNat < descAcnt k.c.desc → k.acquiring s = false →
    let reads (i : Instr) : Prop := k.runs i s (fun _ u => u.x = k.t.x ∧ ∃ f : Flight, u.flights = k.t.flights ++ [f] ∧
      f.dst.map Prod.fst = [.x d] ∧ f.flags = 0)
    reads (.mxr q d a t) ∧ reads (.mxrn q d a t) ∧ k.runs (.mxw q d a t) s (fun _ u => u.x = k.t.x ∧
      u.flights.map (fun f => (f.dst.map Prod.fst, f.flags)) = k.t.flights.map (fun f => (f.dst.map Prod.fst, f.flags)))) ∧
  (∀ (q : Bool) (d a : BitVec 5) (b : BitVec 6) (s s1 s2 : State) (k : Ctx) (sp dp : Space) (sr dr : BitVec 512),
    CanRun s k q (pairDst d ++ pairDst a ++ [.x b]) → k.t.straight → checkAcc s k.c .ctrl (k.t.getA a) 64 0 = .ok sp →
    k.runs (.slinv q a) s (fun u me => me.x = k.t.x ∧ ∀ e ∈ (u.plot k.c.plot).slates, e.1 ≠ k.t.getA a) ∧
    (checkAcc s k.c .ctrl (k.t.getA d) 64 0 = .ok dp → slateWait s k (k.t.getA a) = false → slateWait s k (k.t.getA d) = false →
      readSlate s (k.cued q) (k.t.getA a) sp.va = .ok (s1, sr) → readSlate s1 (k.cued q) (k.t.getA d) dp.va = .ok (s2, dr) →
      slateValid s2 k.c false (slateOf sr) = true → slateValid s2 k.c true (slateOf dr) = true → k.full .cp = false →
      ((slateOf dr).isReel = false → ∀ va, classify s2.devnum (slateOf dr).base ≠ .ro va) →
      let queued (i : Instr) (v : Option Word) : Prop := k.runs i s (fun u me => me.x = k.t.x ∧ ∃ c : Copy,
        (u.plot k.c.plot).copies = (s2.plot k.c.plot).copies ++ [c] ∧ c.src = sr ∧ c.dst = dr ∧ c.cval = v ∧ c.begun = false)
      queued (.cpy q d a) none ∧
      ((slateOf dr).cwoff % 4 = 0 → (slateOf dr).cwoff < 32768 * descScnt k.c.desc → queued (.cpys q d a b) (some (k.t.getX b))))) ∧
  ∀ (q : Bool) (d a : BitVec 5) (b : BitVec 6) (s s1 : State) (k : Ctx) (sp : Space) (l : Loc) (z : Bool) (A : Allot),
    CanRun s k q (pairDst a ++ [.x (evenReg d), .x (oddReg d), .x b]) → k.t.straight →
    checkAcc s k.c .ctrl (k.t.getA a) 64 0 = .ok sp → resolve s k.c k.r.c sp .read = .ok (s1, l, z) →
    let al := k.c.al
    let va := bitsN (k.t.getA a) 0 48
    let r := s1.release k.c.plot 3
    look r.allots al = some A → k.busy s = false → k.behind s (k.t.getA a) 64 = [] → k.acquiring s = false → s.migrating al = false →
    let full := 32 ≤ (A.graphs.filter (fun g => g.st != .unbound)).length
    let ok (i : Instr) : Prop := k.runs i s (fun _ u => u.x = k.t.x)
    (r.graphAt al va = none → ¬full → ok (.bind q a) ∧ ok (.bindWb q a)) ∧
    (s1.graphAt al va = none → ok (.gstop q a) ∧ ∃ t, exec (.gstat q d a) s = .next t) ∧
    ∀ (g : Nat) (x : Graph),
      (r.graphAt al va = some g → r.graph? al g = some x →
        (x.st = .bound ∨ x.st = .failed ∨ (x.st = .unbound ∧ ¬full) → ok (.bind q a) ∧ ok (.bindWb q a)) ∧
        (x.st = .running → ok (.bindWb q a)) ∧ (x.st = .bound → ok (.grun q a b))) ∧
      (s1.graphAt al va = some g → s1.graph? al g = some x →
        k.runs (.gstat q d a) s (fun _ u => (oddReg d ≠ 0 → u.getX (oddReg d) = x.perdone) ∧
          ∀ y, y ≠ evenReg d → y ≠ oddReg d → u.getX y = k.t.getX y) ∧
        (x.st = .unbound ∨ x.st = .bound ∨ x.st = .running ∨ x.st = .stopping → ok (.gstop q a)))

/-! ### Encodings, steps, invariants, reset -/

/-- DECODE AND ENCODE AGREE: every instruction that has words is read back from them, with every operand at every value, whatever
bytes follow; and a word that the decoder reads as an instruction is the word that the encoder gives it, so no two instructions share
a word and no bit is dropped. -/
def Obligations.DecodeEncode : Prop :=
  (∀ (i : Instr) (n w : Nat) (rest : List Byte), encode i = some (n, w) → decode (natBytes (n / 8) w ++ rest) = .ok (i, rest)) ∧
  (∀ (w : Nat) (i : Instr), decodeNat w = .ok i → encode i = some (8 * lengthOf w, w % 2 ^ (8 * lengthOf w))) ∧
  ∀ (bs rest : List Byte) (i : Instr), decode bs = .ok (i, rest) →
    ∃ n w, encode i = some (n, w) ∧ bs = natBytes (n / 8) w ++ rest ∧ (n = 16 ∨ n = 32)

/-- The words that the spec writes out in its examples decode to the instructions that it names; the narrow word of zeros is MOV x0, x0;
and a narrow word with bit 15 set, a reserved major and a sub-operation that no instruction has are rejected by name. -/
def Obligations.DecodeWords : Prop :=
  decodeNat 0xFFD1C709 = .ok (.addi false 7 7 0xFFD) ∧ decodeNat 0xFFD1C70B = .ok (.addi true 7 7 0xFFD) ∧
  decodeNat 0x00018551 = .ok (.become false 5 6) ∧ decodeNat 0x00000001 = .ok (.ill false 0) ∧
  decodeNat 0x30C2CA05 = .ok (.mulhu false 10 11 12) ∧ decodeNat 0x04710319 = .ok (.srai false 3 4 7) ∧
  decodeNat 0x5681C621 = .ok (.bfxS false 6 7 8 11) ∧ decodeNat 0x0CC2CA31 = .ok (.sel false 10 11 12 3) ∧
  decodeNat 0x0405004D = .ok (.callr false 20) ∧ decodeNat 0x0800004D = .ok (.ret false) ∧
  decodeNat 0x0051036D = .ok (.fadd false 3 4 5) ∧ decodeNat 0x0422488D = .ok (.fcvt false 8 9 2 1 false) ∧
  decodeNat 0x00014491 = .ok (.rcp false 4 5) ∧ decodeNat 0x00718599 = .ok (.dot4 false 5 6 7) ∧
  decodeNat 0x2001C6A9 = .ok (.cred false 6 7 8) ∧ decodeNat 0x01210AAD = .ok (.ld false 10 4 false 2 2) ∧
  decodeNat 0x00000000 = .ok (.mov 0 0) ∧ decodeNat 0x00008000 = .error .narrowBit15 ∧
  decodeNat 0x000000F1 = .error (.reservedMajor 0x3C) ∧ decodeNat 0x6C000005 = .error (.subOperation 1)

/-- A STEP RUNS THE DECODED INSTRUCTION (R36, R40, R48, R120, R131): the turn of a READY thread of a cast that issues, outside ORDERED
mode, fetches at its PC; the instruction that decodes there runs, unless the thread has reached its MEET address and is held, and
then what the issue has brought about for MEET and for its crew's collectives follows (`afterIssue`); a word that does not decode
raises ILL; a thread that reads a word of its cast's storage with an uncorrectable error raises MEMERR (R421; whether it reads one
is a choice of the model, log 37); and the turn of an event runs its meaning. The model's choice, not the spec's: the agenda, which
says whose turn it is (log 2), and whether an instruction reads a bad word of its cast's storage (log 86). -/
def Obligations.StepRuns : Prop :=
  ∀ (s : State) (r : List Turn),
    (∀ i : Instr, s.agenda = .event i :: r → step s = exec i { s with agenda := r }) ∧
    ∀ (c t : Nat) (c0 : Cast) (k : Ctx), s.agenda = .issue c t :: r →
      let a : State := { s with agenda := r }
      let s0 : State := { a.meetNote ⟨c, t⟩ with cur := some ⟨c, t⟩ }
      look s.casts c = some c0 → a.issues c0 = true → descDet c0.desc ≠ 1 → s0.ctx = some k →
      let ends (o : Host.Outcome State Fault Refusal) : Prop := step s = Out.andThen o (fun u => u.afterIssue ⟨c, t⟩)
      (k.c.bad = false →
        (∀ s1 w, fetchInstr s0 k.c k.t.pc = .ok (s1, w) → s1.ctx = some k ∧ s1.casts = s0.casts ∧
          (∀ i, decodeNat w = .ok i → ¬(k.t.atMeet = true ∧ k.t.pass = false) → ends (exec i s1)) ∧
          (∀ i, decodeNat w = .ok i → k.t.atMeet = true → k.t.pass = false → ends (.next (holdMeet s1 k))) ∧
          (∀ e, decodeNat w = .error e → ends (.next (raiseWith s1 k .ill 0 0 0 .none)))) ∧
        ∀ e x, fetchInstr s0 k.c k.t.pc = .error (e, x) → ends (fetchStop s0 k e x)) ∧
      (k.c.bad = true → ∀ l, s.oracle = 1 :: l → ends (.next (raiseWith { s0 with oracle := l } k .memerr 1 0 0 .none)))

/-- AN INVARIANT THAT EVERY STEP KEEPS: home memory, the commons, the memory of other devices, and every cast's scratch and operand
regions, saved casts included, keep their canonical form, so that equal memories are equal data. The model's choice, not the spec's:
an unlisted byte of memory reads 0 (log 5). -/
def Obligations.StepKeepsInv : Prop := ∀ s s' : State, s.Inv → step s = .next s' → s'.Inv

/-- Bring-up hands over (R10, R72, R395, R404, R411, R424, R430, R443, R455, R456) a package whose memories, of the home, of the
commons, and as other devices hold them, are canonical and read 0, with no allotment, scene, cast or fault record, and every frame
outside the ownership tables free and all-zero; every register of the memory-system window reads 0 but SPARES, which reads 8 spare
cores for each die, and in a core's window BANKROLE reads 0, ALLOT of each plot 0xFFF, and the physical core its default; PCAP is
2,200, the thermal and power limits and the granted point of every island are 5, and no Ethernet port is open. The model's choice,
not the spec's: the counters that no rule gives a reset value start at 0 (log 1), memory reads 0 (log 5), and State.reset is the
hand-over of bring-up (log 52). -/
def Obligations.ResetState : Prop :=
  State.reset.Inv ∧ (∀ a, Memory.byte State.reset.mem a = 0 ∧ Memory.byte State.reset.cmn a = 0 ∧ Memory.byte State.reset.peers a = 0) ∧
  State.reset.casts = [] ∧ State.reset.allots = [] ∧
  State.reset.scenes = [] ∧ State.reset.faultQ = [] ∧ State.reset.faultSeq = 0 ∧ State.reset.ethOpen = false ∧
  (∀ f, tableFrame f = false → State.reset.frame f = { owner := 0xFFF, st := 0, key := 0, zero := true }) ∧
  (∀ off, State.reset.windowRead off = if off = 0x210 then 0x8888 else 0) ∧
  (∀ c off, c < 384 → State.reset.coreWindow c off =
    if off = 0x008 ∨ off = 0x010 ∨ off = 0x018 ∨ off = 0x020 then 0xFFF * 2 ^ 28 else if off = 0x028 then c + c / 96 * 8 else 0) ∧
  State.reset.win.sfrhead = 0 ∧ State.reset.win.sfrtail = 0 ∧ State.reset.win.fbusy = false ∧ State.reset.mg.pcap = 2200 ∧
  (∀ i, let x := State.reset.island i
    x.point = 5 ∧ x.thermal = 5 ∧ x.power = 5) ∧
  State.reset.mg.stage = 6 ∧ State.reset.mg.failed = false ∧
  (∀ p, (State.reset.plot p).rseq = 0 ∧ (State.reset.plot p).proms = 0 ∧ (State.reset.plot p).mxseq = 0 ∧ State.reset.coreClk p = 0) ∧ State.reset.dieClk = 0 ∧
  State.reset.windowUp = true
end

