-- ==== Sys2Proof/Laws/Decode.lean ====
section
/-!
SUPPORT. The fields of a word, and the bytes of a number: what the encoder lays down is what the decoder picks out.
-/

namespace Sys2Proof

/-- A field that holds the number of a bit vector is that bit vector. -/
theorem fld_eq {n : Nat} (v : BitVec n) (w lo : Nat) (h : num w lo n = v.toNat) : fld w lo n = v := by
  simp [fld, h]

theorem bit_eq (b : Bool) (w lo : Nat) (h : num w lo 1 = b.toNat) : bit w lo = b := by
  cases b <;> simp [bit, h]

/-- A field of a word below the field's top is what the word holds from the field's low bit on. -/
theorem num_lt (w lo n : Nat) : num w lo n < 2 ^ n := Nat.mod_lt _ (Nat.two_pow_pos n)

@[simp] theorem natBytes_length (n v : Nat) : (natBytes n v).length = n := by
  induction n generalizing v with
  | zero => rfl
  | succ n ih => simp [natBytes, ih]

@[simp] theorem bytesNat_natBytes (n v : Nat) : bytesNat (natBytes n v) = v % 256 ^ n := by
  induction n generalizing v with
  | zero => simp [natBytes, bytesNat, Nat.mod_one]
  | succ n ih =>
    simp only [natBytes, bytesNat, ih, BitVec.toNat_ofNat]
    rw [show 256 ^ (n + 1) = 256 * 256 ^ n from Nat.pow_succ', Nat.mod_mul]

theorem take_natBytes (n k v : Nat) (h : k ≤ n) : (natBytes n v).take k = natBytes k v := by
  induction k generalizing n v with
  | zero => simp [natBytes]
  | succ k ih =>
    obtain ⟨m, rfl⟩ : ∃ m, n = m + 1 := ⟨n - 1, by omega⟩
    simp [natBytes, ih m (v / 256) (by omega)]

theorem bytesNat_lt (bs : List Byte) : bytesNat bs < 256 ^ bs.length := by
  induction bs with
  | nil => simp [bytesNat]
  | cons b bs ih =>
    have := b.isLt
    simp only [bytesNat, List.length_cons, Nat.pow_succ']
    omega

/-- The bytes of the number of a list of bytes are the list. -/
@[simp] theorem natBytes_bytesNat (bs : List Byte) : natBytes bs.length (bytesNat bs) = bs := by
  induction bs with
  | nil => rfl
  | cons b bs ih =>
    have hb := b.isLt
    have h1 : (b.toNat + 256 * bytesNat bs) / 256 = bytesNat bs := by omega
    have h2 : BitVec.ofNat 8 (b.toNat + 256 * bytesNat bs) = b := by
      apply BitVec.eq_of_toNat_eq; simp only [BitVec.toNat_ofNat]; omega
    simp only [List.length_cons, natBytes, bytesNat, h1, h2, ih]

/-- The length that bit 0 gives is that of the whole word and of its first halfword alike (R120). -/
theorem lengthOf_mod (w : Nat) : lengthOf (w % 65536) = lengthOf w := by
  simp only [lengthOf, num]; congr 2; omega

end Sys2Proof
end

