-- ==== Sys2Proof/Laws/Dispatch.lean ====
section
/-!
SUPPORT. The meaning that each constructor of `Instr` calls, one lemma per arm of `exec`, so that no proof unfolds the dispatch.
-/

namespace Sys2Proof.Machine

open Sys2Proof

@[simp] theorem exec_mov (d a : BitVec 5) (s : State) : exec (.mov d a) s = execMov d a s := rfl
@[simp] theorem exec_addN (d a : BitVec 5) (s : State) : exec (.addN d a) s = execAddN d a s := rfl
@[simp] theorem exec_subN (d a : BitVec 5) (s : State) : exec (.subN d a) s = execSubN d a s := rfl
@[simp] theorem exec_andN (d a : BitVec 5) (s : State) : exec (.andN d a) s = execAndN d a s := rfl
@[simp] theorem exec_orN (d a : BitVec 5) (s : State) : exec (.orN d a) s = execOrN d a s := rfl
@[simp] theorem exec_xorN (d a : BitVec 5) (s : State) : exec (.xorN d a) s = execXorN d a s := rfl
@[simp] theorem exec_shlN (d a : BitVec 5) (s : State) : exec (.shlN d a) s = execShlN d a s := rfl
@[simp] theorem exec_shrN (d a : BitVec 5) (s : State) : exec (.shrN d a) s = execShrN d a s := rfl
@[simp] theorem exec_addi5 (d im : BitVec 5) (s : State) : exec (.addi5 d im) s = execAddi5 d im s := rfl
@[simp] theorem exec_faddN (d a : BitVec 5) (s : State) : exec (.faddN d a) s = execFaddN d a s := rfl
@[simp] theorem exec_fsubN (d a : BitVec 5) (s : State) : exec (.fsubN d a) s = execFsubN d a s := rfl
@[simp] theorem exec_fmulN (d a : BitVec 5) (s : State) : exec (.fmulN d a) s = execFmulN d a s := rfl
@[simp] theorem exec_fminN (d a : BitVec 5) (s : State) : exec (.fminN d a) s = execFminN d a s := rfl
@[simp] theorem exec_fmaxN (d a : BitVec 5) (s : State) : exec (.fmaxN d a) s = execFmaxN d a s := rfl
@[simp] theorem exec_movi5 (d im : BitVec 5) (s : State) : exec (.movi5 d im) s = execMovi5 d im s := rfl
@[simp] theorem exec_mulN (d a : BitVec 5) (s : State) : exec (.mulN d a) s = execMulN d a s := rfl
@[simp] theorem exec_ill (q : Bool) (u : BitVec 24) (s : State) : exec (.ill q u) s = execIll q u s := rfl
@[simp] theorem exec_add (q : Bool) (d a b : BitVec 6) (s : State) : exec (.add q d a b) s = execAdd q d a b s := rfl
@[simp] theorem exec_sub (q : Bool) (d a b : BitVec 6) (s : State) : exec (.sub q d a b) s = execSub q d a b s := rfl
@[simp] theorem exec_and (q : Bool) (d a b : BitVec 6) (s : State) : exec (.and q d a b) s = execAnd q d a b s := rfl
@[simp] theorem exec_or (q : Bool) (d a b : BitVec 6) (s : State) : exec (.or q d a b) s = execOr q d a b s := rfl
@[simp] theorem exec_xor (q : Bool) (d a b : BitVec 6) (s : State) : exec (.xor q d a b) s = execXor q d a b s := rfl
@[simp] theorem exec_andn (q : Bool) (d a b : BitVec 6) (s : State) : exec (.andn q d a b) s = execAndn q d a b s := rfl
@[simp] theorem exec_shl (q : Bool) (d a b : BitVec 6) (s : State) : exec (.shl q d a b) s = execShl q d a b s := rfl
@[simp] theorem exec_shr (q : Bool) (d a b : BitVec 6) (s : State) : exec (.shr q d a b) s = execShr q d a b s := rfl
@[simp] theorem exec_sra (q : Bool) (d a b : BitVec 6) (s : State) : exec (.sra q d a b) s = execSra q d a b s := rfl
@[simp] theorem exec_ror (q : Bool) (d a b : BitVec 6) (s : State) : exec (.ror q d a b) s = execRor q d a b s := rfl
@[simp] theorem exec_mul (q : Bool) (d a b : BitVec 6) (s : State) : exec (.mul q d a b) s = execMul q d a b s := rfl
@[simp] theorem exec_mulh (q : Bool) (d a b : BitVec 6) (s : State) : exec (.mulh q d a b) s = execMulh q d a b s := rfl
@[simp] theorem exec_mulhu (q : Bool) (d a b : BitVec 6) (s : State) : exec (.mulhu q d a b) s = execMulhu q d a b s := rfl
@[simp] theorem exec_mulhsu (q : Bool) (d a b : BitVec 6) (s : State) : exec (.mulhsu q d a b) s = execMulhsu q d a b s := rfl
@[simp] theorem exec_div (q : Bool) (d a b : BitVec 6) (s : State) : exec (.div q d a b) s = execDiv q d a b s := rfl
@[simp] theorem exec_divu (q : Bool) (d a b : BitVec 6) (s : State) : exec (.divu q d a b) s = execDivu q d a b s := rfl
@[simp] theorem exec_rem (q : Bool) (d a b : BitVec 6) (s : State) : exec (.rem q d a b) s = execRem q d a b s := rfl
@[simp] theorem exec_remu (q : Bool) (d a b : BitVec 6) (s : State) : exec (.remu q d a b) s = execRemu q d a b s := rfl
@[simp] theorem exec_min (q : Bool) (d a b : BitVec 6) (s : State) : exec (.min q d a b) s = execMin q d a b s := rfl
@[simp] theorem exec_max (q : Bool) (d a b : BitVec 6) (s : State) : exec (.max q d a b) s = execMax q d a b s := rfl
@[simp] theorem exec_minu (q : Bool) (d a b : BitVec 6) (s : State) : exec (.minu q d a b) s = execMinu q d a b s := rfl
@[simp] theorem exec_maxu (q : Bool) (d a b : BitVec 6) (s : State) : exec (.maxu q d a b) s = execMaxu q d a b s := rfl
@[simp] theorem exec_clz (q : Bool) (d a : BitVec 6) (s : State) : exec (.clz q d a) s = execClz q d a s := rfl
@[simp] theorem exec_popc (q : Bool) (d a : BitVec 6) (s : State) : exec (.popc q d a) s = execPopc q d a s := rfl
@[simp] theorem exec_brev (q : Bool) (d a : BitVec 6) (s : State) : exec (.brev q d a) s = execBrev q d a s := rfl
@[simp] theorem exec_slt (q : Bool) (d a b : BitVec 6) (s : State) : exec (.slt q d a b) s = execSlt q d a b s := rfl
@[simp] theorem exec_sltu (q : Bool) (d a b : BitVec 6) (s : State) : exec (.sltu q d a b) s = execSltu q d a b s := rfl
@[simp] theorem exec_addi (q : Bool) (d a : BitVec 6) (im : BitVec 12) (s : State) :
    exec (.addi q d a im) s = execAddi q d a im s := rfl
@[simp] theorem exec_andi (q : Bool) (d a : BitVec 6) (im : BitVec 12) (s : State) :
    exec (.andi q d a im) s = execAndi q d a im s := rfl
@[simp] theorem exec_ori (q : Bool) (d a : BitVec 6) (im : BitVec 12) (s : State) :
    exec (.ori q d a im) s = execOri q d a im s := rfl
@[simp] theorem exec_xori (q : Bool) (d a : BitVec 6) (im : BitVec 12) (s : State) :
    exec (.xori q d a im) s = execXori q d a im s := rfl
@[simp] theorem exec_shli (q : Bool) (d a : BitVec 6) (n : BitVec 5) (s : State) :
    exec (.shli q d a n) s = execShli q d a n s := rfl
@[simp] theorem exec_shri (q : Bool) (d a : BitVec 6) (n : BitVec 5) (s : State) :
    exec (.shri q d a n) s = execShri q d a n s := rfl
@[simp] theorem exec_srai (q : Bool) (d a : BitVec 6) (n : BitVec 5) (s : State) :
    exec (.srai q d a n) s = execSrai q d a n s := rfl
@[simp] theorem exec_rori (q : Bool) (d a : BitVec 6) (n : BitVec 5) (s : State) :
    exec (.rori q d a n) s = execRori q d a n s := rfl
@[simp] theorem exec_lui (q : Bool) (d : BitVec 6) (v : BitVec 16) (s : State) : exec (.lui q d v) s = execLui q d v s := rfl
@[simp] theorem exec_luiZ (q : Bool) (d : BitVec 6) (v : BitVec 16) (s : State) : exec (.luiZ q d v) s = execLuiZ q d v s := rfl
@[simp] theorem exec_luiLo (q : Bool) (d : BitVec 6) (v : BitVec 16) (s : State) :
    exec (.luiLo q d v) s = execLuiLo q d v s := rfl
@[simp] theorem exec_luiS (q : Bool) (d : BitVec 6) (v : BitVec 16) (s : State) : exec (.luiS q d v) s = execLuiS q d v s := rfl
@[simp] theorem exec_bfx (q : Bool) (d a : BitVec 6) (l w : BitVec 5) (s : State) :
    exec (.bfx q d a l w) s = execBfx q d a l w s := rfl
@[simp] theorem exec_bfxS (q : Bool) (d a : BitVec 6) (l w : BitVec 5) (s : State) :
    exec (.bfxS q d a l w) s = execBfxS q d a l w s := rfl
@[simp] theorem exec_bfi (q : Bool) (d a : BitVec 6) (l w : BitVec 5) (s : State) :
    exec (.bfi q d a l w) s = execBfi q d a l w s := rfl
@[simp] theorem exec_cmp (q : Bool) (k : BitVec 3) (a b : BitVec 6) (c : BitVec 3) (s : State) :
    exec (.cmp q k a b c) s = execCmp q k a b c s := rfl
@[simp] theorem exec_cmpi (q : Bool) (k c : BitVec 3) (a : BitVec 6) (im : BitVec 12) (s : State) :
    exec (.cmpi q k c a im) s = execCmpi q k c a im s := rfl
@[simp] theorem exec_sel (q : Bool) (d a b : BitVec 6) (p : BitVec 3) (s : State) :
    exec (.sel q d a b p) s = execSel q d a b p s := rfl
@[simp] theorem exec_kand (q : Bool) (d a b : BitVec 3) (s : State) : exec (.kand q d a b) s = execKand q d a b s := rfl
@[simp] theorem exec_kor (q : Bool) (d a b : BitVec 3) (s : State) : exec (.kor q d a b) s = execKor q d a b s := rfl
@[simp] theorem exec_kxor (q : Bool) (d a b : BitVec 3) (s : State) : exec (.kxor q d a b) s = execKxor q d a b s := rfl
@[simp] theorem exec_kandn (q : Bool) (d a b : BitVec 3) (s : State) : exec (.kandn q d a b) s = execKandn q d a b s := rfl
@[simp] theorem exec_korn (q : Bool) (d a b : BitVec 3) (s : State) : exec (.korn q d a b) s = execKorn q d a b s := rfl
@[simp] theorem exec_knot (q : Bool) (d a : BitVec 3) (s : State) : exec (.knot q d a) s = execKnot q d a s := rfl
@[simp] theorem exec_ktox (q : Bool) (d : BitVec 6) (a : BitVec 3) (s : State) : exec (.ktox q d a) s = execKtox q d a s := rfl
@[simp] theorem exec_xtok (q : Bool) (d : BitVec 3) (a : BitVec 6) (s : State) : exec (.xtok q d a) s = execXtok q d a s := rfl
@[simp] theorem exec_kpack (q : Bool) (d : BitVec 6) (s : State) : exec (.kpack q d) s = execKpack q d s := rfl
@[simp] theorem exec_kunpk (q : Bool) (a : BitVec 6) (s : State) : exec (.kunpk q a) s = execKunpk q a s := rfl
@[simp] theorem exec_adda (q : Bool) (d a : BitVec 5) (b : BitVec 6) (sx : BitVec 2) (s : State) :
    exec (.adda q d a b sx) s = execAdda q d a b sx s := rfl
@[simp] theorem exec_addai (q : Bool) (d a : BitVec 5) (im : BitVec 12) (s : State) :
    exec (.addai q d a im) s = execAddai q d a im s := rfl
@[simp] theorem exec_br (q : Bool) (k : BitVec 3) (n : Bool) (o : BitVec 20) (s : State) :
    exec (.br q k n o) s = execBr q k n o s := rfl
@[simp] theorem exec_jmp (q : Bool) (o : BitVec 24) (s : State) : exec (.jmp q o) s = execJmp q o s := rfl
@[simp] theorem exec_call (q : Bool) (o : BitVec 24) (s : State) : exec (.call q o) s = execCall q o s := rfl
@[simp] theorem exec_jr (q : Bool) (a : BitVec 5) (s : State) : exec (.jr q a) s = execJr q a s := rfl
@[simp] theorem exec_callr (q : Bool) (a : BitVec 5) (s : State) : exec (.callr q a) s = execCallr q a s := rfl
@[simp] theorem exec_ret (q : Bool) (s : State) : exec (.ret q) s = execRet q s := rfl
@[simp] theorem exec_become (q : Bool) (d a : BitVec 6) (s : State) : exec (.become q d a) s = execBecome q d a s := rfl
@[simp] theorem exec_meet (q : Bool) (o : BitVec 24) (s : State) : exec (.meet q o) s = execMeet q o s := rfl
@[simp] theorem exec_yield (q : Bool) (s : State) : exec (.yield q) s = execYield q s := rfl
@[simp] theorem exec_loop (q : Bool) (n : BitVec 2) (a : BitVec 6) (l : BitVec 12) (s : State) :
    exec (.loop q n a l) s = execLoop q n a l s := rfl
@[simp] theorem exec_nop (q : Bool) (s : State) : exec (.nop q) s = execNop q s := rfl
@[simp] theorem exec_trap (q : Bool) (c : BitVec 18) (s : State) : exec (.trap q c) s = execTrap q c s := rfl
@[simp] theorem exec_brk (q : Bool) (c : BitVec 18) (s : State) : exec (.brk q c) s = execBrk q c s := rfl
@[simp] theorem exec_mfs (q : Bool) (d : BitVec 6) (sx : BitVec 12) (s : State) : exec (.mfs q d sx) s = execMfs q d sx s := rfl
@[simp] theorem exec_mts (q : Bool) (a : BitVec 6) (sx : BitVec 12) (s : State) : exec (.mts q a sx) s = execMts q a sx s := rfl
@[simp] theorem exec_fadd (q : Bool) (d a b : BitVec 6) (s : State) : exec (.fadd q d a b) s = execFadd q d a b s := rfl
@[simp] theorem exec_fsub (q : Bool) (d a b : BitVec 6) (s : State) : exec (.fsub q d a b) s = execFsub q d a b s := rfl
@[simp] theorem exec_fmul (q : Bool) (d a b : BitVec 6) (s : State) : exec (.fmul q d a b) s = execFmul q d a b s := rfl
@[simp] theorem exec_fmin (q : Bool) (d a b : BitVec 6) (s : State) : exec (.fmin q d a b) s = execFmin q d a b s := rfl
@[simp] theorem exec_fmax (q : Bool) (d a b : BitVec 6) (s : State) : exec (.fmax q d a b) s = execFmax q d a b s := rfl
@[simp] theorem exec_fabs (q : Bool) (d a : BitVec 6) (s : State) : exec (.fabs q d a) s = execFabs q d a s := rfl
@[simp] theorem exec_fneg (q : Bool) (d a : BitVec 6) (s : State) : exec (.fneg q d a) s = execFneg q d a s := rfl
@[simp] theorem exec_fsgnj (q : Bool) (d a b : BitVec 6) (s : State) : exec (.fsgnj q d a b) s = execFsgnj q d a b s := rfl
@[simp] theorem exec_ffma (q : Bool) (d a b c : BitVec 6) (s : State) : exec (.ffma q d a b c) s = execFfma q d a b c s := rfl
@[simp] theorem exec_ffms (q : Bool) (d a b c : BitVec 6) (s : State) : exec (.ffms q d a b c) s = execFfms q d a b c s := rfl
@[simp] theorem exec_fnma (q : Bool) (d a b c : BitVec 6) (s : State) : exec (.fnma q d a b c) s = execFnma q d a b c s := rfl
@[simp] theorem exec_hadd2 (q : Bool) (d a b : BitVec 6) (s : State) : exec (.hadd2 q d a b) s = execHadd2 q d a b s := rfl
@[simp] theorem exec_hsub2 (q : Bool) (d a b : BitVec 6) (s : State) : exec (.hsub2 q d a b) s = execHsub2 q d a b s := rfl
@[simp] theorem exec_hmul2 (q : Bool) (d a b : BitVec 6) (s : State) : exec (.hmul2 q d a b) s = execHmul2 q d a b s := rfl
@[simp] theorem exec_hmin2 (q : Bool) (d a b : BitVec 6) (s : State) : exec (.hmin2 q d a b) s = execHmin2 q d a b s := rfl
@[simp] theorem exec_hmax2 (q : Bool) (d a b : BitVec 6) (s : State) : exec (.hmax2 q d a b) s = execHmax2 q d a b s := rfl
@[simp] theorem exec_badd2 (q : Bool) (d a b : BitVec 6) (s : State) : exec (.badd2 q d a b) s = execBadd2 q d a b s := rfl
@[simp] theorem exec_bsub2 (q : Bool) (d a b : BitVec 6) (s : State) : exec (.bsub2 q d a b) s = execBsub2 q d a b s := rfl
@[simp] theorem exec_bmul2 (q : Bool) (d a b : BitVec 6) (s : State) : exec (.bmul2 q d a b) s = execBmul2 q d a b s := rfl
@[simp] theorem exec_bmin2 (q : Bool) (d a b : BitVec 6) (s : State) : exec (.bmin2 q d a b) s = execBmin2 q d a b s := rfl
@[simp] theorem exec_bmax2 (q : Bool) (d a b : BitVec 6) (s : State) : exec (.bmax2 q d a b) s = execBmax2 q d a b s := rfl
@[simp] theorem exec_hfma2 (q : Bool) (d a b c : BitVec 6) (s : State) : exec (.hfma2 q d a b c) s = execHfma2 q d a b c s := rfl
@[simp] theorem exec_bfma2 (q : Bool) (d a b c : BitVec 6) (s : State) : exec (.bfma2 q d a b c) s = execBfma2 q d a b c s := rfl
@[simp] theorem exec_fcmp (q : Bool) (k : BitVec 3) (a b : BitVec 6) (c : BitVec 3) (s : State) :
    exec (.fcmp q k a b c) s = execFcmp q k a b c s := rfl
@[simp] theorem exec_fcvt (q : Bool) (d a : BitVec 6) (t sx : BitVec 4) (h : Bool) (s : State) :
    exec (.fcvt q d a t sx h) s = execFcvt q d a t sx h s := rfl
@[simp] theorem exec_rcp (q : Bool) (d a : BitVec 6) (s : State) : exec (.rcp q d a) s = execRcp q d a s := rfl
@[simp] theorem exec_rsq (q : Bool) (d a : BitVec 6) (s : State) : exec (.rsq q d a) s = execRsq q d a s := rfl
@[simp] theorem exec_sqrt (q : Bool) (d a : BitVec 6) (s : State) : exec (.sqrt q d a) s = execSqrt q d a s := rfl
@[simp] theorem exec_exp2 (q : Bool) (d a : BitVec 6) (s : State) : exec (.exp2 q d a) s = execExp2 q d a s := rfl
@[simp] theorem exec_log2 (q : Bool) (d a : BitVec 6) (s : State) : exec (.log2 q d a) s = execLog2 q d a s := rfl
@[simp] theorem exec_tanh (q : Bool) (d a : BitVec 6) (s : State) : exec (.tanh q d a) s = execTanh q d a s := rfl
@[simp] theorem exec_sin (q : Bool) (d a : BitVec 6) (s : State) : exec (.sin q d a) s = execSin q d a s := rfl
@[simp] theorem exec_cos (q : Bool) (d a : BitVec 6) (s : State) : exec (.cos q d a) s = execCos q d a s := rfl
@[simp] theorem exec_faddE (q : Bool) (d a : BitVec 2) (b : BitVec 6) (s : State) :
    exec (.faddE q d a b) s = execFaddE q d a b s := rfl
@[simp] theorem exec_fmulE (q : Bool) (d : BitVec 2) (a b : BitVec 6) (s : State) :
    exec (.fmulE q d a b) s = execFmulE q d a b s := rfl
@[simp] theorem exec_ffmaE (q : Bool) (d : BitVec 2) (a b : BitVec 6) (s : State) :
    exec (.ffmaE q d a b) s = execFfmaE q d a b s := rfl
@[simp] theorem exec_eadd (q : Bool) (d a b : BitVec 2) (s : State) : exec (.eadd q d a b) s = execEadd q d a b s := rfl
@[simp] theorem exec_efrom (q : Bool) (d : BitVec 2) (a : BitVec 6) (s : State) : exec (.efrom q d a) s = execEfrom q d a s := rfl
@[simp] theorem exec_ernd (q : Bool) (d : BitVec 6) (a : BitVec 2) (t : BitVec 6) (s : State) :
    exec (.ernd q d a t) s = execErnd q d a t s := rfl
@[simp] theorem exec_eget (q : Bool) (d : BitVec 5) (a : BitVec 2) (s : State) : exec (.eget q d a) s = execEget q d a s := rfl
@[simp] theorem exec_eset (q : Bool) (d : BitVec 2) (a : BitVec 5) (s : State) : exec (.eset q d a) s = execEset q d a s := rfl
@[simp] theorem exec_dot4 (q : Bool) (d a b : BitVec 6) (s : State) : exec (.dot4 q d a b) s = execDot4 q d a b s := rfl
@[simp] theorem exec_dot4u (q : Bool) (d a b : BitVec 6) (s : State) : exec (.dot4u q d a b) s = execDot4u q d a b s := rfl
@[simp] theorem exec_dot4su (q : Bool) (d a b : BitVec 6) (s : State) : exec (.dot4su q d a b) s = execDot4su q d a b s := rfl
@[simp] theorem exec_dot2h (q : Bool) (d a b : BitVec 6) (s : State) : exec (.dot2h q d a b) s = execDot2h q d a b s := rfl
@[simp] theorem exec_bpack (q : Bool) (d a : BitVec 6) (b : BitVec 5) (f : BitVec 2) (s : State) :
    exec (.bpack q d a b f) s = execBpack q d a b f s := rfl
@[simp] theorem exec_bpackFx (q : Bool) (d a : BitVec 6) (b : BitVec 5) (f : BitVec 2) (s : State) :
    exec (.bpackFx q d a b f) s = execBpackFx q d a b f s := rfl
@[simp] theorem exec_bunpk (q : Bool) (d a : BitVec 6) (f : BitVec 2) (s : State) :
    exec (.bunpk q d a f) s = execBunpk q d a f s := rfl
@[simp] theorem exec_rndm (q : Bool) (d : BitVec 6) (a : BitVec 5) (b : BitVec 6) (w : BitVec 2) (s : State) :
    exec (.rndm q d a b w) s = execRndm q d a b w s := rfl
@[simp] theorem exec_rndm4 (q : Bool) (d : BitVec 4) (a : BitVec 5) (b : BitVec 6) (s : State) :
    exec (.rndm4 q d a b) s = execRndm4 q d a b s := rfl
@[simp] theorem exec_voteBal (q : Bool) (d : BitVec 6) (a : BitVec 3) (s : State) :
    exec (.voteBal q d a) s = execVoteBal q d a s := rfl
@[simp] theorem exec_voteAny (q : Bool) (d a : BitVec 3) (s : State) : exec (.voteAny q d a) s = execVoteAny q d a s := rfl
@[simp] theorem exec_voteAll (q : Bool) (d a : BitVec 3) (s : State) : exec (.voteAll q d a) s = execVoteAll q d a s := rfl
@[simp] theorem exec_shflIdx (q : Bool) (d a b : BitVec 6) (s : State) : exec (.shflIdx q d a b) s = execShflIdx q d a b s := rfl
@[simp] theorem exec_shflUp (q : Bool) (d a b : BitVec 6) (s : State) : exec (.shflUp q d a b) s = execShflUp q d a b s := rfl
@[simp] theorem exec_shflDn (q : Bool) (d a b : BitVec 6) (s : State) : exec (.shflDn q d a b) s = execShflDn q d a b s := rfl
@[simp] theorem exec_shflXor (q : Bool) (d a b : BitVec 6) (s : State) : exec (.shflXor q d a b) s = execShflXor q d a b s := rfl
@[simp] theorem exec_cred (q : Bool) (d a : BitVec 6) (o : BitVec 4) (s : State) :
    exec (.cred q d a o) s = execCred q d a o s := rfl
@[simp] theorem exec_cscan (q : Bool) (d a : BitVec 6) (o : BitVec 4) (s : State) :
    exec (.cscan q d a o) s = execCscan q d a o s := rfl
@[simp] theorem exec_cscanx (q : Bool) (d a : BitVec 6) (o : BitVec 4) (s : State) :
    exec (.cscanx q d a o) s = execCscanx q d a o s := rfl
@[simp] theorem exec_ld (q : Bool) (d : BitVec 6) (p : BitVec 5) (sx : Bool) (z : BitVec 3) (im : BitVec 9) (s : State) :
    exec (.ld q d p sx z im) s = execLd q d p sx z im s := rfl
@[simp] theorem exec_st (q : Bool) (d : BitVec 6) (p : BitVec 5) (z : BitVec 3) (im : BitVec 9) (s : State) :
    exec (.st q d p z im) s = execSt q d p z im s := rfl
@[simp] theorem exec_lds (q : Bool) (d : BitVec 6) (p : BitVec 5) (sx : BitVec 3) (s : State) :
    exec (.lds q d p sx) s = execLds q d p sx s := rfl
@[simp] theorem exec_ldsD (q : Bool) (d p : BitVec 5) (sx : BitVec 3) (s : State) :
    exec (.ldsD q d p sx) s = execLdsD q d p sx s := rfl
@[simp] theorem exec_sts (q : Bool) (d : BitVec 6) (p : BitVec 5) (sx : BitVec 3) (s : State) :
    exec (.sts q d p sx) s = execSts q d p sx s := rfl
@[simp] theorem exec_stsD (q : Bool) (d p : BitVec 5) (sx : BitVec 3) (s : State) :
    exec (.stsD q d p sx) s = execStsD q d p sx s := rfl
@[simp] theorem exec_acqp (q : Bool) (d : BitVec 6) (p : BitVec 5) (b : BitVec 6) (s : State) :
    exec (.acqp q d p b) s = execAcqp q d p b s := rfl
@[simp] theorem exec_acqpAll (q : Bool) (d : BitVec 6) (p : BitVec 5) (s : State) :
    exec (.acqpAll q d p) s = execAcqpAll q d p s := rfl
@[simp] theorem exec_atom (q : Bool) (d : BitVec 6) (p : BitVec 5) (b : BitVec 6) (sx : BitVec 3) (o : BitVec 4) (s : State) :
    exec (.atom q d p b sx o) s = execAtom q d p b sx o s := rfl
@[simp] theorem exec_atomt (q : Bool) (d : BitVec 6) (p b : BitVec 5) (sx : BitVec 3) (s : State) :
    exec (.atomt q d p b sx) s = execAtomt q d p b sx s := rfl
@[simp] theorem exec_red (q : Bool) (p : BitVec 5) (b : BitVec 6) (sx : BitVec 3) (o : BitVec 4) (s : State) :
    exec (.red q p b sx o) s = execRed q p b sx o s := rfl
@[simp] theorem exec_waita (q : Bool) (d : BitVec 6) (p : BitVec 5) (b : BitVec 6) (sx : BitVec 3) (c : BitVec 4) (s : State) :
    exec (.waita q d p b sx c) s = execWaita q d p b sx c s := rfl
@[simp] theorem exec_barArrive (q : Bool) (n : BitVec 4) (a : BitVec 6) (s : State) :
    exec (.barArrive q n a) s = execBarArrive q n a s := rfl
@[simp] theorem exec_barWait (q : Bool) (n : BitVec 4) (a : BitVec 6) (s : State) :
    exec (.barWait q n a) s = execBarWait q n a s := rfl
@[simp] theorem exec_barSync (q : Bool) (n : BitVec 4) (a : BitVec 6) (s : State) :
    exec (.barSync q n a) s = execBarSync q n a s := rfl
@[simp] theorem exec_waitc (q : Bool) (c : BitVec 2) (t : BitVec 6) (sx : BitVec 3) (r u : Bool) (s : State) :
    exec (.waitc q c t sx r u) s = execWaitc q c t sx r u s := rfl
@[simp] theorem exec_emit (q : Bool) (a b : BitVec 6) (s : State) : exec (.emit q a b) s = execEmit q a b s := rfl
@[simp] theorem exec_cpy (q : Bool) (d a : BitVec 5) (s : State) : exec (.cpy q d a) s = execCpy q d a s := rfl
@[simp] theorem exec_cpys (q : Bool) (d a : BitVec 5) (b : BitVec 6) (s : State) :
    exec (.cpys q d a b) s = execCpys q d a b s := rfl
@[simp] theorem exec_slinv (q : Bool) (a : BitVec 5) (s : State) : exec (.slinv q a) s = execSlinv q a s := rfl
@[simp] theorem exec_mxc (q : Bool) (d : BitVec 5) (a b : BitVec 6) (s : State) : exec (.mxc q d a b) s = execMxc q d a b s := rfl
@[simp] theorem exec_mxr (q : Bool) (d a : BitVec 6) (t : BitVec 3) (s : State) : exec (.mxr q d a t) s = execMxr q d a t s := rfl
@[simp] theorem exec_mxrn (q : Bool) (d a : BitVec 6) (t : BitVec 3) (s : State) :
    exec (.mxrn q d a t) s = execMxrn q d a t s := rfl
@[simp] theorem exec_mxw (q : Bool) (d a : BitVec 6) (t : BitVec 3) (s : State) : exec (.mxw q d a t) s = execMxw q d a t s := rfl
@[simp] theorem exec_rtake (q : Bool) (d : BitVec 5) (r : BitVec 2) (s : State) : exec (.rtake q d r) s = execRtake q d r s := rfl
@[simp] theorem exec_rtakeRes (q : Bool) (d : BitVec 5) (r : BitVec 2) (s : State) :
    exec (.rtakeRes q d r) s = execRtakeRes q d r s := rfl
@[simp] theorem exec_rgivePub (q : Bool) (r : BitVec 2) (b : BitVec 5) (s : State) :
    exec (.rgivePub q r b) s = execRgivePub q r b s := rfl
@[simp] theorem exec_rgiveRel (q : Bool) (r : BitVec 2) (b : BitVec 5) (s : State) :
    exec (.rgiveRel q r b) s = execRgiveRel q r b s := rfl
@[simp] theorem exec_bind (q : Bool) (a : BitVec 5) (s : State) : exec (.bind q a) s = execBind q a s := rfl
@[simp] theorem exec_bindWb (q : Bool) (a : BitVec 5) (s : State) : exec (.bindWb q a) s = execBindWb q a s := rfl
@[simp] theorem exec_grun (q : Bool) (a : BitVec 5) (b : BitVec 6) (s : State) : exec (.grun q a b) s = execGrun q a b s := rfl
@[simp] theorem exec_gstop (q : Bool) (a : BitVec 5) (s : State) : exec (.gstop q a) s = execGstop q a s := rfl
@[simp] theorem exec_gstat (q : Bool) (d a : BitVec 5) (s : State) : exec (.gstat q d a) s = execGstat q d a s := rfl
@[simp] theorem exec_pendingResultReturn (c t n : Nat) (s : State) :
    exec (.pendingResultReturn c t n) s = execPendingResultReturn c t n s := rfl
@[simp] theorem exec_seedbedRelease (c : Nat) (s : State) : exec (.seedbedRelease c) s = execSeedbedRelease c s := rfl
@[simp] theorem exec_displacement (c : Nat) (s : State) : exec (.displacement c) s = execDisplacement c s := rfl
@[simp] theorem exec_recordCommit (c : Nat) (s : State) : exec (.recordCommit c) s = execRecordCommit c s := rfl
@[simp] theorem exec_castEnd (c : Nat) (s : State) : exec (.castEnd c) s = execCastEnd c s := rfl
@[simp] theorem exec_bundleRegroup (p : Nat) (s : State) : exec (.bundleRegroup p) s = execBundleRegroup p s := rfl
@[simp] theorem exec_fairnessTimerExpiry (c t : Nat) (s : State) :
    exec (.fairnessTimerExpiry c t) s = execFairnessTimerExpiry c t s := rfl
@[simp] theorem exec_meetRejoin (c t : Nat) (s : State) : exec (.meetRejoin c t) s = execMeetRejoin c t s := rfl
@[simp] theorem exec_participantSetFixed (c t : Nat) (s : State) :
    exec (.participantSetFixed c t) s = execParticipantSetFixed c t s := rfl
@[simp] theorem exec_allZeroWriteback (p l : Nat) (s : State) : exec (.allZeroWriteback p l) s = execAllZeroWriteback p l s := rfl
@[simp] theorem exec_memoryOpRetire (c w : Nat) (k : OpClass) (s : State) :
    exec (.memoryOpRetire c w k) s = execMemoryOpRetire c w k s := rfl
@[simp] theorem exec_promotionRequest (p : Nat) (s : State) : exec (.promotionRequest p) s = execPromotionRequest p s := rfl
@[simp] theorem exec_waitaWake (c t : Nat) (s : State) : exec (.waitaWake c t) s = execWaitaWake c t s := rfl
@[simp] theorem exec_barrierComplete (c b : Nat) (s : State) : exec (.barrierComplete c b) s = execBarrierComplete c b s := rfl
@[simp] theorem exec_reelReserve (p r : Nat) (s : State) : exec (.reelReserve p r) s = execReelReserve p r s := rfl
@[simp] theorem exec_reelTake (p r : Nat) (s : State) : exec (.reelTake p r) s = execReelTake p r s := rfl
@[simp] theorem exec_copyStart (p : Nat) (s : State) : exec (.copyStart p) s = execCopyStart p s := rfl
@[simp] theorem exec_copyRetire (p n : Nat) (s : State) : exec (.copyRetire p n) s = execCopyRetire p n s := rfl
@[simp] theorem exec_matrixCommandStart (p n : Nat) (s : State) :
    exec (.matrixCommandStart p n) s = execMatrixCommandStart p n s := rfl
@[simp] theorem exec_matrixCommandRetire (p n : Nat) (s : State) :
    exec (.matrixCommandRetire p n) s = execMatrixCommandRetire p n s := rfl
@[simp] theorem exec_binding (al g : Nat) (s : State) : exec (.binding al g) s = execBinding al g s := rfl
@[simp] theorem exec_firingStart (al g : Nat) (s : State) : exec (.firingStart al g) s = execFiringStart al g s := rfl
@[simp] theorem exec_eosFiring (al g : Nat) (s : State) : exec (.eosFiring al g) s = execEosFiring al g s := rfl
@[simp] theorem exec_rebinding (al g : Nat) (s : State) : exec (.rebinding al g) s = execRebinding al g s := rfl
@[simp] theorem exec_graphFailureStop (al g : Nat) (s : State) :
    exec (.graphFailureStop al g) s = execGraphFailureStop al g s := rfl
@[simp] theorem exec_quantumExpiry (p : Nat) (s : State) : exec (.quantumExpiry p) s = execQuantumExpiry p s := rfl
@[simp] theorem exec_deferredListApply (c : Nat) (s : State) : exec (.deferredListApply c) s = execDeferredListApply c s := rfl
@[simp] theorem exec_sceneAccept (al : Nat) (s : State) : exec (.sceneAccept al) s = execSceneAccept al s := rfl
@[simp] theorem exec_castPlacement (al : Nat) (s : State) : exec (.castPlacement al) s = execCastPlacement al s := rfl
@[simp] theorem exec_endOfLaunch (al sc : Nat) (s : State) : exec (.endOfLaunch al sc) s = execEndOfLaunch al sc s := rfl
@[simp] theorem exec_completionRecordWrite (al sc : Nat) (s : State) :
    exec (.completionRecordWrite al sc) s = execCompletionRecordWrite al sc s := rfl
@[simp] theorem exec_leaseGrant (c : Nat) (s : State) : exec (.leaseGrant c) s = execLeaseGrant c s := rfl
@[simp] theorem exec_wdog (c : Nat) (s : State) : exec (.wdog c) s = execWdog c s := rfl
@[simp] theorem exec_sliceEnd (al qn : Nat) (s : State) : exec (.sliceEnd al qn) s = execSliceEnd al qn s := rfl
@[simp] theorem exec_softSaveComplete (al qn : Nat) (s : State) :
    exec (.softSaveComplete al qn) s = execSoftSaveComplete al qn s := rfl
@[simp] theorem exec_hardPreemption (al qn : Nat) (s : State) : exec (.hardPreemption al qn) s = execHardPreemption al qn s := rfl
@[simp] theorem exec_contextRestore (al qn : Nat) (s : State) : exec (.contextRestore al qn) s = execContextRestore al qn s := rfl
@[simp] theorem exec_contextRecall (al qn : Nat) (s : State) : exec (.contextRecall al qn) s = execContextRecall al qn s := rfl
@[simp] theorem exec_faultRecordWrite (s : State) : exec .faultRecordWrite s = execFaultRecordWrite s := rfl
@[simp] theorem exec_frespReplay (sq : BitVec 32) (s : State) : exec (.frespReplay sq) s = execFrespReplay sq s := rfl
@[simp] theorem exec_frespFail (sq : BitVec 32) (s : State) : exec (.frespFail sq) s = execFrespFail sq s := rfl
@[simp] theorem exec_assign (f : BitVec 28) (o k : BitVec 12) (s : State) : exec (.assign f o k) s = execAssign f o k s := rfl
@[simp] theorem exec_share (f : BitVec 28) (o : BitVec 12) (s : State) : exec (.share f o) s = execShare f o s := rfl
@[simp] theorem exec_free (f : BitVec 28) (s : State) : exec (.free f) s = execFree f s := rfl
@[simp] theorem exec_scrubComplete (s : State) : exec .scrubComplete s = execScrubComplete s := rfl
@[simp] theorem exec_query (f : BitVec 28) (s : State) : exec (.query f) s = execQuery f s := rfl
@[simp] theorem exec_xinvPage (al : BitVec 12) (vpn : BitVec 32) (s : State) :
    exec (.xinvPage al vpn) s = execXinvPage al vpn s := rfl
@[simp] theorem exec_xinvAllotment (al : BitVec 12) (s : State) : exec (.xinvAllotment al) s = execXinvAllotment al s := rfl
@[simp] theorem exec_xinvComplete (s : State) : exec .xinvComplete s = execXinvComplete s := rfl
@[simp] theorem exec_migdst (f : BitVec 28) (s : State) : exec (.migdst f) s = execMigdst f s := rfl
@[simp] theorem exec_migrationComplete (s : State) : exec .migrationComplete s = execMigrationComplete s := rfl
@[simp] theorem exec_kgen (k : BitVec 12) (s : State) : exec (.kgen k) s = execKgen k s := rfl
@[simp] theorem exec_uncorrectableError (w : ErrPlace) (s : State) :
    exec (.uncorrectableError w) s = execUncorrectableError w s := rfl
@[simp] theorem exec_correctedError (isl m row : Nat) (s : State) :
    exec (.correctedError isl m row) s = execCorrectedError isl m row s := rfl
@[simp] theorem exec_patrolScrub (l : Nat) (h : ScrubFinding) (s : State) :
    exec (.patrolScrub l h) s = execPatrolScrub l h s := rfl
@[simp] theorem exec_create (a : BitVec 44) (s : State) : exec (.create a) s = execCreate a s := rfl
@[simp] theorem exec_update (a : BitVec 44) (s : State) : exec (.update a) s = execUpdate a s := rfl
@[simp] theorem exec_destroy (a : BitVec 44) (s : State) : exec (.destroy a) s = execDestroy a s := rfl
@[simp] theorem exec_rtsync (s : State) : exec .rtsync s = execRtsync s := rfl
@[simp] theorem exec_crepair (core : BitVec 9) (s : State) : exec (.crepair core) s = execCrepair core s := rfl
@[simp] theorem exec_registerWrite (r : WindowReg) (v : BitVec 64) (s : State) :
    exec (.registerWrite r v) s = execRegisterWrite r v s := rfl
@[simp] theorem exec_rdmaWrite (qp : Nat) (rk : BitVec 32) (va : BitVec 64) (d : List (BitVec 8)) (s : State) :
    exec (.rdmaWrite qp rk va d) s = execRdmaWrite qp rk va d s := rfl
@[simp] theorem exec_rdmaRead (qp : Nat) (rk : BitVec 32) (va : BitVec 64) (n : Nat) (s : State) :
    exec (.rdmaRead qp rk va n) s = execRdmaRead qp rk va n s := rfl
@[simp] theorem exec_atomicFetchAndAdd (qp : Nat) (rk : BitVec 32) (va x : BitVec 64) (s : State) :
    exec (.atomicFetchAndAdd qp rk va x) s = execAtomicFetchAndAdd qp rk va x s := rfl
@[simp] theorem exec_atomicCompareAndSwap (qp : Nat) (rk : BitVec 32) (va x y : BitVec 64) (s : State) :
    exec (.atomicCompareAndSwap qp rk va x y) s = execAtomicCompareAndSwap qp rk va x y s := rfl
@[simp] theorem exec_invalidRequestNak (qp : Nat) (s : State) : exec (.invalidRequestNak qp) s = execInvalidRequestNak qp s := rfl
@[simp] theorem exec_ecnMarkedPacket (qp : Nat) (s : State) : exec (.ecnMarkedPacket qp) s = execEcnMarkedPacket qp s := rfl
@[simp] theorem exec_remoteRequest (r : FabricRequest) (s : State) : exec (.remoteRequest r) s = execRemoteRequest r s := rfl
@[simp] theorem exec_flitReceive (port : Nat) (sq : BitVec 2048) (ok : Bool) (s : State) :
    exec (.flitReceive port sq ok) s = execFlitReceive port sq ok s := rfl
@[simp] theorem exec_laneRetire (port : Nat) (lane : Bool) (s : State) :
    exec (.laneRetire port lane) s = execLaneRetire port lane s := rfl
@[simp] theorem exec_laneFailure (port : Nat) (lane : Bool) (s : State) :
    exec (.laneFailure port lane) s = execLaneFailure port lane s := rfl
@[simp] theorem exec_arbitrationWindow (arb : Nat) (s : State) :
    exec (.arbitrationWindow arb) s = execArbitrationWindow arb s := rfl
@[simp] theorem exec_thermalSample (isl : Nat) (t : BitVec 16) (pw : Nat) (s : State) :
    exec (.thermalSample isl t pw) s = execThermalSample isl t pw s := rfl
@[simp] theorem exec_lifetimeRecordSave (s : State) : exec .lifetimeRecordSave s = execLifetimeRecordSave s := rfl
@[simp] theorem exec_sensor (isl : BitVec 16) (s : State) : exec (.sensor isl) s = execSensor isl s := rfl
@[simp] theorem exec_setop (isl : BitVec 16) (pt : BitVec 8) (s : State) : exec (.setop isl pt) s = execSetop isl pt s := rfl
@[simp] theorem exec_pcap (w : BitVec 16) (s : State) : exec (.pcap w) s = execPcap w s := rfl
@[simp] theorem exec_evread (sq : BitVec 32) (s : State) : exec (.evread sq) s = execEvread sq s := rfl
@[simp] theorem exec_liferead (off : BitVec 32) (s : State) : exec (.liferead off) s = execLiferead off s := rfl
@[simp] theorem exec_fwwrite (sl : BitVec 8) (off : BitVec 32) (d : List (BitVec 8)) (s : State) :
    exec (.fwwrite sl off d) s = execFwwrite sl off d s := rfl
@[simp] theorem exec_fwseal (sl : BitVec 8) (s : State) : exec (.fwseal sl) s = execFwseal sl s := rfl
@[simp] theorem exec_fwcommit (x : BitVec 8) (s : State) : exec (.fwcommit x) s = execFwcommit x s := rfl
@[simp] theorem exec_attest (nonce : BitVec 256) (al : BitVec 12) (s : State) :
    exec (.attest nonce al) s = execAttest nonce al s := rfl
@[simp] theorem exec_atread (off : BitVec 32) (s : State) : exec (.atread off) s = execAtread off s := rfl
@[simp] theorem exec_reset (s : State) : exec .reset s = execReset s := rfl
@[simp] theorem exec_i3cDynamicAddress (a : BitVec 7) (s : State) :
    exec (.i3cDynamicAddress a) s = execI3cDynamicAddress a s := rfl
@[simp] theorem exec_powerOn (s : State) : exec .powerOn s = execPowerOn s := rfl
@[simp] theorem exec_ethernetOpen (s : State) : exec .ethernetOpen s = execEthernetOpen s := rfl
@[simp] theorem exec_pageOut (al qn : Nat) (s : State) : exec (.pageOut al qn) s = execPageOut al qn s := rfl
@[simp] theorem exec_laneRetrainComplete (port : Nat) (s : State) :
    exec (.laneRetrainComplete port) s = execLaneRetrainComplete port s := rfl
@[simp] theorem exec_powerLoss (s : State) : exec .powerLoss s = execPowerLoss s := rfl
@[simp] theorem exec_orderlyShutdown (s : State) : exec .orderlyShutdown s = execOrderlyShutdown s := rfl
@[simp] theorem exec_priorityFlowControlFrame (port : Nat) (prio : BitVec 3) (pause : Bool) (s : State) :
    exec (.priorityFlowControlFrame port prio pause) s = execPriorityFlowControlFrame port prio pause s := rfl

end Sys2Proof.Machine
end

