-- ==== Sys2Proof/Laws/State.lean ====
section
/-!
SUPPORT. What each update of the state leaves alone, one lemma per field and update; the laws of keyed lists; and what an update of
a plot, a cast or a thread does to what is read afterwards.
-/

namespace Sys2Proof.Machine

open Sys2Proof

/-! ### Keyed lists -/

@[simp] theorem look_nil {α : Type} (n : Nat) : look ([] : List (Nat × α)) n = none := rfl

@[simp] theorem look_put_same {α : Type} (l : List (Nat × α)) (n : Nat) (v : α) : look (put l n v) n = some v := by
  induction l with
  | nil => simp [put, look]
  | cons e r ih =>
    obtain ⟨m, w⟩ := e
    unfold put
    split
    · simp [look]
    · rename_i h; simp [look, h, ih]

@[simp] theorem look_put_ne {α : Type} (l : List (Nat × α)) (n m : Nat) (v : α) (h : m ≠ n) : look (put l n v) m = look l m := by
  induction l with
  | nil => simp [put, look, Ne.symm h]
  | cons e r ih =>
    obtain ⟨j, w⟩ := e
    unfold put
    split
    · rename_i e; subst e; simp [look, Ne.symm h]
    · simp [look, ih]

@[simp] theorem look_del_same {α : Type} (l : List (Nat × α)) (n : Nat) : look (del l n) n = none := by
  induction l with
  | nil => rfl
  | cons e r ih =>
    obtain ⟨m, w⟩ := e
    simp only [del, List.filter_cons] at ih ⊢
    by_cases h : m = n
    · simpa [h] using ih
    · simpa [h, look] using ih

@[simp] theorem look_del_ne {α : Type} (l : List (Nat × α)) (n m : Nat) (h : m ≠ n) : look (del l n) m = look l m := by
  induction l with
  | nil => rfl
  | cons e r ih =>
    obtain ⟨j, w⟩ := e
    simp only [del, List.filter_cons] at ih ⊢
    by_cases hj : j = n
    · subst hj; simpa [look, Ne.symm h] using ih
    · by_cases hm : j = m
      · simp [look, hm, h]
      · simpa [hj, look, hm] using ih

/-- A key that is there is found in the list. -/
theorem mem_of_look {α : Type} {l : List (Nat × α)} {n : Nat} {v : α} (h : look l n = some v) : (n, v) ∈ l := by
  induction l with
  | nil => simp at h
  | cons e r ih =>
    obtain ⟨m, w⟩ := e
    unfold look at h
    split at h
    · rename_i e; subst e; simp at h; simp [h]
    · exact List.mem_cons_of_mem _ (ih h)

/-- A map over the values of a keyed list maps what is found. -/
@[simp] theorem look_map {α β : Type} (l : List (Nat × α)) (f : Nat → α → β) (n : Nat) :
    look (l.map (fun e => (e.1, f e.1 e.2))) n = (look l n).map (f n) := by
  induction l with
  | nil => rfl
  | cons e r ih =>
    obtain ⟨m, w⟩ := e
    simp only [List.map, look]
    by_cases h : m = n
    · subst h; simp
    · simp [h, ih]

/-! ### Threads -/

@[simp] theorem Thread.setX_pc (t : Thread) (r : BitVec 6) (v : Word) : (t.setX r v).pc = t.pc := by unfold Thread.setX; split <;> rfl
@[simp] theorem Thread.setX_k (t : Thread) (r : BitVec 6) (v : Word) : (t.setX r v).k = t.k := by unfold Thread.setX; split <;> rfl
@[simp] theorem Thread.setX_e (t : Thread) (r : BitVec 6) (v : Word) : (t.setX r v).e = t.e := by unfold Thread.setX; split <;> rfl
@[simp] theorem Thread.setX_lc (t : Thread) (r : BitVec 6) (v : Word) : (t.setX r v).lc = t.lc := by unfold Thread.setX; split <;> rfl
@[simp] theorem Thread.setX_ll (t : Thread) (r : BitVec 6) (v : Word) : (t.setX r v).ll = t.ll := by unfold Thread.setX; split <;> rfl
@[simp] theorem Thread.setX_meet (t : Thread) (r : BitVec 6) (v : Word) : (t.setX r v).meet = t.meet := by unfold Thread.setX; split <;> rfl
@[simp] theorem Thread.setX_key (t : Thread) (r : BitVec 6) (v : Word) : (t.setX r v).key = t.key := by unfold Thread.setX; split <;> rfl
@[simp] theorem Thread.setX_dep (t : Thread) (r : BitVec 6) (v : Word) : (t.setX r v).dep = t.dep := by unfold Thread.setX; split <;> rfl
@[simp] theorem Thread.setX_cmask (t : Thread) (r : BitVec 6) (v : Word) : (t.setX r v).cmask = t.cmask :=
  by unfold Thread.setX; split <;> rfl
@[simp] theorem Thread.setX_retired (t : Thread) (r : BitVec 6) (v : Word) : (t.setX r v).retired = t.retired :=
  by unfold Thread.setX; split <;> rfl
@[simp] theorem Thread.setX_retLatch (t : Thread) (r : BitVec 6) (v : Word) : (t.setX r v).retLatch = t.retLatch :=
  by unfold Thread.setX; split <;> rfl
@[simp] theorem Thread.setX_st (t : Thread) (r : BitVec 6) (v : Word) : (t.setX r v).st = t.st := by unfold Thread.setX; split <;> rfl
@[simp] theorem Thread.setX_pend (t : Thread) (r : BitVec 6) (v : Word) : (t.setX r v).pend = t.pend := by unfold Thread.setX; split <;> rfl
@[simp] theorem Thread.setX_flights (t : Thread) (r : BitVec 6) (v : Word) : (t.setX r v).flights = t.flights :=
  by unfold Thread.setX; split <;> rfl
@[simp] theorem Thread.setX_timer (t : Thread) (r : BitVec 6) (v : Word) : (t.setX r v).timer = t.timer :=
  by unfold Thread.setX; split <;> rfl
@[simp] theorem Thread.setX_pass (t : Thread) (r : BitVec 6) (v : Word) : (t.setX r v).pass = t.pass := by unfold Thread.setX; split <;> rfl
@[simp] theorem Thread.setX_met (t : Thread) (r : BitVec 6) (v : Word) : (t.setX r v).met = t.met := by unfold Thread.setX; split <;> rfl
@[simp] theorem Thread.setX_own (t : Thread) (r : BitVec 6) (v : Word) : (t.setX r v).own = t.own := by unfold Thread.setX; split <;> rfl
@[simp] theorem Thread.setX_wceil (t : Thread) (r : BitVec 6) (v : Word) : (t.setX r v).wceil = t.wceil :=
  by unfold Thread.setX; split <;> rfl
@[simp] theorem Thread.setK_pc (t : Thread) (r : BitVec 3) (v : Bool) : (t.setK r v).pc = t.pc := by unfold Thread.setK; split <;> rfl
@[simp] theorem Thread.setK_x (t : Thread) (r : BitVec 3) (v : Bool) : (t.setK r v).x = t.x := by unfold Thread.setK; split <;> rfl
@[simp] theorem Thread.setK_e (t : Thread) (r : BitVec 3) (v : Bool) : (t.setK r v).e = t.e := by unfold Thread.setK; split <;> rfl
@[simp] theorem Thread.setK_lc (t : Thread) (r : BitVec 3) (v : Bool) : (t.setK r v).lc = t.lc := by unfold Thread.setK; split <;> rfl
@[simp] theorem Thread.setK_ll (t : Thread) (r : BitVec 3) (v : Bool) : (t.setK r v).ll = t.ll := by unfold Thread.setK; split <;> rfl
@[simp] theorem Thread.setK_meet (t : Thread) (r : BitVec 3) (v : Bool) : (t.setK r v).meet = t.meet := by unfold Thread.setK; split <;> rfl
@[simp] theorem Thread.setK_key (t : Thread) (r : BitVec 3) (v : Bool) : (t.setK r v).key = t.key := by unfold Thread.setK; split <;> rfl
@[simp] theorem Thread.setK_dep (t : Thread) (r : BitVec 3) (v : Bool) : (t.setK r v).dep = t.dep := by unfold Thread.setK; split <;> rfl
@[simp] theorem Thread.setK_cmask (t : Thread) (r : BitVec 3) (v : Bool) : (t.setK r v).cmask = t.cmask :=
  by unfold Thread.setK; split <;> rfl
@[simp] theorem Thread.setK_retired (t : Thread) (r : BitVec 3) (v : Bool) : (t.setK r v).retired = t.retired :=
  by unfold Thread.setK; split <;> rfl
@[simp] theorem Thread.setK_retLatch (t : Thread) (r : BitVec 3) (v : Bool) : (t.setK r v).retLatch = t.retLatch :=
  by unfold Thread.setK; split <;> rfl
@[simp] theorem Thread.setK_st (t : Thread) (r : BitVec 3) (v : Bool) : (t.setK r v).st = t.st := by unfold Thread.setK; split <;> rfl
@[simp] theorem Thread.setK_pend (t : Thread) (r : BitVec 3) (v : Bool) : (t.setK r v).pend = t.pend := by unfold Thread.setK; split <;> rfl
@[simp] theorem Thread.setK_flights (t : Thread) (r : BitVec 3) (v : Bool) : (t.setK r v).flights = t.flights :=
  by unfold Thread.setK; split <;> rfl
@[simp] theorem Thread.setK_timer (t : Thread) (r : BitVec 3) (v : Bool) : (t.setK r v).timer = t.timer :=
  by unfold Thread.setK; split <;> rfl
@[simp] theorem Thread.setK_pass (t : Thread) (r : BitVec 3) (v : Bool) : (t.setK r v).pass = t.pass := by unfold Thread.setK; split <;> rfl
@[simp] theorem Thread.setK_met (t : Thread) (r : BitVec 3) (v : Bool) : (t.setK r v).met = t.met := by unfold Thread.setK; split <;> rfl
@[simp] theorem Thread.setK_own (t : Thread) (r : BitVec 3) (v : Bool) : (t.setK r v).own = t.own := by unfold Thread.setK; split <;> rfl
@[simp] theorem Thread.setK_wceil (t : Thread) (r : BitVec 3) (v : Bool) : (t.setK r v).wceil = t.wceil :=
  by unfold Thread.setK; split <;> rfl
@[simp] theorem Thread.setE_pc (t : Thread) (r : BitVec 2) (v : DWord) : (t.setE r v).pc = t.pc := rfl
@[simp] theorem Thread.setE_x (t : Thread) (r : BitVec 2) (v : DWord) : (t.setE r v).x = t.x := rfl
@[simp] theorem Thread.setE_k (t : Thread) (r : BitVec 2) (v : DWord) : (t.setE r v).k = t.k := rfl
@[simp] theorem Thread.setE_lc (t : Thread) (r : BitVec 2) (v : DWord) : (t.setE r v).lc = t.lc := rfl
@[simp] theorem Thread.setE_ll (t : Thread) (r : BitVec 2) (v : DWord) : (t.setE r v).ll = t.ll := rfl
@[simp] theorem Thread.setE_meet (t : Thread) (r : BitVec 2) (v : DWord) : (t.setE r v).meet = t.meet := rfl
@[simp] theorem Thread.setE_key (t : Thread) (r : BitVec 2) (v : DWord) : (t.setE r v).key = t.key := rfl
@[simp] theorem Thread.setE_dep (t : Thread) (r : BitVec 2) (v : DWord) : (t.setE r v).dep = t.dep := rfl
@[simp] theorem Thread.setE_cmask (t : Thread) (r : BitVec 2) (v : DWord) : (t.setE r v).cmask = t.cmask := rfl
@[simp] theorem Thread.setE_retired (t : Thread) (r : BitVec 2) (v : DWord) : (t.setE r v).retired = t.retired := rfl
@[simp] theorem Thread.setE_retLatch (t : Thread) (r : BitVec 2) (v : DWord) : (t.setE r v).retLatch = t.retLatch := rfl
@[simp] theorem Thread.setE_st (t : Thread) (r : BitVec 2) (v : DWord) : (t.setE r v).st = t.st := rfl
@[simp] theorem Thread.setE_pend (t : Thread) (r : BitVec 2) (v : DWord) : (t.setE r v).pend = t.pend := rfl
@[simp] theorem Thread.setE_flights (t : Thread) (r : BitVec 2) (v : DWord) : (t.setE r v).flights = t.flights := rfl
@[simp] theorem Thread.setE_timer (t : Thread) (r : BitVec 2) (v : DWord) : (t.setE r v).timer = t.timer := rfl
@[simp] theorem Thread.setE_pass (t : Thread) (r : BitVec 2) (v : DWord) : (t.setE r v).pass = t.pass := rfl
@[simp] theorem Thread.setE_met (t : Thread) (r : BitVec 2) (v : DWord) : (t.setE r v).met = t.met := rfl
@[simp] theorem Thread.setE_own (t : Thread) (r : BitVec 2) (v : DWord) : (t.setE r v).own = t.own := rfl
@[simp] theorem Thread.setE_wceil (t : Thread) (r : BitVec 2) (v : DWord) : (t.setE r v).wceil = t.wceil := rfl
@[simp] theorem Thread.setA_pc (t : Thread) (a : BitVec 5) (v : DWord) : (t.setA a v).pc = t.pc := by simp [Thread.setA]
@[simp] theorem Thread.setA_k (t : Thread) (a : BitVec 5) (v : DWord) : (t.setA a v).k = t.k := by simp [Thread.setA]
@[simp] theorem Thread.setA_e (t : Thread) (a : BitVec 5) (v : DWord) : (t.setA a v).e = t.e := by simp [Thread.setA]
@[simp] theorem Thread.setA_lc (t : Thread) (a : BitVec 5) (v : DWord) : (t.setA a v).lc = t.lc := by simp [Thread.setA]
@[simp] theorem Thread.setA_ll (t : Thread) (a : BitVec 5) (v : DWord) : (t.setA a v).ll = t.ll := by simp [Thread.setA]
@[simp] theorem Thread.setA_meet (t : Thread) (a : BitVec 5) (v : DWord) : (t.setA a v).meet = t.meet := by simp [Thread.setA]
@[simp] theorem Thread.setA_key (t : Thread) (a : BitVec 5) (v : DWord) : (t.setA a v).key = t.key := by simp [Thread.setA]
@[simp] theorem Thread.setA_dep (t : Thread) (a : BitVec 5) (v : DWord) : (t.setA a v).dep = t.dep := by simp [Thread.setA]
@[simp] theorem Thread.setA_cmask (t : Thread) (a : BitVec 5) (v : DWord) : (t.setA a v).cmask = t.cmask := by simp [Thread.setA]
@[simp] theorem Thread.setA_retired (t : Thread) (a : BitVec 5) (v : DWord) : (t.setA a v).retired = t.retired := by simp [Thread.setA]
@[simp] theorem Thread.setA_retLatch (t : Thread) (a : BitVec 5) (v : DWord) : (t.setA a v).retLatch = t.retLatch := by simp [Thread.setA]
@[simp] theorem Thread.setA_st (t : Thread) (a : BitVec 5) (v : DWord) : (t.setA a v).st = t.st := by simp [Thread.setA]
@[simp] theorem Thread.setA_pend (t : Thread) (a : BitVec 5) (v : DWord) : (t.setA a v).pend = t.pend := by simp [Thread.setA]
@[simp] theorem Thread.setA_flights (t : Thread) (a : BitVec 5) (v : DWord) : (t.setA a v).flights = t.flights := by simp [Thread.setA]
@[simp] theorem Thread.setA_timer (t : Thread) (a : BitVec 5) (v : DWord) : (t.setA a v).timer = t.timer := by simp [Thread.setA]
@[simp] theorem Thread.setA_pass (t : Thread) (a : BitVec 5) (v : DWord) : (t.setA a v).pass = t.pass := by simp [Thread.setA]
@[simp] theorem Thread.setA_met (t : Thread) (a : BitVec 5) (v : DWord) : (t.setA a v).met = t.met := by simp [Thread.setA]
@[simp] theorem Thread.setA_own (t : Thread) (a : BitVec 5) (v : DWord) : (t.setA a v).own = t.own := by simp [Thread.setA]
@[simp] theorem Thread.setA_wceil (t : Thread) (a : BitVec 5) (v : DWord) : (t.setA a v).wceil = t.wceil := by simp [Thread.setA]
@[simp] theorem Thread.pending_pc (t : Thread) (f : Flight) : (t.pending f).pc = t.pc := rfl
@[simp] theorem Thread.pending_x (t : Thread) (f : Flight) : (t.pending f).x = t.x := rfl
@[simp] theorem Thread.pending_k (t : Thread) (f : Flight) : (t.pending f).k = t.k := rfl
@[simp] theorem Thread.pending_e (t : Thread) (f : Flight) : (t.pending f).e = t.e := rfl
@[simp] theorem Thread.pending_lc (t : Thread) (f : Flight) : (t.pending f).lc = t.lc := rfl
@[simp] theorem Thread.pending_ll (t : Thread) (f : Flight) : (t.pending f).ll = t.ll := rfl
@[simp] theorem Thread.pending_meet (t : Thread) (f : Flight) : (t.pending f).meet = t.meet := rfl
@[simp] theorem Thread.pending_key (t : Thread) (f : Flight) : (t.pending f).key = t.key := rfl
@[simp] theorem Thread.pending_dep (t : Thread) (f : Flight) : (t.pending f).dep = t.dep := rfl
@[simp] theorem Thread.pending_cmask (t : Thread) (f : Flight) : (t.pending f).cmask = t.cmask := rfl
@[simp] theorem Thread.pending_retired (t : Thread) (f : Flight) : (t.pending f).retired = t.retired := rfl
@[simp] theorem Thread.pending_retLatch (t : Thread) (f : Flight) : (t.pending f).retLatch = t.retLatch := rfl
@[simp] theorem Thread.pending_st (t : Thread) (f : Flight) : (t.pending f).st = t.st := rfl
@[simp] theorem Thread.pending_timer (t : Thread) (f : Flight) : (t.pending f).timer = t.timer := rfl
@[simp] theorem Thread.pending_pass (t : Thread) (f : Flight) : (t.pending f).pass = t.pass := rfl
@[simp] theorem Thread.pending_met (t : Thread) (f : Flight) : (t.pending f).met = t.met := rfl
@[simp] theorem Thread.pending_own (t : Thread) (f : Flight) : (t.pending f).own = t.own := rfl
@[simp] theorem Thread.pending_wceil (t : Thread) (f : Flight) : (t.pending f).wceil = t.wceil := rfl

/-! ### Casts -/

@[simp] theorem Cast.setThread_al (c : Cast) (i : Nat) (v : Thread) : (c.setThread i v).al = c.al := rfl
@[simp] theorem Cast.setThread_qn (c : Cast) (i : Nat) (v : Thread) : (c.setThread i v).qn = c.qn := rfl
@[simp] theorem Cast.setThread_scene (c : Cast) (i : Nat) (v : Thread) : (c.setThread i v).scene = c.scene := rfl
@[simp] theorem Cast.setThread_fire (c : Cast) (i : Nat) (v : Thread) : (c.setThread i v).fire = c.fire := rfl
@[simp] theorem Cast.setThread_ix (c : Cast) (i : Nat) (v : Thread) : (c.setThread i v).ix = c.ix := rfl
@[simp] theorem Cast.setThread_plot (c : Cast) (i : Nat) (v : Thread) : (c.setThread i v).plot = c.plot := rfl
@[simp] theorem Cast.setThread_st (c : Cast) (i : Nat) (v : Thread) : (c.setThread i v).st = c.st := rfl
@[simp] theorem Cast.setThread_desc (c : Cast) (i : Nat) (v : Thread) : (c.setThread i v).desc = c.desc := rfl
@[simp] theorem Cast.setThread_param (c : Cast) (i : Nat) (v : Thread) : (c.setThread i v).param = c.param := rfl
@[simp] theorem Cast.setThread_crews (c : Cast) (i : Nat) (v : Thread) : (c.setThread i v).crews = c.crews := rfl
@[simp] theorem Cast.setThread_seeds (c : Cast) (i : Nat) (v : Thread) : (c.setThread i v).seeds = c.seeds := rfl
@[simp] theorem Cast.setThread_ebuf (c : Cast) (i : Nat) (v : Thread) : (c.setThread i v).ebuf = c.ebuf := rfl
@[simp] theorem Cast.setThread_accepted (c : Cast) (i : Nat) (v : Thread) : (c.setThread i v).accepted = c.accepted := rfl
@[simp] theorem Cast.setThread_committed (c : Cast) (i : Nat) (v : Thread) : (c.setThread i v).committed = c.committed := rfl
@[simp] theorem Cast.setThread_bars (c : Cast) (i : Nat) (v : Thread) : (c.setThread i v).bars = c.bars := rfl
@[simp] theorem Cast.setThread_scr (c : Cast) (i : Nat) (v : Thread) : (c.setThread i v).scr = c.scr := rfl
@[simp] theorem Cast.setThread_opd (c : Cast) (i : Nat) (v : Thread) : (c.setThread i v).opd = c.opd := rfl
@[simp] theorem Cast.setThread_scrBanks (c : Cast) (i : Nat) (v : Thread) : (c.setThread i v).scrBanks = c.scrBanks := rfl
@[simp] theorem Cast.setThread_opdBanks (c : Cast) (i : Nat) (v : Thread) : (c.setThread i v).opdBanks = c.opdBanks := rfl
@[simp] theorem Cast.setThread_tiles (c : Cast) (i : Nat) (v : Thread) : (c.setThread i v).tiles = c.tiles := rfl
@[simp] theorem Cast.setThread_reels (c : Cast) (i : Nat) (v : Thread) : (c.setThread i v).reels = c.reels := rfl
@[simp] theorem Cast.setThread_clk (c : Cast) (i : Nat) (v : Thread) : (c.setThread i v).clk = c.clk := rfl
@[simp] theorem Cast.setThread_digest (c : Cast) (i : Nat) (v : Thread) : (c.setThread i v).digest = c.digest := rfl
@[simp] theorem Cast.setThread_steps (c : Cast) (i : Nat) (v : Thread) : (c.setThread i v).steps = c.steps := rfl
@[simp] theorem Cast.setThread_deferred (c : Cast) (i : Nat) (v : Thread) : (c.setThread i v).deferred = c.deferred := rfl
@[simp] theorem Cast.setThread_lease (c : Cast) (i : Nat) (v : Thread) : (c.setThread i v).lease = c.lease := rfl
@[simp] theorem Cast.setThread_leased (c : Cast) (i : Nat) (v : Thread) : (c.setThread i v).leased = c.leased := rfl
@[simp] theorem Cast.setThread_wdog (c : Cast) (i : Nat) (v : Thread) : (c.setThread i v).wdog = c.wdog := rfl
@[simp] theorem Cast.setThread_displaced (c : Cast) (i : Nat) (v : Thread) : (c.setThread i v).displaced = c.displaced := rfl
@[simp] theorem Cast.setThread_nextOp (c : Cast) (i : Nat) (v : Thread) : (c.setThread i v).nextOp = c.nextOp := rfl
@[simp] theorem Cast.setThread_wload (c : Cast) (i : Nat) (v : Thread) : (c.setThread i v).wload = c.wload := rfl
@[simp] theorem Cast.setThread_active (c : Cast) (i : Nat) (v : Thread) : (c.setThread i v).active = c.active := rfl
@[simp] theorem Cast.setThread_failCode (c : Cast) (i : Nat) (v : Thread) : (c.setThread i v).failCode = c.failCode := rfl
@[simp] theorem Cast.setThread_withdrawn (c : Cast) (i : Nat) (v : Thread) : (c.setThread i v).withdrawn = c.withdrawn := rfl
@[simp] theorem Cast.setThread_bad (c : Cast) (i : Nat) (v : Thread) : (c.setThread i v).bad = c.bad := rfl
@[simp] theorem Cast.onCrew_al (c : Cast) (w : Nat) (f : Crew → Crew) : (c.onCrew w f).al = c.al := rfl
@[simp] theorem Cast.onCrew_qn (c : Cast) (w : Nat) (f : Crew → Crew) : (c.onCrew w f).qn = c.qn := rfl
@[simp] theorem Cast.onCrew_scene (c : Cast) (w : Nat) (f : Crew → Crew) : (c.onCrew w f).scene = c.scene := rfl
@[simp] theorem Cast.onCrew_fire (c : Cast) (w : Nat) (f : Crew → Crew) : (c.onCrew w f).fire = c.fire := rfl
@[simp] theorem Cast.onCrew_ix (c : Cast) (w : Nat) (f : Crew → Crew) : (c.onCrew w f).ix = c.ix := rfl
@[simp] theorem Cast.onCrew_plot (c : Cast) (w : Nat) (f : Crew → Crew) : (c.onCrew w f).plot = c.plot := rfl
@[simp] theorem Cast.onCrew_st (c : Cast) (w : Nat) (f : Crew → Crew) : (c.onCrew w f).st = c.st := rfl
@[simp] theorem Cast.onCrew_desc (c : Cast) (w : Nat) (f : Crew → Crew) : (c.onCrew w f).desc = c.desc := rfl
@[simp] theorem Cast.onCrew_param (c : Cast) (w : Nat) (f : Crew → Crew) : (c.onCrew w f).param = c.param := rfl
@[simp] theorem Cast.onCrew_threads (c : Cast) (w : Nat) (f : Crew → Crew) : (c.onCrew w f).threads = c.threads := rfl
@[simp] theorem Cast.onCrew_seeds (c : Cast) (w : Nat) (f : Crew → Crew) : (c.onCrew w f).seeds = c.seeds := rfl
@[simp] theorem Cast.onCrew_ebuf (c : Cast) (w : Nat) (f : Crew → Crew) : (c.onCrew w f).ebuf = c.ebuf := rfl
@[simp] theorem Cast.onCrew_accepted (c : Cast) (w : Nat) (f : Crew → Crew) : (c.onCrew w f).accepted = c.accepted := rfl
@[simp] theorem Cast.onCrew_committed (c : Cast) (w : Nat) (f : Crew → Crew) : (c.onCrew w f).committed = c.committed := rfl
@[simp] theorem Cast.onCrew_bars (c : Cast) (w : Nat) (f : Crew → Crew) : (c.onCrew w f).bars = c.bars := rfl
@[simp] theorem Cast.onCrew_scr (c : Cast) (w : Nat) (f : Crew → Crew) : (c.onCrew w f).scr = c.scr := rfl
@[simp] theorem Cast.onCrew_opd (c : Cast) (w : Nat) (f : Crew → Crew) : (c.onCrew w f).opd = c.opd := rfl
@[simp] theorem Cast.onCrew_scrBanks (c : Cast) (w : Nat) (f : Crew → Crew) : (c.onCrew w f).scrBanks = c.scrBanks := rfl
@[simp] theorem Cast.onCrew_opdBanks (c : Cast) (w : Nat) (f : Crew → Crew) : (c.onCrew w f).opdBanks = c.opdBanks := rfl
@[simp] theorem Cast.onCrew_tiles (c : Cast) (w : Nat) (f : Crew → Crew) : (c.onCrew w f).tiles = c.tiles := rfl
@[simp] theorem Cast.onCrew_reels (c : Cast) (w : Nat) (f : Crew → Crew) : (c.onCrew w f).reels = c.reels := rfl
@[simp] theorem Cast.onCrew_clk (c : Cast) (w : Nat) (f : Crew → Crew) : (c.onCrew w f).clk = c.clk := rfl
@[simp] theorem Cast.onCrew_digest (c : Cast) (w : Nat) (f : Crew → Crew) : (c.onCrew w f).digest = c.digest := rfl
@[simp] theorem Cast.onCrew_steps (c : Cast) (w : Nat) (f : Crew → Crew) : (c.onCrew w f).steps = c.steps := rfl
@[simp] theorem Cast.onCrew_deferred (c : Cast) (w : Nat) (f : Crew → Crew) : (c.onCrew w f).deferred = c.deferred := rfl
@[simp] theorem Cast.onCrew_lease (c : Cast) (w : Nat) (f : Crew → Crew) : (c.onCrew w f).lease = c.lease := rfl
@[simp] theorem Cast.onCrew_leased (c : Cast) (w : Nat) (f : Crew → Crew) : (c.onCrew w f).leased = c.leased := rfl
@[simp] theorem Cast.onCrew_wdog (c : Cast) (w : Nat) (f : Crew → Crew) : (c.onCrew w f).wdog = c.wdog := rfl
@[simp] theorem Cast.onCrew_displaced (c : Cast) (w : Nat) (f : Crew → Crew) : (c.onCrew w f).displaced = c.displaced := rfl
@[simp] theorem Cast.onCrew_nextOp (c : Cast) (w : Nat) (f : Crew → Crew) : (c.onCrew w f).nextOp = c.nextOp := rfl
@[simp] theorem Cast.onCrew_wload (c : Cast) (w : Nat) (f : Crew → Crew) : (c.onCrew w f).wload = c.wload := rfl
@[simp] theorem Cast.onCrew_active (c : Cast) (w : Nat) (f : Crew → Crew) : (c.onCrew w f).active = c.active := rfl
@[simp] theorem Cast.onCrew_failCode (c : Cast) (w : Nat) (f : Crew → Crew) : (c.onCrew w f).failCode = c.failCode := rfl
@[simp] theorem Cast.onCrew_withdrawn (c : Cast) (w : Nat) (f : Crew → Crew) : (c.onCrew w f).withdrawn = c.withdrawn := rfl
@[simp] theorem Cast.onCrew_bad (c : Cast) (w : Nat) (f : Crew → Crew) : (c.onCrew w f).bad = c.bad := rfl
@[simp] theorem Cast.setReel_al (c : Cast) (r : Nat) (v : Reel) : (c.setReel r v).al = c.al := rfl
@[simp] theorem Cast.setReel_qn (c : Cast) (r : Nat) (v : Reel) : (c.setReel r v).qn = c.qn := rfl
@[simp] theorem Cast.setReel_scene (c : Cast) (r : Nat) (v : Reel) : (c.setReel r v).scene = c.scene := rfl
@[simp] theorem Cast.setReel_fire (c : Cast) (r : Nat) (v : Reel) : (c.setReel r v).fire = c.fire := rfl
@[simp] theorem Cast.setReel_ix (c : Cast) (r : Nat) (v : Reel) : (c.setReel r v).ix = c.ix := rfl
@[simp] theorem Cast.setReel_plot (c : Cast) (r : Nat) (v : Reel) : (c.setReel r v).plot = c.plot := rfl
@[simp] theorem Cast.setReel_st (c : Cast) (r : Nat) (v : Reel) : (c.setReel r v).st = c.st := rfl
@[simp] theorem Cast.setReel_desc (c : Cast) (r : Nat) (v : Reel) : (c.setReel r v).desc = c.desc := rfl
@[simp] theorem Cast.setReel_param (c : Cast) (r : Nat) (v : Reel) : (c.setReel r v).param = c.param := rfl
@[simp] theorem Cast.setReel_threads (c : Cast) (r : Nat) (v : Reel) : (c.setReel r v).threads = c.threads := rfl
@[simp] theorem Cast.setReel_crews (c : Cast) (r : Nat) (v : Reel) : (c.setReel r v).crews = c.crews := rfl
@[simp] theorem Cast.setReel_seeds (c : Cast) (r : Nat) (v : Reel) : (c.setReel r v).seeds = c.seeds := rfl
@[simp] theorem Cast.setReel_ebuf (c : Cast) (r : Nat) (v : Reel) : (c.setReel r v).ebuf = c.ebuf := rfl
@[simp] theorem Cast.setReel_accepted (c : Cast) (r : Nat) (v : Reel) : (c.setReel r v).accepted = c.accepted := rfl
@[simp] theorem Cast.setReel_committed (c : Cast) (r : Nat) (v : Reel) : (c.setReel r v).committed = c.committed := rfl
@[simp] theorem Cast.setReel_bars (c : Cast) (r : Nat) (v : Reel) : (c.setReel r v).bars = c.bars := rfl
@[simp] theorem Cast.setReel_scr (c : Cast) (r : Nat) (v : Reel) : (c.setReel r v).scr = c.scr := rfl
@[simp] theorem Cast.setReel_opd (c : Cast) (r : Nat) (v : Reel) : (c.setReel r v).opd = c.opd := rfl
@[simp] theorem Cast.setReel_scrBanks (c : Cast) (r : Nat) (v : Reel) : (c.setReel r v).scrBanks = c.scrBanks := rfl
@[simp] theorem Cast.setReel_opdBanks (c : Cast) (r : Nat) (v : Reel) : (c.setReel r v).opdBanks = c.opdBanks := rfl
@[simp] theorem Cast.setReel_tiles (c : Cast) (r : Nat) (v : Reel) : (c.setReel r v).tiles = c.tiles := rfl
@[simp] theorem Cast.setReel_clk (c : Cast) (r : Nat) (v : Reel) : (c.setReel r v).clk = c.clk := rfl
@[simp] theorem Cast.setReel_digest (c : Cast) (r : Nat) (v : Reel) : (c.setReel r v).digest = c.digest := rfl
@[simp] theorem Cast.setReel_steps (c : Cast) (r : Nat) (v : Reel) : (c.setReel r v).steps = c.steps := rfl
@[simp] theorem Cast.setReel_deferred (c : Cast) (r : Nat) (v : Reel) : (c.setReel r v).deferred = c.deferred := rfl
@[simp] theorem Cast.setReel_lease (c : Cast) (r : Nat) (v : Reel) : (c.setReel r v).lease = c.lease := rfl
@[simp] theorem Cast.setReel_leased (c : Cast) (r : Nat) (v : Reel) : (c.setReel r v).leased = c.leased := rfl
@[simp] theorem Cast.setReel_wdog (c : Cast) (r : Nat) (v : Reel) : (c.setReel r v).wdog = c.wdog := rfl
@[simp] theorem Cast.setReel_displaced (c : Cast) (r : Nat) (v : Reel) : (c.setReel r v).displaced = c.displaced := rfl
@[simp] theorem Cast.setReel_nextOp (c : Cast) (r : Nat) (v : Reel) : (c.setReel r v).nextOp = c.nextOp := rfl
@[simp] theorem Cast.setReel_wload (c : Cast) (r : Nat) (v : Reel) : (c.setReel r v).wload = c.wload := rfl
@[simp] theorem Cast.setReel_active (c : Cast) (r : Nat) (v : Reel) : (c.setReel r v).active = c.active := rfl
@[simp] theorem Cast.setReel_failCode (c : Cast) (r : Nat) (v : Reel) : (c.setReel r v).failCode = c.failCode := rfl
@[simp] theorem Cast.setReel_withdrawn (c : Cast) (r : Nat) (v : Reel) : (c.setReel r v).withdrawn = c.withdrawn := rfl
@[simp] theorem Cast.setReel_bad (c : Cast) (r : Nat) (v : Reel) : (c.setReel r v).bad = c.bad := rfl

/-! ### The machine -/

@[simp] theorem State.setPlot_casts (s : State) (p : Nat) (v : Plot) : (s.setPlot p v).casts = s.casts := rfl
@[simp] theorem State.setPlot_nextCast (s : State) (p : Nat) (v : Plot) : (s.setPlot p v).nextCast = s.nextCast := rfl
@[simp] theorem State.setPlot_scenes (s : State) (p : Nat) (v : Plot) : (s.setPlot p v).scenes = s.scenes := rfl
@[simp] theorem State.setPlot_nextScene (s : State) (p : Nat) (v : Plot) : (s.setPlot p v).nextScene = s.nextScene := rfl
@[simp] theorem State.setPlot_allots (s : State) (p : Nat) (v : Plot) : (s.setPlot p v).allots = s.allots := rfl
@[simp] theorem State.setPlot_mem (s : State) (p : Nat) (v : Plot) : (s.setPlot p v).mem = s.mem := rfl
@[simp] theorem State.setPlot_cmn (s : State) (p : Nat) (v : Plot) : (s.setPlot p v).cmn = s.cmn := rfl
@[simp] theorem State.setPlot_peers (s : State) (p : Nat) (v : Plot) : (s.setPlot p v).peers = s.peers := rfl
@[simp] theorem State.setPlot_frames (s : State) (p : Nat) (v : Plot) : (s.setPlot p v).frames = s.frames := rfl
@[simp] theorem State.setPlot_keys (s : State) (p : Nat) (v : Plot) : (s.setPlot p v).keys = s.keys := rfl
@[simp] theorem State.setPlot_nextKey (s : State) (p : Nat) (v : Plot) : (s.setPlot p v).nextKey = s.nextKey := rfl
@[simp] theorem State.setPlot_errLines (s : State) (p : Nat) (v : Plot) : (s.setPlot p v).errLines = s.errLines := rfl
@[simp] theorem State.setPlot_lostLines (s : State) (p : Nat) (v : Plot) : (s.setPlot p v).lostLines = s.lostLines := rfl
@[simp] theorem State.setPlot_slines (s : State) (p : Nat) (v : Plot) : (s.setPlot p v).slines = s.slines := rfl
@[simp] theorem State.setPlot_mtlb (s : State) (p : Nat) (v : Plot) : (s.setPlot p v).mtlb = s.mtlb := rfl
@[simp] theorem State.setPlot_owns (s : State) (p : Nat) (v : Plot) : (s.setPlot p v).owns = s.owns := rfl
@[simp] theorem State.setPlot_nextOwn (s : State) (p : Nat) (v : Plot) : (s.setPlot p v).nextOwn = s.nextOwn := rfl
@[simp] theorem State.setPlot_nextHeld (s : State) (p : Nat) (v : Plot) : (s.setPlot p v).nextHeld = s.nextHeld := rfl
@[simp] theorem State.setPlot_win (s : State) (p : Nat) (v : Plot) : (s.setPlot p v).win = s.win := rfl
@[simp] theorem State.setPlot_wpmask (s : State) (p : Nat) (v : Plot) : (s.setPlot p v).wpmask = s.wpmask := rfl
@[simp] theorem State.setPlot_devnum (s : State) (p : Nat) (v : Plot) : (s.setPlot p v).devnum = s.devnum := rfl
@[simp] theorem State.setPlot_faultQ (s : State) (p : Nat) (v : Plot) : (s.setPlot p v).faultQ = s.faultQ := rfl
@[simp] theorem State.setPlot_faultSeq (s : State) (p : Nat) (v : Plot) : (s.setPlot p v).faultSeq = s.faultSeq := rfl
@[simp] theorem State.setPlot_resolv (s : State) (p : Nat) (v : Plot) : (s.setPlot p v).resolv = s.resolv := rfl
@[simp] theorem State.setPlot_clks (s : State) (p : Nat) (v : Plot) : (s.setPlot p v).clks = s.clks := rfl
@[simp] theorem State.setPlot_dieClk (s : State) (p : Nat) (v : Plot) : (s.setPlot p v).dieClk = s.dieClk := rfl
@[simp] theorem State.setPlot_nextReq (s : State) (p : Nat) (v : Plot) : (s.setPlot p v).nextReq = s.nextReq := rfl
@[simp] theorem State.setPlot_ports (s : State) (p : Nat) (v : Plot) : (s.setPlot p v).ports = s.ports := rfl
@[simp] theorem State.setPlot_spareLanes (s : State) (p : Nat) (v : Plot) : (s.setPlot p v).spareLanes = s.spareLanes := rfl
@[simp] theorem State.setPlot_routes (s : State) (p : Nat) (v : Plot) : (s.setPlot p v).routes = s.routes := rfl
@[simp] theorem State.setPlot_qps (s : State) (p : Nat) (v : Plot) : (s.setPlot p v).qps = s.qps := rfl
@[simp] theorem State.setPlot_ethOpen (s : State) (p : Nat) (v : Plot) : (s.setPlot p v).ethOpen = s.ethOpen := rfl
@[simp] theorem State.setPlot_pfc (s : State) (p : Nat) (v : Plot) : (s.setPlot p v).pfc = s.pfc := rfl
@[simp] theorem State.setPlot_ethQ (s : State) (p : Nat) (v : Plot) : (s.setPlot p v).ethQ = s.ethQ := rfl
@[simp] theorem State.setPlot_rx (s : State) (p : Nat) (v : Plot) : (s.setPlot p v).rx = s.rx := rfl
@[simp] theorem State.setPlot_arb (s : State) (p : Nat) (v : Plot) : (s.setPlot p v).arb = s.arb := rfl
@[simp] theorem State.setPlot_pend (s : State) (p : Nat) (v : Plot) : (s.setPlot p v).pend = s.pend := rfl
@[simp] theorem State.setPlot_sent (s : State) (p : Nat) (v : Plot) : (s.setPlot p v).sent = s.sent := rfl
@[simp] theorem State.setPlot_mg (s : State) (p : Nat) (v : Plot) : (s.setPlot p v).mg = s.mg := rfl
@[simp] theorem State.setPlot_agenda (s : State) (p : Nat) (v : Plot) : (s.setPlot p v).agenda = s.agenda := rfl
@[simp] theorem State.setPlot_oracle (s : State) (p : Nat) (v : Plot) : (s.setPlot p v).oracle = s.oracle := rfl
@[simp] theorem State.setPlot_cur (s : State) (p : Nat) (v : Plot) : (s.setPlot p v).cur = s.cur := rfl
@[simp] theorem State.setPlot_freeCtr (s : State) (p : Nat) (v : Plot) : (s.setPlot p v).freeCtr = s.freeCtr := rfl
@[simp] theorem State.setPlot_lag (s : State) (p : Nat) (v : Plot) : (s.setPlot p v).lag = s.lag := rfl
@[simp] theorem State.onPlot_casts (s : State) (p : Nat) (f : Plot → Plot) : (s.onPlot p f).casts = s.casts := rfl
@[simp] theorem State.onPlot_nextCast (s : State) (p : Nat) (f : Plot → Plot) : (s.onPlot p f).nextCast = s.nextCast := rfl
@[simp] theorem State.onPlot_scenes (s : State) (p : Nat) (f : Plot → Plot) : (s.onPlot p f).scenes = s.scenes := rfl
@[simp] theorem State.onPlot_nextScene (s : State) (p : Nat) (f : Plot → Plot) : (s.onPlot p f).nextScene = s.nextScene := rfl
@[simp] theorem State.onPlot_allots (s : State) (p : Nat) (f : Plot → Plot) : (s.onPlot p f).allots = s.allots := rfl
@[simp] theorem State.onPlot_mem (s : State) (p : Nat) (f : Plot → Plot) : (s.onPlot p f).mem = s.mem := rfl
@[simp] theorem State.onPlot_cmn (s : State) (p : Nat) (f : Plot → Plot) : (s.onPlot p f).cmn = s.cmn := rfl
@[simp] theorem State.onPlot_peers (s : State) (p : Nat) (f : Plot → Plot) : (s.onPlot p f).peers = s.peers := rfl
@[simp] theorem State.onPlot_frames (s : State) (p : Nat) (f : Plot → Plot) : (s.onPlot p f).frames = s.frames := rfl
@[simp] theorem State.onPlot_keys (s : State) (p : Nat) (f : Plot → Plot) : (s.onPlot p f).keys = s.keys := rfl
@[simp] theorem State.onPlot_nextKey (s : State) (p : Nat) (f : Plot → Plot) : (s.onPlot p f).nextKey = s.nextKey := rfl
@[simp] theorem State.onPlot_errLines (s : State) (p : Nat) (f : Plot → Plot) : (s.onPlot p f).errLines = s.errLines := rfl
@[simp] theorem State.onPlot_lostLines (s : State) (p : Nat) (f : Plot → Plot) : (s.onPlot p f).lostLines = s.lostLines := rfl
@[simp] theorem State.onPlot_slines (s : State) (p : Nat) (f : Plot → Plot) : (s.onPlot p f).slines = s.slines := rfl
@[simp] theorem State.onPlot_mtlb (s : State) (p : Nat) (f : Plot → Plot) : (s.onPlot p f).mtlb = s.mtlb := rfl
@[simp] theorem State.onPlot_owns (s : State) (p : Nat) (f : Plot → Plot) : (s.onPlot p f).owns = s.owns := rfl
@[simp] theorem State.onPlot_nextOwn (s : State) (p : Nat) (f : Plot → Plot) : (s.onPlot p f).nextOwn = s.nextOwn := rfl
@[simp] theorem State.onPlot_nextHeld (s : State) (p : Nat) (f : Plot → Plot) : (s.onPlot p f).nextHeld = s.nextHeld := rfl
@[simp] theorem State.onPlot_win (s : State) (p : Nat) (f : Plot → Plot) : (s.onPlot p f).win = s.win := rfl
@[simp] theorem State.onPlot_wpmask (s : State) (p : Nat) (f : Plot → Plot) : (s.onPlot p f).wpmask = s.wpmask := rfl
@[simp] theorem State.onPlot_devnum (s : State) (p : Nat) (f : Plot → Plot) : (s.onPlot p f).devnum = s.devnum := rfl
@[simp] theorem State.onPlot_faultQ (s : State) (p : Nat) (f : Plot → Plot) : (s.onPlot p f).faultQ = s.faultQ := rfl
@[simp] theorem State.onPlot_faultSeq (s : State) (p : Nat) (f : Plot → Plot) : (s.onPlot p f).faultSeq = s.faultSeq := rfl
@[simp] theorem State.onPlot_resolv (s : State) (p : Nat) (f : Plot → Plot) : (s.onPlot p f).resolv = s.resolv := rfl
@[simp] theorem State.onPlot_clks (s : State) (p : Nat) (f : Plot → Plot) : (s.onPlot p f).clks = s.clks := rfl
@[simp] theorem State.onPlot_dieClk (s : State) (p : Nat) (f : Plot → Plot) : (s.onPlot p f).dieClk = s.dieClk := rfl
@[simp] theorem State.onPlot_nextReq (s : State) (p : Nat) (f : Plot → Plot) : (s.onPlot p f).nextReq = s.nextReq := rfl
@[simp] theorem State.onPlot_ports (s : State) (p : Nat) (f : Plot → Plot) : (s.onPlot p f).ports = s.ports := rfl
@[simp] theorem State.onPlot_spareLanes (s : State) (p : Nat) (f : Plot → Plot) : (s.onPlot p f).spareLanes = s.spareLanes := rfl
@[simp] theorem State.onPlot_routes (s : State) (p : Nat) (f : Plot → Plot) : (s.onPlot p f).routes = s.routes := rfl
@[simp] theorem State.onPlot_qps (s : State) (p : Nat) (f : Plot → Plot) : (s.onPlot p f).qps = s.qps := rfl
@[simp] theorem State.onPlot_ethOpen (s : State) (p : Nat) (f : Plot → Plot) : (s.onPlot p f).ethOpen = s.ethOpen := rfl
@[simp] theorem State.onPlot_pfc (s : State) (p : Nat) (f : Plot → Plot) : (s.onPlot p f).pfc = s.pfc := rfl
@[simp] theorem State.onPlot_ethQ (s : State) (p : Nat) (f : Plot → Plot) : (s.onPlot p f).ethQ = s.ethQ := rfl
@[simp] theorem State.onPlot_rx (s : State) (p : Nat) (f : Plot → Plot) : (s.onPlot p f).rx = s.rx := rfl
@[simp] theorem State.onPlot_arb (s : State) (p : Nat) (f : Plot → Plot) : (s.onPlot p f).arb = s.arb := rfl
@[simp] theorem State.onPlot_pend (s : State) (p : Nat) (f : Plot → Plot) : (s.onPlot p f).pend = s.pend := rfl
@[simp] theorem State.onPlot_sent (s : State) (p : Nat) (f : Plot → Plot) : (s.onPlot p f).sent = s.sent := rfl
@[simp] theorem State.onPlot_mg (s : State) (p : Nat) (f : Plot → Plot) : (s.onPlot p f).mg = s.mg := rfl
@[simp] theorem State.onPlot_agenda (s : State) (p : Nat) (f : Plot → Plot) : (s.onPlot p f).agenda = s.agenda := rfl
@[simp] theorem State.onPlot_oracle (s : State) (p : Nat) (f : Plot → Plot) : (s.onPlot p f).oracle = s.oracle := rfl
@[simp] theorem State.onPlot_cur (s : State) (p : Nat) (f : Plot → Plot) : (s.onPlot p f).cur = s.cur := rfl
@[simp] theorem State.onPlot_freeCtr (s : State) (p : Nat) (f : Plot → Plot) : (s.onPlot p f).freeCtr = s.freeCtr := rfl
@[simp] theorem State.onPlot_lag (s : State) (p : Nat) (f : Plot → Plot) : (s.onPlot p f).lag = s.lag := rfl
@[simp] theorem State.setCast_nextCast (s : State) (n : Nat) (v : Cast) : (s.setCast n v).nextCast = s.nextCast := rfl
@[simp] theorem State.setCast_plots (s : State) (n : Nat) (v : Cast) : (s.setCast n v).plots = s.plots := rfl
@[simp] theorem State.setCast_scenes (s : State) (n : Nat) (v : Cast) : (s.setCast n v).scenes = s.scenes := rfl
@[simp] theorem State.setCast_nextScene (s : State) (n : Nat) (v : Cast) : (s.setCast n v).nextScene = s.nextScene := rfl
@[simp] theorem State.setCast_allots (s : State) (n : Nat) (v : Cast) : (s.setCast n v).allots = s.allots := rfl
@[simp] theorem State.setCast_mem (s : State) (n : Nat) (v : Cast) : (s.setCast n v).mem = s.mem := rfl
@[simp] theorem State.setCast_cmn (s : State) (n : Nat) (v : Cast) : (s.setCast n v).cmn = s.cmn := rfl
@[simp] theorem State.setCast_peers (s : State) (n : Nat) (v : Cast) : (s.setCast n v).peers = s.peers := rfl
@[simp] theorem State.setCast_frames (s : State) (n : Nat) (v : Cast) : (s.setCast n v).frames = s.frames := rfl
@[simp] theorem State.setCast_keys (s : State) (n : Nat) (v : Cast) : (s.setCast n v).keys = s.keys := rfl
@[simp] theorem State.setCast_nextKey (s : State) (n : Nat) (v : Cast) : (s.setCast n v).nextKey = s.nextKey := rfl
@[simp] theorem State.setCast_errLines (s : State) (n : Nat) (v : Cast) : (s.setCast n v).errLines = s.errLines := rfl
@[simp] theorem State.setCast_lostLines (s : State) (n : Nat) (v : Cast) : (s.setCast n v).lostLines = s.lostLines := rfl
@[simp] theorem State.setCast_slines (s : State) (n : Nat) (v : Cast) : (s.setCast n v).slines = s.slines := rfl
@[simp] theorem State.setCast_mtlb (s : State) (n : Nat) (v : Cast) : (s.setCast n v).mtlb = s.mtlb := rfl
@[simp] theorem State.setCast_owns (s : State) (n : Nat) (v : Cast) : (s.setCast n v).owns = s.owns := rfl
@[simp] theorem State.setCast_nextOwn (s : State) (n : Nat) (v : Cast) : (s.setCast n v).nextOwn = s.nextOwn := rfl
@[simp] theorem State.setCast_nextHeld (s : State) (n : Nat) (v : Cast) : (s.setCast n v).nextHeld = s.nextHeld := rfl
@[simp] theorem State.setCast_win (s : State) (n : Nat) (v : Cast) : (s.setCast n v).win = s.win := rfl
@[simp] theorem State.setCast_wpmask (s : State) (n : Nat) (v : Cast) : (s.setCast n v).wpmask = s.wpmask := rfl
@[simp] theorem State.setCast_devnum (s : State) (n : Nat) (v : Cast) : (s.setCast n v).devnum = s.devnum := rfl
@[simp] theorem State.setCast_faultQ (s : State) (n : Nat) (v : Cast) : (s.setCast n v).faultQ = s.faultQ := rfl
@[simp] theorem State.setCast_faultSeq (s : State) (n : Nat) (v : Cast) : (s.setCast n v).faultSeq = s.faultSeq := rfl
@[simp] theorem State.setCast_resolv (s : State) (n : Nat) (v : Cast) : (s.setCast n v).resolv = s.resolv := rfl
@[simp] theorem State.setCast_clks (s : State) (n : Nat) (v : Cast) : (s.setCast n v).clks = s.clks := rfl
@[simp] theorem State.setCast_dieClk (s : State) (n : Nat) (v : Cast) : (s.setCast n v).dieClk = s.dieClk := rfl
@[simp] theorem State.setCast_nextReq (s : State) (n : Nat) (v : Cast) : (s.setCast n v).nextReq = s.nextReq := rfl
@[simp] theorem State.setCast_ports (s : State) (n : Nat) (v : Cast) : (s.setCast n v).ports = s.ports := rfl
@[simp] theorem State.setCast_spareLanes (s : State) (n : Nat) (v : Cast) : (s.setCast n v).spareLanes = s.spareLanes := rfl
@[simp] theorem State.setCast_routes (s : State) (n : Nat) (v : Cast) : (s.setCast n v).routes = s.routes := rfl
@[simp] theorem State.setCast_qps (s : State) (n : Nat) (v : Cast) : (s.setCast n v).qps = s.qps := rfl
@[simp] theorem State.setCast_ethOpen (s : State) (n : Nat) (v : Cast) : (s.setCast n v).ethOpen = s.ethOpen := rfl
@[simp] theorem State.setCast_pfc (s : State) (n : Nat) (v : Cast) : (s.setCast n v).pfc = s.pfc := rfl
@[simp] theorem State.setCast_ethQ (s : State) (n : Nat) (v : Cast) : (s.setCast n v).ethQ = s.ethQ := rfl
@[simp] theorem State.setCast_rx (s : State) (n : Nat) (v : Cast) : (s.setCast n v).rx = s.rx := rfl
@[simp] theorem State.setCast_arb (s : State) (n : Nat) (v : Cast) : (s.setCast n v).arb = s.arb := rfl
@[simp] theorem State.setCast_pend (s : State) (n : Nat) (v : Cast) : (s.setCast n v).pend = s.pend := rfl
@[simp] theorem State.setCast_sent (s : State) (n : Nat) (v : Cast) : (s.setCast n v).sent = s.sent := rfl
@[simp] theorem State.setCast_mg (s : State) (n : Nat) (v : Cast) : (s.setCast n v).mg = s.mg := rfl
@[simp] theorem State.setCast_agenda (s : State) (n : Nat) (v : Cast) : (s.setCast n v).agenda = s.agenda := rfl
@[simp] theorem State.setCast_oracle (s : State) (n : Nat) (v : Cast) : (s.setCast n v).oracle = s.oracle := rfl
@[simp] theorem State.setCast_cur (s : State) (n : Nat) (v : Cast) : (s.setCast n v).cur = s.cur := rfl
@[simp] theorem State.setCast_freeCtr (s : State) (n : Nat) (v : Cast) : (s.setCast n v).freeCtr = s.freeCtr := rfl
@[simp] theorem State.setCast_lag (s : State) (n : Nat) (v : Cast) : (s.setCast n v).lag = s.lag := rfl
@[simp] theorem State.onCast_nextCast (s : State) (n : Nat) (f : Cast → Cast) : (s.onCast n f).nextCast = s.nextCast :=
  by unfold State.onCast; split <;> rfl
@[simp] theorem State.onCast_plots (s : State) (n : Nat) (f : Cast → Cast) : (s.onCast n f).plots = s.plots :=
  by unfold State.onCast; split <;> rfl
@[simp] theorem State.onCast_scenes (s : State) (n : Nat) (f : Cast → Cast) : (s.onCast n f).scenes = s.scenes :=
  by unfold State.onCast; split <;> rfl
@[simp] theorem State.onCast_nextScene (s : State) (n : Nat) (f : Cast → Cast) : (s.onCast n f).nextScene = s.nextScene :=
  by unfold State.onCast; split <;> rfl
@[simp] theorem State.onCast_allots (s : State) (n : Nat) (f : Cast → Cast) : (s.onCast n f).allots = s.allots :=
  by unfold State.onCast; split <;> rfl
@[simp] theorem State.onCast_mem (s : State) (n : Nat) (f : Cast → Cast) : (s.onCast n f).mem = s.mem :=
  by unfold State.onCast; split <;> rfl
@[simp] theorem State.onCast_cmn (s : State) (n : Nat) (f : Cast → Cast) : (s.onCast n f).cmn = s.cmn :=
  by unfold State.onCast; split <;> rfl
@[simp] theorem State.onCast_peers (s : State) (n : Nat) (f : Cast → Cast) : (s.onCast n f).peers = s.peers :=
  by unfold State.onCast; split <;> rfl
@[simp] theorem State.onCast_frames (s : State) (n : Nat) (f : Cast → Cast) : (s.onCast n f).frames = s.frames :=
  by unfold State.onCast; split <;> rfl
@[simp] theorem State.onCast_keys (s : State) (n : Nat) (f : Cast → Cast) : (s.onCast n f).keys = s.keys :=
  by unfold State.onCast; split <;> rfl
@[simp] theorem State.onCast_nextKey (s : State) (n : Nat) (f : Cast → Cast) : (s.onCast n f).nextKey = s.nextKey :=
  by unfold State.onCast; split <;> rfl
@[simp] theorem State.onCast_errLines (s : State) (n : Nat) (f : Cast → Cast) : (s.onCast n f).errLines = s.errLines :=
  by unfold State.onCast; split <;> rfl
@[simp] theorem State.onCast_lostLines (s : State) (n : Nat) (f : Cast → Cast) : (s.onCast n f).lostLines = s.lostLines :=
  by unfold State.onCast; split <;> rfl
@[simp] theorem State.onCast_slines (s : State) (n : Nat) (f : Cast → Cast) : (s.onCast n f).slines = s.slines :=
  by unfold State.onCast; split <;> rfl
@[simp] theorem State.onCast_mtlb (s : State) (n : Nat) (f : Cast → Cast) : (s.onCast n f).mtlb = s.mtlb :=
  by unfold State.onCast; split <;> rfl
@[simp] theorem State.onCast_owns (s : State) (n : Nat) (f : Cast → Cast) : (s.onCast n f).owns = s.owns :=
  by unfold State.onCast; split <;> rfl
@[simp] theorem State.onCast_nextOwn (s : State) (n : Nat) (f : Cast → Cast) : (s.onCast n f).nextOwn = s.nextOwn :=
  by unfold State.onCast; split <;> rfl
@[simp] theorem State.onCast_nextHeld (s : State) (n : Nat) (f : Cast → Cast) : (s.onCast n f).nextHeld = s.nextHeld :=
  by unfold State.onCast; split <;> rfl
@[simp] theorem State.onCast_win (s : State) (n : Nat) (f : Cast → Cast) : (s.onCast n f).win = s.win :=
  by unfold State.onCast; split <;> rfl
@[simp] theorem State.onCast_wpmask (s : State) (n : Nat) (f : Cast → Cast) : (s.onCast n f).wpmask = s.wpmask :=
  by unfold State.onCast; split <;> rfl
@[simp] theorem State.onCast_devnum (s : State) (n : Nat) (f : Cast → Cast) : (s.onCast n f).devnum = s.devnum :=
  by unfold State.onCast; split <;> rfl
@[simp] theorem State.onCast_faultQ (s : State) (n : Nat) (f : Cast → Cast) : (s.onCast n f).faultQ = s.faultQ :=
  by unfold State.onCast; split <;> rfl
@[simp] theorem State.onCast_faultSeq (s : State) (n : Nat) (f : Cast → Cast) : (s.onCast n f).faultSeq = s.faultSeq :=
  by unfold State.onCast; split <;> rfl
@[simp] theorem State.onCast_resolv (s : State) (n : Nat) (f : Cast → Cast) : (s.onCast n f).resolv = s.resolv :=
  by unfold State.onCast; split <;> rfl
@[simp] theorem State.onCast_clks (s : State) (n : Nat) (f : Cast → Cast) : (s.onCast n f).clks = s.clks :=
  by unfold State.onCast; split <;> rfl
@[simp] theorem State.onCast_dieClk (s : State) (n : Nat) (f : Cast → Cast) : (s.onCast n f).dieClk = s.dieClk :=
  by unfold State.onCast; split <;> rfl
@[simp] theorem State.onCast_nextReq (s : State) (n : Nat) (f : Cast → Cast) : (s.onCast n f).nextReq = s.nextReq :=
  by unfold State.onCast; split <;> rfl
@[simp] theorem State.onCast_ports (s : State) (n : Nat) (f : Cast → Cast) : (s.onCast n f).ports = s.ports :=
  by unfold State.onCast; split <;> rfl
@[simp] theorem State.onCast_spareLanes (s : State) (n : Nat) (f : Cast → Cast) : (s.onCast n f).spareLanes = s.spareLanes :=
  by unfold State.onCast; split <;> rfl
@[simp] theorem State.onCast_routes (s : State) (n : Nat) (f : Cast → Cast) : (s.onCast n f).routes = s.routes :=
  by unfold State.onCast; split <;> rfl
@[simp] theorem State.onCast_qps (s : State) (n : Nat) (f : Cast → Cast) : (s.onCast n f).qps = s.qps :=
  by unfold State.onCast; split <;> rfl
@[simp] theorem State.onCast_ethOpen (s : State) (n : Nat) (f : Cast → Cast) : (s.onCast n f).ethOpen = s.ethOpen :=
  by unfold State.onCast; split <;> rfl
@[simp] theorem State.onCast_pfc (s : State) (n : Nat) (f : Cast → Cast) : (s.onCast n f).pfc = s.pfc :=
  by unfold State.onCast; split <;> rfl
@[simp] theorem State.onCast_ethQ (s : State) (n : Nat) (f : Cast → Cast) : (s.onCast n f).ethQ = s.ethQ :=
  by unfold State.onCast; split <;> rfl
@[simp] theorem State.onCast_rx (s : State) (n : Nat) (f : Cast → Cast) : (s.onCast n f).rx = s.rx := by unfold State.onCast; split <;> rfl
@[simp] theorem State.onCast_arb (s : State) (n : Nat) (f : Cast → Cast) : (s.onCast n f).arb = s.arb :=
  by unfold State.onCast; split <;> rfl
@[simp] theorem State.onCast_pend (s : State) (n : Nat) (f : Cast → Cast) : (s.onCast n f).pend = s.pend :=
  by unfold State.onCast; split <;> rfl
@[simp] theorem State.onCast_sent (s : State) (n : Nat) (f : Cast → Cast) : (s.onCast n f).sent = s.sent :=
  by unfold State.onCast; split <;> rfl
@[simp] theorem State.onCast_mg (s : State) (n : Nat) (f : Cast → Cast) : (s.onCast n f).mg = s.mg := by unfold State.onCast; split <;> rfl
@[simp] theorem State.onCast_agenda (s : State) (n : Nat) (f : Cast → Cast) : (s.onCast n f).agenda = s.agenda :=
  by unfold State.onCast; split <;> rfl
@[simp] theorem State.onCast_oracle (s : State) (n : Nat) (f : Cast → Cast) : (s.onCast n f).oracle = s.oracle :=
  by unfold State.onCast; split <;> rfl
@[simp] theorem State.onCast_cur (s : State) (n : Nat) (f : Cast → Cast) : (s.onCast n f).cur = s.cur :=
  by unfold State.onCast; split <;> rfl
@[simp] theorem State.onCast_freeCtr (s : State) (n : Nat) (f : Cast → Cast) : (s.onCast n f).freeCtr = s.freeCtr :=
  by unfold State.onCast; split <;> rfl
@[simp] theorem State.onCast_lag (s : State) (n : Nat) (f : Cast → Cast) : (s.onCast n f).lag = s.lag :=
  by unfold State.onCast; split <;> rfl
@[simp] theorem State.onAllot_casts (s : State) (n : Nat) (f : Allot → Allot) : (s.onAllot n f).casts = s.casts :=
  by unfold State.onAllot; split <;> rfl
@[simp] theorem State.onAllot_nextCast (s : State) (n : Nat) (f : Allot → Allot) : (s.onAllot n f).nextCast = s.nextCast :=
  by unfold State.onAllot; split <;> rfl
@[simp] theorem State.onAllot_plots (s : State) (n : Nat) (f : Allot → Allot) : (s.onAllot n f).plots = s.plots :=
  by unfold State.onAllot; split <;> rfl
@[simp] theorem State.onAllot_scenes (s : State) (n : Nat) (f : Allot → Allot) : (s.onAllot n f).scenes = s.scenes :=
  by unfold State.onAllot; split <;> rfl
@[simp] theorem State.onAllot_nextScene (s : State) (n : Nat) (f : Allot → Allot) : (s.onAllot n f).nextScene = s.nextScene :=
  by unfold State.onAllot; split <;> rfl
@[simp] theorem State.onAllot_mem (s : State) (n : Nat) (f : Allot → Allot) : (s.onAllot n f).mem = s.mem :=
  by unfold State.onAllot; split <;> rfl
@[simp] theorem State.onAllot_cmn (s : State) (n : Nat) (f : Allot → Allot) : (s.onAllot n f).cmn = s.cmn :=
  by unfold State.onAllot; split <;> rfl
@[simp] theorem State.onAllot_peers (s : State) (n : Nat) (f : Allot → Allot) : (s.onAllot n f).peers = s.peers :=
  by unfold State.onAllot; split <;> rfl
@[simp] theorem State.onAllot_frames (s : State) (n : Nat) (f : Allot → Allot) : (s.onAllot n f).frames = s.frames :=
  by unfold State.onAllot; split <;> rfl
@[simp] theorem State.onAllot_keys (s : State) (n : Nat) (f : Allot → Allot) : (s.onAllot n f).keys = s.keys :=
  by unfold State.onAllot; split <;> rfl
@[simp] theorem State.onAllot_nextKey (s : State) (n : Nat) (f : Allot → Allot) : (s.onAllot n f).nextKey = s.nextKey :=
  by unfold State.onAllot; split <;> rfl
@[simp] theorem State.onAllot_errLines (s : State) (n : Nat) (f : Allot → Allot) : (s.onAllot n f).errLines = s.errLines :=
  by unfold State.onAllot; split <;> rfl
@[simp] theorem State.onAllot_lostLines (s : State) (n : Nat) (f : Allot → Allot) : (s.onAllot n f).lostLines = s.lostLines :=
  by unfold State.onAllot; split <;> rfl
@[simp] theorem State.onAllot_slines (s : State) (n : Nat) (f : Allot → Allot) : (s.onAllot n f).slines = s.slines :=
  by unfold State.onAllot; split <;> rfl
@[simp] theorem State.onAllot_mtlb (s : State) (n : Nat) (f : Allot → Allot) : (s.onAllot n f).mtlb = s.mtlb :=
  by unfold State.onAllot; split <;> rfl
@[simp] theorem State.onAllot_owns (s : State) (n : Nat) (f : Allot → Allot) : (s.onAllot n f).owns = s.owns :=
  by unfold State.onAllot; split <;> rfl
@[simp] theorem State.onAllot_nextOwn (s : State) (n : Nat) (f : Allot → Allot) : (s.onAllot n f).nextOwn = s.nextOwn :=
  by unfold State.onAllot; split <;> rfl
@[simp] theorem State.onAllot_nextHeld (s : State) (n : Nat) (f : Allot → Allot) : (s.onAllot n f).nextHeld = s.nextHeld :=
  by unfold State.onAllot; split <;> rfl
@[simp] theorem State.onAllot_win (s : State) (n : Nat) (f : Allot → Allot) : (s.onAllot n f).win = s.win :=
  by unfold State.onAllot; split <;> rfl
@[simp] theorem State.onAllot_wpmask (s : State) (n : Nat) (f : Allot → Allot) : (s.onAllot n f).wpmask = s.wpmask :=
  by unfold State.onAllot; split <;> rfl
@[simp] theorem State.onAllot_devnum (s : State) (n : Nat) (f : Allot → Allot) : (s.onAllot n f).devnum = s.devnum :=
  by unfold State.onAllot; split <;> rfl
@[simp] theorem State.onAllot_faultQ (s : State) (n : Nat) (f : Allot → Allot) : (s.onAllot n f).faultQ = s.faultQ :=
  by unfold State.onAllot; split <;> rfl
@[simp] theorem State.onAllot_faultSeq (s : State) (n : Nat) (f : Allot → Allot) : (s.onAllot n f).faultSeq = s.faultSeq :=
  by unfold State.onAllot; split <;> rfl
@[simp] theorem State.onAllot_resolv (s : State) (n : Nat) (f : Allot → Allot) : (s.onAllot n f).resolv = s.resolv :=
  by unfold State.onAllot; split <;> rfl
@[simp] theorem State.onAllot_clks (s : State) (n : Nat) (f : Allot → Allot) : (s.onAllot n f).clks = s.clks :=
  by unfold State.onAllot; split <;> rfl
@[simp] theorem State.onAllot_dieClk (s : State) (n : Nat) (f : Allot → Allot) : (s.onAllot n f).dieClk = s.dieClk :=
  by unfold State.onAllot; split <;> rfl
@[simp] theorem State.onAllot_nextReq (s : State) (n : Nat) (f : Allot → Allot) : (s.onAllot n f).nextReq = s.nextReq :=
  by unfold State.onAllot; split <;> rfl
@[simp] theorem State.onAllot_ports (s : State) (n : Nat) (f : Allot → Allot) : (s.onAllot n f).ports = s.ports :=
  by unfold State.onAllot; split <;> rfl
@[simp] theorem State.onAllot_spareLanes (s : State) (n : Nat) (f : Allot → Allot) : (s.onAllot n f).spareLanes = s.spareLanes :=
  by unfold State.onAllot; split <;> rfl
@[simp] theorem State.onAllot_routes (s : State) (n : Nat) (f : Allot → Allot) : (s.onAllot n f).routes = s.routes :=
  by unfold State.onAllot; split <;> rfl
@[simp] theorem State.onAllot_qps (s : State) (n : Nat) (f : Allot → Allot) : (s.onAllot n f).qps = s.qps :=
  by unfold State.onAllot; split <;> rfl
@[simp] theorem State.onAllot_ethOpen (s : State) (n : Nat) (f : Allot → Allot) : (s.onAllot n f).ethOpen = s.ethOpen :=
  by unfold State.onAllot; split <;> rfl
@[simp] theorem State.onAllot_pfc (s : State) (n : Nat) (f : Allot → Allot) : (s.onAllot n f).pfc = s.pfc :=
  by unfold State.onAllot; split <;> rfl
@[simp] theorem State.onAllot_ethQ (s : State) (n : Nat) (f : Allot → Allot) : (s.onAllot n f).ethQ = s.ethQ :=
  by unfold State.onAllot; split <;> rfl
@[simp] theorem State.onAllot_rx (s : State) (n : Nat) (f : Allot → Allot) : (s.onAllot n f).rx = s.rx :=
  by unfold State.onAllot; split <;> rfl
@[simp] theorem State.onAllot_arb (s : State) (n : Nat) (f : Allot → Allot) : (s.onAllot n f).arb = s.arb :=
  by unfold State.onAllot; split <;> rfl
@[simp] theorem State.onAllot_pend (s : State) (n : Nat) (f : Allot → Allot) : (s.onAllot n f).pend = s.pend :=
  by unfold State.onAllot; split <;> rfl
@[simp] theorem State.onAllot_sent (s : State) (n : Nat) (f : Allot → Allot) : (s.onAllot n f).sent = s.sent :=
  by unfold State.onAllot; split <;> rfl
@[simp] theorem State.onAllot_mg (s : State) (n : Nat) (f : Allot → Allot) : (s.onAllot n f).mg = s.mg :=
  by unfold State.onAllot; split <;> rfl
@[simp] theorem State.onAllot_agenda (s : State) (n : Nat) (f : Allot → Allot) : (s.onAllot n f).agenda = s.agenda :=
  by unfold State.onAllot; split <;> rfl
@[simp] theorem State.onAllot_oracle (s : State) (n : Nat) (f : Allot → Allot) : (s.onAllot n f).oracle = s.oracle :=
  by unfold State.onAllot; split <;> rfl
@[simp] theorem State.onAllot_cur (s : State) (n : Nat) (f : Allot → Allot) : (s.onAllot n f).cur = s.cur :=
  by unfold State.onAllot; split <;> rfl
@[simp] theorem State.onAllot_freeCtr (s : State) (n : Nat) (f : Allot → Allot) : (s.onAllot n f).freeCtr = s.freeCtr :=
  by unfold State.onAllot; split <;> rfl
@[simp] theorem State.onAllot_lag (s : State) (n : Nat) (f : Allot → Allot) : (s.onAllot n f).lag = s.lag :=
  by unfold State.onAllot; split <;> rfl
@[simp] theorem State.onScene_casts (s : State) (n : Nat) (f : Scene → Scene) : (s.onScene n f).casts = s.casts :=
  by unfold State.onScene; split <;> rfl
@[simp] theorem State.onScene_nextCast (s : State) (n : Nat) (f : Scene → Scene) : (s.onScene n f).nextCast = s.nextCast :=
  by unfold State.onScene; split <;> rfl
@[simp] theorem State.onScene_plots (s : State) (n : Nat) (f : Scene → Scene) : (s.onScene n f).plots = s.plots :=
  by unfold State.onScene; split <;> rfl
@[simp] theorem State.onScene_nextScene (s : State) (n : Nat) (f : Scene → Scene) : (s.onScene n f).nextScene = s.nextScene :=
  by unfold State.onScene; split <;> rfl
@[simp] theorem State.onScene_allots (s : State) (n : Nat) (f : Scene → Scene) : (s.onScene n f).allots = s.allots :=
  by unfold State.onScene; split <;> rfl
@[simp] theorem State.onScene_mem (s : State) (n : Nat) (f : Scene → Scene) : (s.onScene n f).mem = s.mem :=
  by unfold State.onScene; split <;> rfl
@[simp] theorem State.onScene_cmn (s : State) (n : Nat) (f : Scene → Scene) : (s.onScene n f).cmn = s.cmn :=
  by unfold State.onScene; split <;> rfl
@[simp] theorem State.onScene_peers (s : State) (n : Nat) (f : Scene → Scene) : (s.onScene n f).peers = s.peers :=
  by unfold State.onScene; split <;> rfl
@[simp] theorem State.onScene_frames (s : State) (n : Nat) (f : Scene → Scene) : (s.onScene n f).frames = s.frames :=
  by unfold State.onScene; split <;> rfl
@[simp] theorem State.onScene_keys (s : State) (n : Nat) (f : Scene → Scene) : (s.onScene n f).keys = s.keys :=
  by unfold State.onScene; split <;> rfl
@[simp] theorem State.onScene_nextKey (s : State) (n : Nat) (f : Scene → Scene) : (s.onScene n f).nextKey = s.nextKey :=
  by unfold State.onScene; split <;> rfl
@[simp] theorem State.onScene_errLines (s : State) (n : Nat) (f : Scene → Scene) : (s.onScene n f).errLines = s.errLines :=
  by unfold State.onScene; split <;> rfl
@[simp] theorem State.onScene_lostLines (s : State) (n : Nat) (f : Scene → Scene) : (s.onScene n f).lostLines = s.lostLines :=
  by unfold State.onScene; split <;> rfl
@[simp] theorem State.onScene_slines (s : State) (n : Nat) (f : Scene → Scene) : (s.onScene n f).slines = s.slines :=
  by unfold State.onScene; split <;> rfl
@[simp] theorem State.onScene_mtlb (s : State) (n : Nat) (f : Scene → Scene) : (s.onScene n f).mtlb = s.mtlb :=
  by unfold State.onScene; split <;> rfl
@[simp] theorem State.onScene_owns (s : State) (n : Nat) (f : Scene → Scene) : (s.onScene n f).owns = s.owns :=
  by unfold State.onScene; split <;> rfl
@[simp] theorem State.onScene_nextOwn (s : State) (n : Nat) (f : Scene → Scene) : (s.onScene n f).nextOwn = s.nextOwn :=
  by unfold State.onScene; split <;> rfl
@[simp] theorem State.onScene_nextHeld (s : State) (n : Nat) (f : Scene → Scene) : (s.onScene n f).nextHeld = s.nextHeld :=
  by unfold State.onScene; split <;> rfl
@[simp] theorem State.onScene_win (s : State) (n : Nat) (f : Scene → Scene) : (s.onScene n f).win = s.win :=
  by unfold State.onScene; split <;> rfl
@[simp] theorem State.onScene_wpmask (s : State) (n : Nat) (f : Scene → Scene) : (s.onScene n f).wpmask = s.wpmask :=
  by unfold State.onScene; split <;> rfl
@[simp] theorem State.onScene_devnum (s : State) (n : Nat) (f : Scene → Scene) : (s.onScene n f).devnum = s.devnum :=
  by unfold State.onScene; split <;> rfl
@[simp] theorem State.onScene_faultQ (s : State) (n : Nat) (f : Scene → Scene) : (s.onScene n f).faultQ = s.faultQ :=
  by unfold State.onScene; split <;> rfl
@[simp] theorem State.onScene_faultSeq (s : State) (n : Nat) (f : Scene → Scene) : (s.onScene n f).faultSeq = s.faultSeq :=
  by unfold State.onScene; split <;> rfl
@[simp] theorem State.onScene_resolv (s : State) (n : Nat) (f : Scene → Scene) : (s.onScene n f).resolv = s.resolv :=
  by unfold State.onScene; split <;> rfl
@[simp] theorem State.onScene_clks (s : State) (n : Nat) (f : Scene → Scene) : (s.onScene n f).clks = s.clks :=
  by unfold State.onScene; split <;> rfl
@[simp] theorem State.onScene_dieClk (s : State) (n : Nat) (f : Scene → Scene) : (s.onScene n f).dieClk = s.dieClk :=
  by unfold State.onScene; split <;> rfl
@[simp] theorem State.onScene_nextReq (s : State) (n : Nat) (f : Scene → Scene) : (s.onScene n f).nextReq = s.nextReq :=
  by unfold State.onScene; split <;> rfl
@[simp] theorem State.onScene_ports (s : State) (n : Nat) (f : Scene → Scene) : (s.onScene n f).ports = s.ports :=
  by unfold State.onScene; split <;> rfl
@[simp] theorem State.onScene_spareLanes (s : State) (n : Nat) (f : Scene → Scene) : (s.onScene n f).spareLanes = s.spareLanes :=
  by unfold State.onScene; split <;> rfl
@[simp] theorem State.onScene_routes (s : State) (n : Nat) (f : Scene → Scene) : (s.onScene n f).routes = s.routes :=
  by unfold State.onScene; split <;> rfl
@[simp] theorem State.onScene_qps (s : State) (n : Nat) (f : Scene → Scene) : (s.onScene n f).qps = s.qps :=
  by unfold State.onScene; split <;> rfl
@[simp] theorem State.onScene_ethOpen (s : State) (n : Nat) (f : Scene → Scene) : (s.onScene n f).ethOpen = s.ethOpen :=
  by unfold State.onScene; split <;> rfl
@[simp] theorem State.onScene_pfc (s : State) (n : Nat) (f : Scene → Scene) : (s.onScene n f).pfc = s.pfc :=
  by unfold State.onScene; split <;> rfl
@[simp] theorem State.onScene_ethQ (s : State) (n : Nat) (f : Scene → Scene) : (s.onScene n f).ethQ = s.ethQ :=
  by unfold State.onScene; split <;> rfl
@[simp] theorem State.onScene_rx (s : State) (n : Nat) (f : Scene → Scene) : (s.onScene n f).rx = s.rx :=
  by unfold State.onScene; split <;> rfl
@[simp] theorem State.onScene_arb (s : State) (n : Nat) (f : Scene → Scene) : (s.onScene n f).arb = s.arb :=
  by unfold State.onScene; split <;> rfl
@[simp] theorem State.onScene_pend (s : State) (n : Nat) (f : Scene → Scene) : (s.onScene n f).pend = s.pend :=
  by unfold State.onScene; split <;> rfl
@[simp] theorem State.onScene_sent (s : State) (n : Nat) (f : Scene → Scene) : (s.onScene n f).sent = s.sent :=
  by unfold State.onScene; split <;> rfl
@[simp] theorem State.onScene_mg (s : State) (n : Nat) (f : Scene → Scene) : (s.onScene n f).mg = s.mg :=
  by unfold State.onScene; split <;> rfl
@[simp] theorem State.onScene_agenda (s : State) (n : Nat) (f : Scene → Scene) : (s.onScene n f).agenda = s.agenda :=
  by unfold State.onScene; split <;> rfl
@[simp] theorem State.onScene_oracle (s : State) (n : Nat) (f : Scene → Scene) : (s.onScene n f).oracle = s.oracle :=
  by unfold State.onScene; split <;> rfl
@[simp] theorem State.onScene_cur (s : State) (n : Nat) (f : Scene → Scene) : (s.onScene n f).cur = s.cur :=
  by unfold State.onScene; split <;> rfl
@[simp] theorem State.onScene_freeCtr (s : State) (n : Nat) (f : Scene → Scene) : (s.onScene n f).freeCtr = s.freeCtr :=
  by unfold State.onScene; split <;> rfl
@[simp] theorem State.onScene_lag (s : State) (n : Nat) (f : Scene → Scene) : (s.onScene n f).lag = s.lag :=
  by unfold State.onScene; split <;> rfl
@[simp] theorem State.setThread_nextCast (s : State) (r : TRef) (v : Thread) : (s.setThread r v).nextCast = s.nextCast :=
  by simp [State.setThread]
@[simp] theorem State.setThread_plots (s : State) (r : TRef) (v : Thread) : (s.setThread r v).plots = s.plots := by simp [State.setThread]
@[simp] theorem State.setThread_scenes (s : State) (r : TRef) (v : Thread) : (s.setThread r v).scenes = s.scenes :=
  by simp [State.setThread]
@[simp] theorem State.setThread_nextScene (s : State) (r : TRef) (v : Thread) : (s.setThread r v).nextScene = s.nextScene :=
  by simp [State.setThread]
@[simp] theorem State.setThread_allots (s : State) (r : TRef) (v : Thread) : (s.setThread r v).allots = s.allots :=
  by simp [State.setThread]
@[simp] theorem State.setThread_mem (s : State) (r : TRef) (v : Thread) : (s.setThread r v).mem = s.mem := by simp [State.setThread]
@[simp] theorem State.setThread_cmn (s : State) (r : TRef) (v : Thread) : (s.setThread r v).cmn = s.cmn := by simp [State.setThread]
@[simp] theorem State.setThread_peers (s : State) (r : TRef) (v : Thread) : (s.setThread r v).peers = s.peers := by simp [State.setThread]
@[simp] theorem State.setThread_frames (s : State) (r : TRef) (v : Thread) : (s.setThread r v).frames = s.frames :=
  by simp [State.setThread]
@[simp] theorem State.setThread_keys (s : State) (r : TRef) (v : Thread) : (s.setThread r v).keys = s.keys := by simp [State.setThread]
@[simp] theorem State.setThread_nextKey (s : State) (r : TRef) (v : Thread) : (s.setThread r v).nextKey = s.nextKey :=
  by simp [State.setThread]
@[simp] theorem State.setThread_errLines (s : State) (r : TRef) (v : Thread) : (s.setThread r v).errLines = s.errLines :=
  by simp [State.setThread]
@[simp] theorem State.setThread_lostLines (s : State) (r : TRef) (v : Thread) : (s.setThread r v).lostLines = s.lostLines :=
  by simp [State.setThread]
@[simp] theorem State.setThread_slines (s : State) (r : TRef) (v : Thread) : (s.setThread r v).slines = s.slines :=
  by simp [State.setThread]
@[simp] theorem State.setThread_mtlb (s : State) (r : TRef) (v : Thread) : (s.setThread r v).mtlb = s.mtlb := by simp [State.setThread]
@[simp] theorem State.setThread_owns (s : State) (r : TRef) (v : Thread) : (s.setThread r v).owns = s.owns := by simp [State.setThread]
@[simp] theorem State.setThread_nextOwn (s : State) (r : TRef) (v : Thread) : (s.setThread r v).nextOwn = s.nextOwn :=
  by simp [State.setThread]
@[simp] theorem State.setThread_nextHeld (s : State) (r : TRef) (v : Thread) : (s.setThread r v).nextHeld = s.nextHeld :=
  by simp [State.setThread]
@[simp] theorem State.setThread_win (s : State) (r : TRef) (v : Thread) : (s.setThread r v).win = s.win := by simp [State.setThread]
@[simp] theorem State.setThread_wpmask (s : State) (r : TRef) (v : Thread) : (s.setThread r v).wpmask = s.wpmask :=
  by simp [State.setThread]
@[simp] theorem State.setThread_devnum (s : State) (r : TRef) (v : Thread) : (s.setThread r v).devnum = s.devnum :=
  by simp [State.setThread]
@[simp] theorem State.setThread_faultQ (s : State) (r : TRef) (v : Thread) : (s.setThread r v).faultQ = s.faultQ :=
  by simp [State.setThread]
@[simp] theorem State.setThread_faultSeq (s : State) (r : TRef) (v : Thread) : (s.setThread r v).faultSeq = s.faultSeq :=
  by simp [State.setThread]
@[simp] theorem State.setThread_resolv (s : State) (r : TRef) (v : Thread) : (s.setThread r v).resolv = s.resolv :=
  by simp [State.setThread]
@[simp] theorem State.setThread_clks (s : State) (r : TRef) (v : Thread) : (s.setThread r v).clks = s.clks := by simp [State.setThread]
@[simp] theorem State.setThread_dieClk (s : State) (r : TRef) (v : Thread) : (s.setThread r v).dieClk = s.dieClk :=
  by simp [State.setThread]
@[simp] theorem State.setThread_nextReq (s : State) (r : TRef) (v : Thread) : (s.setThread r v).nextReq = s.nextReq :=
  by simp [State.setThread]
@[simp] theorem State.setThread_ports (s : State) (r : TRef) (v : Thread) : (s.setThread r v).ports = s.ports := by simp [State.setThread]
@[simp] theorem State.setThread_spareLanes (s : State) (r : TRef) (v : Thread) : (s.setThread r v).spareLanes = s.spareLanes :=
  by simp [State.setThread]
@[simp] theorem State.setThread_routes (s : State) (r : TRef) (v : Thread) : (s.setThread r v).routes = s.routes :=
  by simp [State.setThread]
@[simp] theorem State.setThread_qps (s : State) (r : TRef) (v : Thread) : (s.setThread r v).qps = s.qps := by simp [State.setThread]
@[simp] theorem State.setThread_ethOpen (s : State) (r : TRef) (v : Thread) : (s.setThread r v).ethOpen = s.ethOpen :=
  by simp [State.setThread]
@[simp] theorem State.setThread_pfc (s : State) (r : TRef) (v : Thread) : (s.setThread r v).pfc = s.pfc := by simp [State.setThread]
@[simp] theorem State.setThread_ethQ (s : State) (r : TRef) (v : Thread) : (s.setThread r v).ethQ = s.ethQ := by simp [State.setThread]
@[simp] theorem State.setThread_rx (s : State) (r : TRef) (v : Thread) : (s.setThread r v).rx = s.rx := by simp [State.setThread]
@[simp] theorem State.setThread_arb (s : State) (r : TRef) (v : Thread) : (s.setThread r v).arb = s.arb := by simp [State.setThread]
@[simp] theorem State.setThread_pend (s : State) (r : TRef) (v : Thread) : (s.setThread r v).pend = s.pend := by simp [State.setThread]
@[simp] theorem State.setThread_sent (s : State) (r : TRef) (v : Thread) : (s.setThread r v).sent = s.sent := by simp [State.setThread]
@[simp] theorem State.setThread_mg (s : State) (r : TRef) (v : Thread) : (s.setThread r v).mg = s.mg := by simp [State.setThread]
@[simp] theorem State.setThread_agenda (s : State) (r : TRef) (v : Thread) : (s.setThread r v).agenda = s.agenda :=
  by simp [State.setThread]
@[simp] theorem State.setThread_oracle (s : State) (r : TRef) (v : Thread) : (s.setThread r v).oracle = s.oracle :=
  by simp [State.setThread]
@[simp] theorem State.setThread_cur (s : State) (r : TRef) (v : Thread) : (s.setThread r v).cur = s.cur := by simp [State.setThread]
@[simp] theorem State.setThread_freeCtr (s : State) (r : TRef) (v : Thread) : (s.setThread r v).freeCtr = s.freeCtr :=
  by simp [State.setThread]
@[simp] theorem State.setThread_lag (s : State) (r : TRef) (v : Thread) : (s.setThread r v).lag = s.lag := by simp [State.setThread]
@[simp] theorem State.record_casts (s : State) (r : FaultRec) : (s.record r).casts = s.casts := rfl
@[simp] theorem State.record_nextCast (s : State) (r : FaultRec) : (s.record r).nextCast = s.nextCast := rfl
@[simp] theorem State.record_plots (s : State) (r : FaultRec) : (s.record r).plots = s.plots := rfl
@[simp] theorem State.record_scenes (s : State) (r : FaultRec) : (s.record r).scenes = s.scenes := rfl
@[simp] theorem State.record_nextScene (s : State) (r : FaultRec) : (s.record r).nextScene = s.nextScene := rfl
@[simp] theorem State.record_allots (s : State) (r : FaultRec) : (s.record r).allots = s.allots := rfl
@[simp] theorem State.record_mem (s : State) (r : FaultRec) : (s.record r).mem = s.mem := rfl
@[simp] theorem State.record_cmn (s : State) (r : FaultRec) : (s.record r).cmn = s.cmn := rfl
@[simp] theorem State.record_peers (s : State) (r : FaultRec) : (s.record r).peers = s.peers := rfl
@[simp] theorem State.record_frames (s : State) (r : FaultRec) : (s.record r).frames = s.frames := rfl
@[simp] theorem State.record_keys (s : State) (r : FaultRec) : (s.record r).keys = s.keys := rfl
@[simp] theorem State.record_nextKey (s : State) (r : FaultRec) : (s.record r).nextKey = s.nextKey := rfl
@[simp] theorem State.record_errLines (s : State) (r : FaultRec) : (s.record r).errLines = s.errLines := rfl
@[simp] theorem State.record_lostLines (s : State) (r : FaultRec) : (s.record r).lostLines = s.lostLines := rfl
@[simp] theorem State.record_slines (s : State) (r : FaultRec) : (s.record r).slines = s.slines := rfl
@[simp] theorem State.record_mtlb (s : State) (r : FaultRec) : (s.record r).mtlb = s.mtlb := rfl
@[simp] theorem State.record_owns (s : State) (r : FaultRec) : (s.record r).owns = s.owns := rfl
@[simp] theorem State.record_nextOwn (s : State) (r : FaultRec) : (s.record r).nextOwn = s.nextOwn := rfl
@[simp] theorem State.record_nextHeld (s : State) (r : FaultRec) : (s.record r).nextHeld = s.nextHeld := rfl
@[simp] theorem State.record_win (s : State) (r : FaultRec) : (s.record r).win = s.win := rfl
@[simp] theorem State.record_wpmask (s : State) (r : FaultRec) : (s.record r).wpmask = s.wpmask := rfl
@[simp] theorem State.record_devnum (s : State) (r : FaultRec) : (s.record r).devnum = s.devnum := rfl
@[simp] theorem State.record_resolv (s : State) (r : FaultRec) : (s.record r).resolv = s.resolv := rfl
@[simp] theorem State.record_clks (s : State) (r : FaultRec) : (s.record r).clks = s.clks := rfl
@[simp] theorem State.record_dieClk (s : State) (r : FaultRec) : (s.record r).dieClk = s.dieClk := rfl
@[simp] theorem State.record_nextReq (s : State) (r : FaultRec) : (s.record r).nextReq = s.nextReq := rfl
@[simp] theorem State.record_ports (s : State) (r : FaultRec) : (s.record r).ports = s.ports := rfl
@[simp] theorem State.record_spareLanes (s : State) (r : FaultRec) : (s.record r).spareLanes = s.spareLanes := rfl
@[simp] theorem State.record_routes (s : State) (r : FaultRec) : (s.record r).routes = s.routes := rfl
@[simp] theorem State.record_qps (s : State) (r : FaultRec) : (s.record r).qps = s.qps := rfl
@[simp] theorem State.record_ethOpen (s : State) (r : FaultRec) : (s.record r).ethOpen = s.ethOpen := rfl
@[simp] theorem State.record_pfc (s : State) (r : FaultRec) : (s.record r).pfc = s.pfc := rfl
@[simp] theorem State.record_ethQ (s : State) (r : FaultRec) : (s.record r).ethQ = s.ethQ := rfl
@[simp] theorem State.record_rx (s : State) (r : FaultRec) : (s.record r).rx = s.rx := rfl
@[simp] theorem State.record_arb (s : State) (r : FaultRec) : (s.record r).arb = s.arb := rfl
@[simp] theorem State.record_pend (s : State) (r : FaultRec) : (s.record r).pend = s.pend := rfl
@[simp] theorem State.record_sent (s : State) (r : FaultRec) : (s.record r).sent = s.sent := rfl
@[simp] theorem State.record_mg (s : State) (r : FaultRec) : (s.record r).mg = s.mg := rfl
@[simp] theorem State.record_agenda (s : State) (r : FaultRec) : (s.record r).agenda = s.agenda := rfl
@[simp] theorem State.record_oracle (s : State) (r : FaultRec) : (s.record r).oracle = s.oracle := rfl
@[simp] theorem State.record_cur (s : State) (r : FaultRec) : (s.record r).cur = s.cur := rfl
@[simp] theorem State.record_freeCtr (s : State) (r : FaultRec) : (s.record r).freeCtr = s.freeCtr := rfl
@[simp] theorem State.record_lag (s : State) (r : FaultRec) : (s.record r).lag = s.lag := rfl
@[simp] theorem State.retry_nextCast (s : State) (p : Nat) (f : Wait → Bool) : (s.retry p f).nextCast = s.nextCast := rfl
@[simp] theorem State.retry_plots (s : State) (p : Nat) (f : Wait → Bool) : (s.retry p f).plots = s.plots := rfl
@[simp] theorem State.retry_scenes (s : State) (p : Nat) (f : Wait → Bool) : (s.retry p f).scenes = s.scenes := rfl
@[simp] theorem State.retry_nextScene (s : State) (p : Nat) (f : Wait → Bool) : (s.retry p f).nextScene = s.nextScene := rfl
@[simp] theorem State.retry_allots (s : State) (p : Nat) (f : Wait → Bool) : (s.retry p f).allots = s.allots := rfl
@[simp] theorem State.retry_mem (s : State) (p : Nat) (f : Wait → Bool) : (s.retry p f).mem = s.mem := rfl
@[simp] theorem State.retry_cmn (s : State) (p : Nat) (f : Wait → Bool) : (s.retry p f).cmn = s.cmn := rfl
@[simp] theorem State.retry_peers (s : State) (p : Nat) (f : Wait → Bool) : (s.retry p f).peers = s.peers := rfl
@[simp] theorem State.retry_frames (s : State) (p : Nat) (f : Wait → Bool) : (s.retry p f).frames = s.frames := rfl
@[simp] theorem State.retry_keys (s : State) (p : Nat) (f : Wait → Bool) : (s.retry p f).keys = s.keys := rfl
@[simp] theorem State.retry_nextKey (s : State) (p : Nat) (f : Wait → Bool) : (s.retry p f).nextKey = s.nextKey := rfl
@[simp] theorem State.retry_errLines (s : State) (p : Nat) (f : Wait → Bool) : (s.retry p f).errLines = s.errLines := rfl
@[simp] theorem State.retry_lostLines (s : State) (p : Nat) (f : Wait → Bool) : (s.retry p f).lostLines = s.lostLines := rfl
@[simp] theorem State.retry_slines (s : State) (p : Nat) (f : Wait → Bool) : (s.retry p f).slines = s.slines := rfl
@[simp] theorem State.retry_mtlb (s : State) (p : Nat) (f : Wait → Bool) : (s.retry p f).mtlb = s.mtlb := rfl
@[simp] theorem State.retry_owns (s : State) (p : Nat) (f : Wait → Bool) : (s.retry p f).owns = s.owns := rfl
@[simp] theorem State.retry_nextOwn (s : State) (p : Nat) (f : Wait → Bool) : (s.retry p f).nextOwn = s.nextOwn := rfl
@[simp] theorem State.retry_nextHeld (s : State) (p : Nat) (f : Wait → Bool) : (s.retry p f).nextHeld = s.nextHeld := rfl
@[simp] theorem State.retry_win (s : State) (p : Nat) (f : Wait → Bool) : (s.retry p f).win = s.win := rfl
@[simp] theorem State.retry_wpmask (s : State) (p : Nat) (f : Wait → Bool) : (s.retry p f).wpmask = s.wpmask := rfl
@[simp] theorem State.retry_devnum (s : State) (p : Nat) (f : Wait → Bool) : (s.retry p f).devnum = s.devnum := rfl
@[simp] theorem State.retry_faultQ (s : State) (p : Nat) (f : Wait → Bool) : (s.retry p f).faultQ = s.faultQ := rfl
@[simp] theorem State.retry_faultSeq (s : State) (p : Nat) (f : Wait → Bool) : (s.retry p f).faultSeq = s.faultSeq := rfl
@[simp] theorem State.retry_resolv (s : State) (p : Nat) (f : Wait → Bool) : (s.retry p f).resolv = s.resolv := rfl
@[simp] theorem State.retry_clks (s : State) (p : Nat) (f : Wait → Bool) : (s.retry p f).clks = s.clks := rfl
@[simp] theorem State.retry_dieClk (s : State) (p : Nat) (f : Wait → Bool) : (s.retry p f).dieClk = s.dieClk := rfl
@[simp] theorem State.retry_nextReq (s : State) (p : Nat) (f : Wait → Bool) : (s.retry p f).nextReq = s.nextReq := rfl
@[simp] theorem State.retry_ports (s : State) (p : Nat) (f : Wait → Bool) : (s.retry p f).ports = s.ports := rfl
@[simp] theorem State.retry_spareLanes (s : State) (p : Nat) (f : Wait → Bool) : (s.retry p f).spareLanes = s.spareLanes := rfl
@[simp] theorem State.retry_routes (s : State) (p : Nat) (f : Wait → Bool) : (s.retry p f).routes = s.routes := rfl
@[simp] theorem State.retry_qps (s : State) (p : Nat) (f : Wait → Bool) : (s.retry p f).qps = s.qps := rfl
@[simp] theorem State.retry_ethOpen (s : State) (p : Nat) (f : Wait → Bool) : (s.retry p f).ethOpen = s.ethOpen := rfl
@[simp] theorem State.retry_pfc (s : State) (p : Nat) (f : Wait → Bool) : (s.retry p f).pfc = s.pfc := rfl
@[simp] theorem State.retry_ethQ (s : State) (p : Nat) (f : Wait → Bool) : (s.retry p f).ethQ = s.ethQ := rfl
@[simp] theorem State.retry_rx (s : State) (p : Nat) (f : Wait → Bool) : (s.retry p f).rx = s.rx := rfl
@[simp] theorem State.retry_arb (s : State) (p : Nat) (f : Wait → Bool) : (s.retry p f).arb = s.arb := rfl
@[simp] theorem State.retry_pend (s : State) (p : Nat) (f : Wait → Bool) : (s.retry p f).pend = s.pend := rfl
@[simp] theorem State.retry_sent (s : State) (p : Nat) (f : Wait → Bool) : (s.retry p f).sent = s.sent := rfl
@[simp] theorem State.retry_mg (s : State) (p : Nat) (f : Wait → Bool) : (s.retry p f).mg = s.mg := rfl
@[simp] theorem State.retry_agenda (s : State) (p : Nat) (f : Wait → Bool) : (s.retry p f).agenda = s.agenda := rfl
@[simp] theorem State.retry_oracle (s : State) (p : Nat) (f : Wait → Bool) : (s.retry p f).oracle = s.oracle := rfl
@[simp] theorem State.retry_cur (s : State) (p : Nat) (f : Wait → Bool) : (s.retry p f).cur = s.cur := rfl
@[simp] theorem State.retry_freeCtr (s : State) (p : Nat) (f : Wait → Bool) : (s.retry p f).freeCtr = s.freeCtr := rfl
@[simp] theorem State.retry_lag (s : State) (p : Nat) (f : Wait → Bool) : (s.retry p f).lag = s.lag := rfl
@[simp] theorem State.flag_nextCast (s : State) (k : Ctx) (f : Word) : (s.flag k f).nextCast = s.nextCast :=
  by unfold State.flag; split <;> simp
@[simp] theorem State.flag_plots (s : State) (k : Ctx) (f : Word) : (s.flag k f).plots = s.plots := by unfold State.flag; split <;> simp
@[simp] theorem State.flag_scenes (s : State) (k : Ctx) (f : Word) : (s.flag k f).scenes = s.scenes := by unfold State.flag; split <;> simp
@[simp] theorem State.flag_nextScene (s : State) (k : Ctx) (f : Word) : (s.flag k f).nextScene = s.nextScene :=
  by unfold State.flag; split <;> simp
@[simp] theorem State.flag_allots (s : State) (k : Ctx) (f : Word) : (s.flag k f).allots = s.allots := by unfold State.flag; split <;> simp
@[simp] theorem State.flag_mem (s : State) (k : Ctx) (f : Word) : (s.flag k f).mem = s.mem := by unfold State.flag; split <;> simp
@[simp] theorem State.flag_cmn (s : State) (k : Ctx) (f : Word) : (s.flag k f).cmn = s.cmn := by unfold State.flag; split <;> simp
@[simp] theorem State.flag_peers (s : State) (k : Ctx) (f : Word) : (s.flag k f).peers = s.peers := by unfold State.flag; split <;> simp
@[simp] theorem State.flag_frames (s : State) (k : Ctx) (f : Word) : (s.flag k f).frames = s.frames := by unfold State.flag; split <;> simp
@[simp] theorem State.flag_keys (s : State) (k : Ctx) (f : Word) : (s.flag k f).keys = s.keys := by unfold State.flag; split <;> simp
@[simp] theorem State.flag_nextKey (s : State) (k : Ctx) (f : Word) : (s.flag k f).nextKey = s.nextKey :=
  by unfold State.flag; split <;> simp
@[simp] theorem State.flag_errLines (s : State) (k : Ctx) (f : Word) : (s.flag k f).errLines = s.errLines :=
  by unfold State.flag; split <;> simp
@[simp] theorem State.flag_lostLines (s : State) (k : Ctx) (f : Word) : (s.flag k f).lostLines = s.lostLines :=
  by unfold State.flag; split <;> simp
@[simp] theorem State.flag_slines (s : State) (k : Ctx) (f : Word) : (s.flag k f).slines = s.slines := by unfold State.flag; split <;> simp
@[simp] theorem State.flag_mtlb (s : State) (k : Ctx) (f : Word) : (s.flag k f).mtlb = s.mtlb := by unfold State.flag; split <;> simp
@[simp] theorem State.flag_owns (s : State) (k : Ctx) (f : Word) : (s.flag k f).owns = s.owns := by unfold State.flag; split <;> simp
@[simp] theorem State.flag_nextOwn (s : State) (k : Ctx) (f : Word) : (s.flag k f).nextOwn = s.nextOwn :=
  by unfold State.flag; split <;> simp
@[simp] theorem State.flag_nextHeld (s : State) (k : Ctx) (f : Word) : (s.flag k f).nextHeld = s.nextHeld :=
  by unfold State.flag; split <;> simp
@[simp] theorem State.flag_win (s : State) (k : Ctx) (f : Word) : (s.flag k f).win = s.win := by unfold State.flag; split <;> simp
@[simp] theorem State.flag_wpmask (s : State) (k : Ctx) (f : Word) : (s.flag k f).wpmask = s.wpmask := by unfold State.flag; split <;> simp
@[simp] theorem State.flag_devnum (s : State) (k : Ctx) (f : Word) : (s.flag k f).devnum = s.devnum := by unfold State.flag; split <;> simp
@[simp] theorem State.flag_faultQ (s : State) (k : Ctx) (f : Word) : (s.flag k f).faultQ = s.faultQ := by unfold State.flag; split <;> simp
@[simp] theorem State.flag_faultSeq (s : State) (k : Ctx) (f : Word) : (s.flag k f).faultSeq = s.faultSeq :=
  by unfold State.flag; split <;> simp
@[simp] theorem State.flag_resolv (s : State) (k : Ctx) (f : Word) : (s.flag k f).resolv = s.resolv := by unfold State.flag; split <;> simp
@[simp] theorem State.flag_clks (s : State) (k : Ctx) (f : Word) : (s.flag k f).clks = s.clks := by unfold State.flag; split <;> simp
@[simp] theorem State.flag_dieClk (s : State) (k : Ctx) (f : Word) : (s.flag k f).dieClk = s.dieClk := by unfold State.flag; split <;> simp
@[simp] theorem State.flag_nextReq (s : State) (k : Ctx) (f : Word) : (s.flag k f).nextReq = s.nextReq :=
  by unfold State.flag; split <;> simp
@[simp] theorem State.flag_ports (s : State) (k : Ctx) (f : Word) : (s.flag k f).ports = s.ports := by unfold State.flag; split <;> simp
@[simp] theorem State.flag_spareLanes (s : State) (k : Ctx) (f : Word) : (s.flag k f).spareLanes = s.spareLanes :=
  by unfold State.flag; split <;> simp
@[simp] theorem State.flag_routes (s : State) (k : Ctx) (f : Word) : (s.flag k f).routes = s.routes := by unfold State.flag; split <;> simp
@[simp] theorem State.flag_qps (s : State) (k : Ctx) (f : Word) : (s.flag k f).qps = s.qps := by unfold State.flag; split <;> simp
@[simp] theorem State.flag_ethOpen (s : State) (k : Ctx) (f : Word) : (s.flag k f).ethOpen = s.ethOpen :=
  by unfold State.flag; split <;> simp
@[simp] theorem State.flag_pfc (s : State) (k : Ctx) (f : Word) : (s.flag k f).pfc = s.pfc := by unfold State.flag; split <;> simp
@[simp] theorem State.flag_ethQ (s : State) (k : Ctx) (f : Word) : (s.flag k f).ethQ = s.ethQ := by unfold State.flag; split <;> simp
@[simp] theorem State.flag_rx (s : State) (k : Ctx) (f : Word) : (s.flag k f).rx = s.rx := by unfold State.flag; split <;> simp
@[simp] theorem State.flag_arb (s : State) (k : Ctx) (f : Word) : (s.flag k f).arb = s.arb := by unfold State.flag; split <;> simp
@[simp] theorem State.flag_pend (s : State) (k : Ctx) (f : Word) : (s.flag k f).pend = s.pend := by unfold State.flag; split <;> simp
@[simp] theorem State.flag_sent (s : State) (k : Ctx) (f : Word) : (s.flag k f).sent = s.sent := by unfold State.flag; split <;> simp
@[simp] theorem State.flag_mg (s : State) (k : Ctx) (f : Word) : (s.flag k f).mg = s.mg := by unfold State.flag; split <;> simp
@[simp] theorem State.flag_agenda (s : State) (k : Ctx) (f : Word) : (s.flag k f).agenda = s.agenda := by unfold State.flag; split <;> simp
@[simp] theorem State.flag_oracle (s : State) (k : Ctx) (f : Word) : (s.flag k f).oracle = s.oracle := by unfold State.flag; split <;> simp
@[simp] theorem State.flag_cur (s : State) (k : Ctx) (f : Word) : (s.flag k f).cur = s.cur := by unfold State.flag; split <;> simp
@[simp] theorem State.flag_freeCtr (s : State) (k : Ctx) (f : Word) : (s.flag k f).freeCtr = s.freeCtr :=
  by unfold State.flag; split <;> simp
@[simp] theorem State.flag_lag (s : State) (k : Ctx) (f : Word) : (s.flag k f).lag = s.lag := by unfold State.flag; split <;> simp
@[simp] theorem State.switch_casts (s : State) (k : Ctx) : (s.switch k).casts = s.casts := by unfold State.switch; split <;> simp
@[simp] theorem State.switch_nextCast (s : State) (k : Ctx) : (s.switch k).nextCast = s.nextCast := by unfold State.switch; split <;> simp
@[simp] theorem State.switch_scenes (s : State) (k : Ctx) : (s.switch k).scenes = s.scenes := by unfold State.switch; split <;> simp
@[simp] theorem State.switch_nextScene (s : State) (k : Ctx) : (s.switch k).nextScene = s.nextScene :=
  by unfold State.switch; split <;> simp
@[simp] theorem State.switch_allots (s : State) (k : Ctx) : (s.switch k).allots = s.allots := by unfold State.switch; split <;> simp
@[simp] theorem State.switch_mem (s : State) (k : Ctx) : (s.switch k).mem = s.mem := by unfold State.switch; split <;> simp
@[simp] theorem State.switch_cmn (s : State) (k : Ctx) : (s.switch k).cmn = s.cmn := by unfold State.switch; split <;> simp
@[simp] theorem State.switch_peers (s : State) (k : Ctx) : (s.switch k).peers = s.peers := by unfold State.switch; split <;> simp
@[simp] theorem State.switch_frames (s : State) (k : Ctx) : (s.switch k).frames = s.frames := by unfold State.switch; split <;> simp
@[simp] theorem State.switch_keys (s : State) (k : Ctx) : (s.switch k).keys = s.keys := by unfold State.switch; split <;> simp
@[simp] theorem State.switch_nextKey (s : State) (k : Ctx) : (s.switch k).nextKey = s.nextKey := by unfold State.switch; split <;> simp
@[simp] theorem State.switch_errLines (s : State) (k : Ctx) : (s.switch k).errLines = s.errLines := by unfold State.switch; split <;> simp
@[simp] theorem State.switch_lostLines (s : State) (k : Ctx) : (s.switch k).lostLines = s.lostLines :=
  by unfold State.switch; split <;> simp
@[simp] theorem State.switch_slines (s : State) (k : Ctx) : (s.switch k).slines = s.slines := by unfold State.switch; split <;> simp
@[simp] theorem State.switch_mtlb (s : State) (k : Ctx) : (s.switch k).mtlb = s.mtlb := by unfold State.switch; split <;> simp
@[simp] theorem State.switch_owns (s : State) (k : Ctx) : (s.switch k).owns = s.owns := by unfold State.switch; split <;> simp
@[simp] theorem State.switch_nextOwn (s : State) (k : Ctx) : (s.switch k).nextOwn = s.nextOwn := by unfold State.switch; split <;> simp
@[simp] theorem State.switch_nextHeld (s : State) (k : Ctx) : (s.switch k).nextHeld = s.nextHeld := by unfold State.switch; split <;> simp
@[simp] theorem State.switch_win (s : State) (k : Ctx) : (s.switch k).win = s.win := by unfold State.switch; split <;> simp
@[simp] theorem State.switch_wpmask (s : State) (k : Ctx) : (s.switch k).wpmask = s.wpmask := by unfold State.switch; split <;> simp
@[simp] theorem State.switch_devnum (s : State) (k : Ctx) : (s.switch k).devnum = s.devnum := by unfold State.switch; split <;> simp
@[simp] theorem State.switch_faultQ (s : State) (k : Ctx) : (s.switch k).faultQ = s.faultQ := by unfold State.switch; split <;> simp
@[simp] theorem State.switch_faultSeq (s : State) (k : Ctx) : (s.switch k).faultSeq = s.faultSeq := by unfold State.switch; split <;> simp
@[simp] theorem State.switch_resolv (s : State) (k : Ctx) : (s.switch k).resolv = s.resolv := by unfold State.switch; split <;> simp
@[simp] theorem State.switch_clks (s : State) (k : Ctx) : (s.switch k).clks = s.clks := by unfold State.switch; split <;> simp
@[simp] theorem State.switch_dieClk (s : State) (k : Ctx) : (s.switch k).dieClk = s.dieClk := by unfold State.switch; split <;> simp
@[simp] theorem State.switch_nextReq (s : State) (k : Ctx) : (s.switch k).nextReq = s.nextReq := by unfold State.switch; split <;> simp
@[simp] theorem State.switch_ports (s : State) (k : Ctx) : (s.switch k).ports = s.ports := by unfold State.switch; split <;> simp
@[simp] theorem State.switch_spareLanes (s : State) (k : Ctx) : (s.switch k).spareLanes = s.spareLanes :=
  by unfold State.switch; split <;> simp
@[simp] theorem State.switch_routes (s : State) (k : Ctx) : (s.switch k).routes = s.routes := by unfold State.switch; split <;> simp
@[simp] theorem State.switch_qps (s : State) (k : Ctx) : (s.switch k).qps = s.qps := by unfold State.switch; split <;> simp
@[simp] theorem State.switch_ethOpen (s : State) (k : Ctx) : (s.switch k).ethOpen = s.ethOpen := by unfold State.switch; split <;> simp
@[simp] theorem State.switch_pfc (s : State) (k : Ctx) : (s.switch k).pfc = s.pfc := by unfold State.switch; split <;> simp
@[simp] theorem State.switch_ethQ (s : State) (k : Ctx) : (s.switch k).ethQ = s.ethQ := by unfold State.switch; split <;> simp
@[simp] theorem State.switch_rx (s : State) (k : Ctx) : (s.switch k).rx = s.rx := by unfold State.switch; split <;> simp
@[simp] theorem State.switch_arb (s : State) (k : Ctx) : (s.switch k).arb = s.arb := by unfold State.switch; split <;> simp
@[simp] theorem State.switch_pend (s : State) (k : Ctx) : (s.switch k).pend = s.pend := by unfold State.switch; split <;> simp
@[simp] theorem State.switch_sent (s : State) (k : Ctx) : (s.switch k).sent = s.sent := by unfold State.switch; split <;> simp
@[simp] theorem State.switch_mg (s : State) (k : Ctx) : (s.switch k).mg = s.mg := by unfold State.switch; split <;> simp
@[simp] theorem State.switch_agenda (s : State) (k : Ctx) : (s.switch k).agenda = s.agenda := by unfold State.switch; split <;> simp
@[simp] theorem State.switch_oracle (s : State) (k : Ctx) : (s.switch k).oracle = s.oracle := by unfold State.switch; split <;> simp
@[simp] theorem State.switch_cur (s : State) (k : Ctx) : (s.switch k).cur = s.cur := by unfold State.switch; split <;> simp
@[simp] theorem State.switch_freeCtr (s : State) (k : Ctx) : (s.switch k).freeCtr = s.freeCtr := by unfold State.switch; split <;> simp
@[simp] theorem State.switch_lag (s : State) (k : Ctx) : (s.switch k).lag = s.lag := by unfold State.switch; split <;> simp
@[simp] theorem State.count_nextCast (s : State) (k : Ctx) (c : OpClass) (d : Bool) : ((s.count k c d).2).nextCast = s.nextCast :=
  by simp [State.count]
@[simp] theorem State.count_plots (s : State) (k : Ctx) (c : OpClass) (d : Bool) : ((s.count k c d).2).plots = s.plots :=
  by simp [State.count]
@[simp] theorem State.count_scenes (s : State) (k : Ctx) (c : OpClass) (d : Bool) : ((s.count k c d).2).scenes = s.scenes :=
  by simp [State.count]
@[simp] theorem State.count_nextScene (s : State) (k : Ctx) (c : OpClass) (d : Bool) : ((s.count k c d).2).nextScene = s.nextScene :=
  by simp [State.count]
@[simp] theorem State.count_allots (s : State) (k : Ctx) (c : OpClass) (d : Bool) : ((s.count k c d).2).allots = s.allots :=
  by simp [State.count]
@[simp] theorem State.count_mem (s : State) (k : Ctx) (c : OpClass) (d : Bool) : ((s.count k c d).2).mem = s.mem := by simp [State.count]
@[simp] theorem State.count_cmn (s : State) (k : Ctx) (c : OpClass) (d : Bool) : ((s.count k c d).2).cmn = s.cmn := by simp [State.count]
@[simp] theorem State.count_peers (s : State) (k : Ctx) (c : OpClass) (d : Bool) : ((s.count k c d).2).peers = s.peers :=
  by simp [State.count]
@[simp] theorem State.count_frames (s : State) (k : Ctx) (c : OpClass) (d : Bool) : ((s.count k c d).2).frames = s.frames :=
  by simp [State.count]
@[simp] theorem State.count_keys (s : State) (k : Ctx) (c : OpClass) (d : Bool) : ((s.count k c d).2).keys = s.keys := by simp [State.count]
@[simp] theorem State.count_nextKey (s : State) (k : Ctx) (c : OpClass) (d : Bool) : ((s.count k c d).2).nextKey = s.nextKey :=
  by simp [State.count]
@[simp] theorem State.count_errLines (s : State) (k : Ctx) (c : OpClass) (d : Bool) : ((s.count k c d).2).errLines = s.errLines :=
  by simp [State.count]
@[simp] theorem State.count_lostLines (s : State) (k : Ctx) (c : OpClass) (d : Bool) : ((s.count k c d).2).lostLines = s.lostLines :=
  by simp [State.count]
@[simp] theorem State.count_slines (s : State) (k : Ctx) (c : OpClass) (d : Bool) : ((s.count k c d).2).slines = s.slines :=
  by simp [State.count]
@[simp] theorem State.count_mtlb (s : State) (k : Ctx) (c : OpClass) (d : Bool) : ((s.count k c d).2).mtlb = s.mtlb := by simp [State.count]
@[simp] theorem State.count_owns (s : State) (k : Ctx) (c : OpClass) (d : Bool) : ((s.count k c d).2).owns = s.owns := by simp [State.count]
@[simp] theorem State.count_nextOwn (s : State) (k : Ctx) (c : OpClass) (d : Bool) : ((s.count k c d).2).nextOwn = s.nextOwn :=
  by simp [State.count]
@[simp] theorem State.count_nextHeld (s : State) (k : Ctx) (c : OpClass) (d : Bool) : ((s.count k c d).2).nextHeld = s.nextHeld :=
  by simp [State.count]
@[simp] theorem State.count_win (s : State) (k : Ctx) (c : OpClass) (d : Bool) : ((s.count k c d).2).win = s.win := by simp [State.count]
@[simp] theorem State.count_wpmask (s : State) (k : Ctx) (c : OpClass) (d : Bool) : ((s.count k c d).2).wpmask = s.wpmask :=
  by simp [State.count]
@[simp] theorem State.count_devnum (s : State) (k : Ctx) (c : OpClass) (d : Bool) : ((s.count k c d).2).devnum = s.devnum :=
  by simp [State.count]
@[simp] theorem State.count_faultQ (s : State) (k : Ctx) (c : OpClass) (d : Bool) : ((s.count k c d).2).faultQ = s.faultQ :=
  by simp [State.count]
@[simp] theorem State.count_faultSeq (s : State) (k : Ctx) (c : OpClass) (d : Bool) : ((s.count k c d).2).faultSeq = s.faultSeq :=
  by simp [State.count]
@[simp] theorem State.count_resolv (s : State) (k : Ctx) (c : OpClass) (d : Bool) : ((s.count k c d).2).resolv = s.resolv :=
  by simp [State.count]
@[simp] theorem State.count_clks (s : State) (k : Ctx) (c : OpClass) (d : Bool) : ((s.count k c d).2).clks = s.clks := by simp [State.count]
@[simp] theorem State.count_dieClk (s : State) (k : Ctx) (c : OpClass) (d : Bool) : ((s.count k c d).2).dieClk = s.dieClk :=
  by simp [State.count]
@[simp] theorem State.count_nextReq (s : State) (k : Ctx) (c : OpClass) (d : Bool) : ((s.count k c d).2).nextReq = s.nextReq :=
  by simp [State.count]
@[simp] theorem State.count_ports (s : State) (k : Ctx) (c : OpClass) (d : Bool) : ((s.count k c d).2).ports = s.ports :=
  by simp [State.count]
@[simp] theorem State.count_spareLanes (s : State) (k : Ctx) (c : OpClass) (d : Bool) : ((s.count k c d).2).spareLanes = s.spareLanes :=
  by simp [State.count]
@[simp] theorem State.count_routes (s : State) (k : Ctx) (c : OpClass) (d : Bool) : ((s.count k c d).2).routes = s.routes :=
  by simp [State.count]
@[simp] theorem State.count_qps (s : State) (k : Ctx) (c : OpClass) (d : Bool) : ((s.count k c d).2).qps = s.qps := by simp [State.count]
@[simp] theorem State.count_ethOpen (s : State) (k : Ctx) (c : OpClass) (d : Bool) : ((s.count k c d).2).ethOpen = s.ethOpen :=
  by simp [State.count]
@[simp] theorem State.count_pfc (s : State) (k : Ctx) (c : OpClass) (d : Bool) : ((s.count k c d).2).pfc = s.pfc := by simp [State.count]
@[simp] theorem State.count_ethQ (s : State) (k : Ctx) (c : OpClass) (d : Bool) : ((s.count k c d).2).ethQ = s.ethQ := by simp [State.count]
@[simp] theorem State.count_rx (s : State) (k : Ctx) (c : OpClass) (d : Bool) : ((s.count k c d).2).rx = s.rx := by simp [State.count]
@[simp] theorem State.count_arb (s : State) (k : Ctx) (c : OpClass) (d : Bool) : ((s.count k c d).2).arb = s.arb := by simp [State.count]
@[simp] theorem State.count_pend (s : State) (k : Ctx) (c : OpClass) (d : Bool) : ((s.count k c d).2).pend = s.pend := by simp [State.count]
@[simp] theorem State.count_sent (s : State) (k : Ctx) (c : OpClass) (d : Bool) : ((s.count k c d).2).sent = s.sent := by simp [State.count]
@[simp] theorem State.count_mg (s : State) (k : Ctx) (c : OpClass) (d : Bool) : ((s.count k c d).2).mg = s.mg := by simp [State.count]
@[simp] theorem State.count_agenda (s : State) (k : Ctx) (c : OpClass) (d : Bool) : ((s.count k c d).2).agenda = s.agenda :=
  by simp [State.count]
@[simp] theorem State.count_oracle (s : State) (k : Ctx) (c : OpClass) (d : Bool) : ((s.count k c d).2).oracle = s.oracle :=
  by simp [State.count]
@[simp] theorem State.count_cur (s : State) (k : Ctx) (c : OpClass) (d : Bool) : ((s.count k c d).2).cur = s.cur := by simp [State.count]
@[simp] theorem State.count_freeCtr (s : State) (k : Ctx) (c : OpClass) (d : Bool) : ((s.count k c d).2).freeCtr = s.freeCtr :=
  by simp [State.count]
@[simp] theorem State.count_lag (s : State) (k : Ctx) (c : OpClass) (d : Bool) : ((s.count k c d).2).lag = s.lag := by simp [State.count]
@[simp] theorem State.countRetired_nextCast (s : State) (k : Ctx) : (s.countRetired k).nextCast = s.nextCast := by simp [State.countRetired]
@[simp] theorem State.countRetired_plots (s : State) (k : Ctx) : (s.countRetired k).plots = s.plots := by simp [State.countRetired]
@[simp] theorem State.countRetired_scenes (s : State) (k : Ctx) : (s.countRetired k).scenes = s.scenes := by simp [State.countRetired]
@[simp] theorem State.countRetired_nextScene (s : State) (k : Ctx) : (s.countRetired k).nextScene = s.nextScene :=
  by simp [State.countRetired]
@[simp] theorem State.countRetired_allots (s : State) (k : Ctx) : (s.countRetired k).allots = s.allots := by simp [State.countRetired]
@[simp] theorem State.countRetired_mem (s : State) (k : Ctx) : (s.countRetired k).mem = s.mem := by simp [State.countRetired]
@[simp] theorem State.countRetired_cmn (s : State) (k : Ctx) : (s.countRetired k).cmn = s.cmn := by simp [State.countRetired]
@[simp] theorem State.countRetired_peers (s : State) (k : Ctx) : (s.countRetired k).peers = s.peers := by simp [State.countRetired]
@[simp] theorem State.countRetired_frames (s : State) (k : Ctx) : (s.countRetired k).frames = s.frames := by simp [State.countRetired]
@[simp] theorem State.countRetired_keys (s : State) (k : Ctx) : (s.countRetired k).keys = s.keys := by simp [State.countRetired]
@[simp] theorem State.countRetired_nextKey (s : State) (k : Ctx) : (s.countRetired k).nextKey = s.nextKey := by simp [State.countRetired]
@[simp] theorem State.countRetired_errLines (s : State) (k : Ctx) : (s.countRetired k).errLines = s.errLines := by simp [State.countRetired]
@[simp] theorem State.countRetired_lostLines (s : State) (k : Ctx) : (s.countRetired k).lostLines = s.lostLines :=
  by simp [State.countRetired]
@[simp] theorem State.countRetired_slines (s : State) (k : Ctx) : (s.countRetired k).slines = s.slines := by simp [State.countRetired]
@[simp] theorem State.countRetired_mtlb (s : State) (k : Ctx) : (s.countRetired k).mtlb = s.mtlb := by simp [State.countRetired]
@[simp] theorem State.countRetired_owns (s : State) (k : Ctx) : (s.countRetired k).owns = s.owns := by simp [State.countRetired]
@[simp] theorem State.countRetired_nextOwn (s : State) (k : Ctx) : (s.countRetired k).nextOwn = s.nextOwn := by simp [State.countRetired]
@[simp] theorem State.countRetired_nextHeld (s : State) (k : Ctx) : (s.countRetired k).nextHeld = s.nextHeld := by simp [State.countRetired]
@[simp] theorem State.countRetired_win (s : State) (k : Ctx) : (s.countRetired k).win = s.win := by simp [State.countRetired]
@[simp] theorem State.countRetired_wpmask (s : State) (k : Ctx) : (s.countRetired k).wpmask = s.wpmask := by simp [State.countRetired]
@[simp] theorem State.countRetired_devnum (s : State) (k : Ctx) : (s.countRetired k).devnum = s.devnum := by simp [State.countRetired]
@[simp] theorem State.countRetired_faultQ (s : State) (k : Ctx) : (s.countRetired k).faultQ = s.faultQ := by simp [State.countRetired]
@[simp] theorem State.countRetired_faultSeq (s : State) (k : Ctx) : (s.countRetired k).faultSeq = s.faultSeq := by simp [State.countRetired]
@[simp] theorem State.countRetired_resolv (s : State) (k : Ctx) : (s.countRetired k).resolv = s.resolv := by simp [State.countRetired]
@[simp] theorem State.countRetired_clks (s : State) (k : Ctx) : (s.countRetired k).clks = s.clks := by simp [State.countRetired]
@[simp] theorem State.countRetired_dieClk (s : State) (k : Ctx) : (s.countRetired k).dieClk = s.dieClk := by simp [State.countRetired]
@[simp] theorem State.countRetired_nextReq (s : State) (k : Ctx) : (s.countRetired k).nextReq = s.nextReq := by simp [State.countRetired]
@[simp] theorem State.countRetired_ports (s : State) (k : Ctx) : (s.countRetired k).ports = s.ports := by simp [State.countRetired]
@[simp] theorem State.countRetired_spareLanes (s : State) (k : Ctx) : (s.countRetired k).spareLanes = s.spareLanes :=
  by simp [State.countRetired]
@[simp] theorem State.countRetired_routes (s : State) (k : Ctx) : (s.countRetired k).routes = s.routes := by simp [State.countRetired]
@[simp] theorem State.countRetired_qps (s : State) (k : Ctx) : (s.countRetired k).qps = s.qps := by simp [State.countRetired]
@[simp] theorem State.countRetired_ethOpen (s : State) (k : Ctx) : (s.countRetired k).ethOpen = s.ethOpen := by simp [State.countRetired]
@[simp] theorem State.countRetired_pfc (s : State) (k : Ctx) : (s.countRetired k).pfc = s.pfc := by simp [State.countRetired]
@[simp] theorem State.countRetired_ethQ (s : State) (k : Ctx) : (s.countRetired k).ethQ = s.ethQ := by simp [State.countRetired]
@[simp] theorem State.countRetired_rx (s : State) (k : Ctx) : (s.countRetired k).rx = s.rx := by simp [State.countRetired]
@[simp] theorem State.countRetired_arb (s : State) (k : Ctx) : (s.countRetired k).arb = s.arb := by simp [State.countRetired]
@[simp] theorem State.countRetired_pend (s : State) (k : Ctx) : (s.countRetired k).pend = s.pend := by simp [State.countRetired]
@[simp] theorem State.countRetired_sent (s : State) (k : Ctx) : (s.countRetired k).sent = s.sent := by simp [State.countRetired]
@[simp] theorem State.countRetired_mg (s : State) (k : Ctx) : (s.countRetired k).mg = s.mg := by simp [State.countRetired]
@[simp] theorem State.countRetired_agenda (s : State) (k : Ctx) : (s.countRetired k).agenda = s.agenda := by simp [State.countRetired]
@[simp] theorem State.countRetired_oracle (s : State) (k : Ctx) : (s.countRetired k).oracle = s.oracle := by simp [State.countRetired]
@[simp] theorem State.countRetired_cur (s : State) (k : Ctx) : (s.countRetired k).cur = s.cur := by simp [State.countRetired]
@[simp] theorem State.countRetired_freeCtr (s : State) (k : Ctx) : (s.countRetired k).freeCtr = s.freeCtr := by simp [State.countRetired]
@[simp] theorem State.countRetired_lag (s : State) (k : Ctx) : (s.countRetired k).lag = s.lag := by simp [State.countRetired]
@[simp] theorem retire_nextCast (s : State) (k : Ctx) (t : Thread) (n : DWord) (b : Bool) : (retire s k t n b).nextCast = s.nextCast := by
  unfold retire; simp
@[simp] theorem retire_plots (s : State) (k : Ctx) (t : Thread) (n : DWord) (b : Bool) : (retire s k t n b).plots = s.plots := by
  unfold retire; simp
@[simp] theorem retire_scenes (s : State) (k : Ctx) (t : Thread) (n : DWord) (b : Bool) : (retire s k t n b).scenes = s.scenes := by
  unfold retire; simp
@[simp] theorem retire_nextScene (s : State) (k : Ctx) (t : Thread) (n : DWord) (b : Bool) : (retire s k t n b).nextScene = s.nextScene := by
  unfold retire; simp
@[simp] theorem retire_allots (s : State) (k : Ctx) (t : Thread) (n : DWord) (b : Bool) : (retire s k t n b).allots = s.allots := by
  unfold retire; simp
@[simp] theorem retire_mem (s : State) (k : Ctx) (t : Thread) (n : DWord) (b : Bool) : (retire s k t n b).mem = s.mem := by
  unfold retire; simp
@[simp] theorem retire_cmn (s : State) (k : Ctx) (t : Thread) (n : DWord) (b : Bool) : (retire s k t n b).cmn = s.cmn := by
  unfold retire; simp
@[simp] theorem retire_peers (s : State) (k : Ctx) (t : Thread) (n : DWord) (b : Bool) : (retire s k t n b).peers = s.peers := by
  unfold retire; simp
@[simp] theorem retire_frames (s : State) (k : Ctx) (t : Thread) (n : DWord) (b : Bool) : (retire s k t n b).frames = s.frames := by
  unfold retire; simp
@[simp] theorem retire_keys (s : State) (k : Ctx) (t : Thread) (n : DWord) (b : Bool) : (retire s k t n b).keys = s.keys := by
  unfold retire; simp
@[simp] theorem retire_nextKey (s : State) (k : Ctx) (t : Thread) (n : DWord) (b : Bool) : (retire s k t n b).nextKey = s.nextKey := by
  unfold retire; simp
@[simp] theorem retire_errLines (s : State) (k : Ctx) (t : Thread) (n : DWord) (b : Bool) : (retire s k t n b).errLines = s.errLines := by
  unfold retire; simp
@[simp] theorem retire_lostLines (s : State) (k : Ctx) (t : Thread) (n : DWord) (b : Bool) : (retire s k t n b).lostLines = s.lostLines := by
  unfold retire; simp
@[simp] theorem retire_slines (s : State) (k : Ctx) (t : Thread) (n : DWord) (b : Bool) : (retire s k t n b).slines = s.slines := by
  unfold retire; simp
@[simp] theorem retire_mtlb (s : State) (k : Ctx) (t : Thread) (n : DWord) (b : Bool) : (retire s k t n b).mtlb = s.mtlb := by
  unfold retire; simp
@[simp] theorem retire_owns (s : State) (k : Ctx) (t : Thread) (n : DWord) (b : Bool) : (retire s k t n b).owns = s.owns := by
  unfold retire; simp
@[simp] theorem retire_nextOwn (s : State) (k : Ctx) (t : Thread) (n : DWord) (b : Bool) : (retire s k t n b).nextOwn = s.nextOwn := by
  unfold retire; simp
@[simp] theorem retire_nextHeld (s : State) (k : Ctx) (t : Thread) (n : DWord) (b : Bool) : (retire s k t n b).nextHeld = s.nextHeld := by
  unfold retire; simp
@[simp] theorem retire_win (s : State) (k : Ctx) (t : Thread) (n : DWord) (b : Bool) : (retire s k t n b).win = s.win := by
  unfold retire; simp
@[simp] theorem retire_wpmask (s : State) (k : Ctx) (t : Thread) (n : DWord) (b : Bool) : (retire s k t n b).wpmask = s.wpmask := by
  unfold retire; simp
@[simp] theorem retire_devnum (s : State) (k : Ctx) (t : Thread) (n : DWord) (b : Bool) : (retire s k t n b).devnum = s.devnum := by
  unfold retire; simp
@[simp] theorem retire_faultQ (s : State) (k : Ctx) (t : Thread) (n : DWord) (b : Bool) : (retire s k t n b).faultQ = s.faultQ := by
  unfold retire; simp
@[simp] theorem retire_faultSeq (s : State) (k : Ctx) (t : Thread) (n : DWord) (b : Bool) : (retire s k t n b).faultSeq = s.faultSeq := by
  unfold retire; simp
@[simp] theorem retire_resolv (s : State) (k : Ctx) (t : Thread) (n : DWord) (b : Bool) : (retire s k t n b).resolv = s.resolv := by
  unfold retire; simp
@[simp] theorem retire_clks (s : State) (k : Ctx) (t : Thread) (n : DWord) (b : Bool) : (retire s k t n b).clks = s.clks := by
  unfold retire; simp
@[simp] theorem retire_dieClk (s : State) (k : Ctx) (t : Thread) (n : DWord) (b : Bool) : (retire s k t n b).dieClk = s.dieClk := by
  unfold retire; simp
@[simp] theorem retire_nextReq (s : State) (k : Ctx) (t : Thread) (n : DWord) (b : Bool) : (retire s k t n b).nextReq = s.nextReq := by
  unfold retire; simp
@[simp] theorem retire_ports (s : State) (k : Ctx) (t : Thread) (n : DWord) (b : Bool) : (retire s k t n b).ports = s.ports := by
  unfold retire; simp
@[simp] theorem retire_spareLanes (s : State) (k : Ctx) (t : Thread) (n : DWord) (b : Bool) : (retire s k t n b).spareLanes = s.spareLanes := by
  unfold retire; simp
@[simp] theorem retire_routes (s : State) (k : Ctx) (t : Thread) (n : DWord) (b : Bool) : (retire s k t n b).routes = s.routes := by
  unfold retire; simp
@[simp] theorem retire_qps (s : State) (k : Ctx) (t : Thread) (n : DWord) (b : Bool) : (retire s k t n b).qps = s.qps := by
  unfold retire; simp
@[simp] theorem retire_ethOpen (s : State) (k : Ctx) (t : Thread) (n : DWord) (b : Bool) : (retire s k t n b).ethOpen = s.ethOpen := by
  unfold retire; simp
@[simp] theorem retire_pfc (s : State) (k : Ctx) (t : Thread) (n : DWord) (b : Bool) : (retire s k t n b).pfc = s.pfc := by
  unfold retire; simp
@[simp] theorem retire_ethQ (s : State) (k : Ctx) (t : Thread) (n : DWord) (b : Bool) : (retire s k t n b).ethQ = s.ethQ := by
  unfold retire; simp
@[simp] theorem retire_rx (s : State) (k : Ctx) (t : Thread) (n : DWord) (b : Bool) : (retire s k t n b).rx = s.rx := by
  unfold retire; simp
@[simp] theorem retire_arb (s : State) (k : Ctx) (t : Thread) (n : DWord) (b : Bool) : (retire s k t n b).arb = s.arb := by
  unfold retire; simp
@[simp] theorem retire_pend (s : State) (k : Ctx) (t : Thread) (n : DWord) (b : Bool) : (retire s k t n b).pend = s.pend := by
  unfold retire; simp
@[simp] theorem retire_sent (s : State) (k : Ctx) (t : Thread) (n : DWord) (b : Bool) : (retire s k t n b).sent = s.sent := by
  unfold retire; simp
@[simp] theorem retire_mg (s : State) (k : Ctx) (t : Thread) (n : DWord) (b : Bool) : (retire s k t n b).mg = s.mg := by
  unfold retire; simp
@[simp] theorem retire_agenda (s : State) (k : Ctx) (t : Thread) (n : DWord) (b : Bool) : (retire s k t n b).agenda = s.agenda := by
  unfold retire; simp
@[simp] theorem retire_oracle (s : State) (k : Ctx) (t : Thread) (n : DWord) (b : Bool) : (retire s k t n b).oracle = s.oracle := by
  unfold retire; simp
@[simp] theorem retire_cur (s : State) (k : Ctx) (t : Thread) (n : DWord) (b : Bool) : (retire s k t n b).cur = s.cur := by
  unfold retire; simp
@[simp] theorem retire_freeCtr (s : State) (k : Ctx) (t : Thread) (n : DWord) (b : Bool) : (retire s k t n b).freeCtr = s.freeCtr := by
  unfold retire; simp
@[simp] theorem retire_lag (s : State) (k : Ctx) (t : Thread) (n : DWord) (b : Bool) : (retire s k t n b).lag = s.lag := by
  unfold retire; simp
@[simp] theorem State.countClamp_nextCast (s : State) (c w : Nat) (b : Bool) : (s.countClamp c w b).nextCast = s.nextCast :=
  by unfold State.countClamp; split <;> simp
@[simp] theorem State.countClamp_plots (s : State) (c w : Nat) (b : Bool) : (s.countClamp c w b).plots = s.plots :=
  by unfold State.countClamp; split <;> simp
@[simp] theorem State.countClamp_scenes (s : State) (c w : Nat) (b : Bool) : (s.countClamp c w b).scenes = s.scenes :=
  by unfold State.countClamp; split <;> simp
@[simp] theorem State.countClamp_nextScene (s : State) (c w : Nat) (b : Bool) : (s.countClamp c w b).nextScene = s.nextScene :=
  by unfold State.countClamp; split <;> simp
@[simp] theorem State.countClamp_allots (s : State) (c w : Nat) (b : Bool) : (s.countClamp c w b).allots = s.allots :=
  by unfold State.countClamp; split <;> simp
@[simp] theorem State.countClamp_mem (s : State) (c w : Nat) (b : Bool) : (s.countClamp c w b).mem = s.mem :=
  by unfold State.countClamp; split <;> simp
@[simp] theorem State.countClamp_cmn (s : State) (c w : Nat) (b : Bool) : (s.countClamp c w b).cmn = s.cmn :=
  by unfold State.countClamp; split <;> simp
@[simp] theorem State.countClamp_peers (s : State) (c w : Nat) (b : Bool) : (s.countClamp c w b).peers = s.peers :=
  by unfold State.countClamp; split <;> simp
@[simp] theorem State.countClamp_frames (s : State) (c w : Nat) (b : Bool) : (s.countClamp c w b).frames = s.frames :=
  by unfold State.countClamp; split <;> simp
@[simp] theorem State.countClamp_keys (s : State) (c w : Nat) (b : Bool) : (s.countClamp c w b).keys = s.keys :=
  by unfold State.countClamp; split <;> simp
@[simp] theorem State.countClamp_nextKey (s : State) (c w : Nat) (b : Bool) : (s.countClamp c w b).nextKey = s.nextKey :=
  by unfold State.countClamp; split <;> simp
@[simp] theorem State.countClamp_errLines (s : State) (c w : Nat) (b : Bool) : (s.countClamp c w b).errLines = s.errLines :=
  by unfold State.countClamp; split <;> simp
@[simp] theorem State.countClamp_lostLines (s : State) (c w : Nat) (b : Bool) : (s.countClamp c w b).lostLines = s.lostLines :=
  by unfold State.countClamp; split <;> simp
@[simp] theorem State.countClamp_slines (s : State) (c w : Nat) (b : Bool) : (s.countClamp c w b).slines = s.slines :=
  by unfold State.countClamp; split <;> simp
@[simp] theorem State.countClamp_mtlb (s : State) (c w : Nat) (b : Bool) : (s.countClamp c w b).mtlb = s.mtlb :=
  by unfold State.countClamp; split <;> simp
@[simp] theorem State.countClamp_owns (s : State) (c w : Nat) (b : Bool) : (s.countClamp c w b).owns = s.owns :=
  by unfold State.countClamp; split <;> simp
@[simp] theorem State.countClamp_nextOwn (s : State) (c w : Nat) (b : Bool) : (s.countClamp c w b).nextOwn = s.nextOwn :=
  by unfold State.countClamp; split <;> simp
@[simp] theorem State.countClamp_nextHeld (s : State) (c w : Nat) (b : Bool) : (s.countClamp c w b).nextHeld = s.nextHeld :=
  by unfold State.countClamp; split <;> simp
@[simp] theorem State.countClamp_win (s : State) (c w : Nat) (b : Bool) : (s.countClamp c w b).win = s.win :=
  by unfold State.countClamp; split <;> simp
@[simp] theorem State.countClamp_wpmask (s : State) (c w : Nat) (b : Bool) : (s.countClamp c w b).wpmask = s.wpmask :=
  by unfold State.countClamp; split <;> simp
@[simp] theorem State.countClamp_devnum (s : State) (c w : Nat) (b : Bool) : (s.countClamp c w b).devnum = s.devnum :=
  by unfold State.countClamp; split <;> simp
@[simp] theorem State.countClamp_faultQ (s : State) (c w : Nat) (b : Bool) : (s.countClamp c w b).faultQ = s.faultQ :=
  by unfold State.countClamp; split <;> simp
@[simp] theorem State.countClamp_faultSeq (s : State) (c w : Nat) (b : Bool) : (s.countClamp c w b).faultSeq = s.faultSeq :=
  by unfold State.countClamp; split <;> simp
@[simp] theorem State.countClamp_resolv (s : State) (c w : Nat) (b : Bool) : (s.countClamp c w b).resolv = s.resolv :=
  by unfold State.countClamp; split <;> simp
@[simp] theorem State.countClamp_clks (s : State) (c w : Nat) (b : Bool) : (s.countClamp c w b).clks = s.clks :=
  by unfold State.countClamp; split <;> simp
@[simp] theorem State.countClamp_dieClk (s : State) (c w : Nat) (b : Bool) : (s.countClamp c w b).dieClk = s.dieClk :=
  by unfold State.countClamp; split <;> simp
@[simp] theorem State.countClamp_nextReq (s : State) (c w : Nat) (b : Bool) : (s.countClamp c w b).nextReq = s.nextReq :=
  by unfold State.countClamp; split <;> simp
@[simp] theorem State.countClamp_ports (s : State) (c w : Nat) (b : Bool) : (s.countClamp c w b).ports = s.ports :=
  by unfold State.countClamp; split <;> simp
@[simp] theorem State.countClamp_spareLanes (s : State) (c w : Nat) (b : Bool) : (s.countClamp c w b).spareLanes = s.spareLanes :=
  by unfold State.countClamp; split <;> simp
@[simp] theorem State.countClamp_routes (s : State) (c w : Nat) (b : Bool) : (s.countClamp c w b).routes = s.routes :=
  by unfold State.countClamp; split <;> simp
@[simp] theorem State.countClamp_qps (s : State) (c w : Nat) (b : Bool) : (s.countClamp c w b).qps = s.qps :=
  by unfold State.countClamp; split <;> simp
@[simp] theorem State.countClamp_ethOpen (s : State) (c w : Nat) (b : Bool) : (s.countClamp c w b).ethOpen = s.ethOpen :=
  by unfold State.countClamp; split <;> simp
@[simp] theorem State.countClamp_pfc (s : State) (c w : Nat) (b : Bool) : (s.countClamp c w b).pfc = s.pfc :=
  by unfold State.countClamp; split <;> simp
@[simp] theorem State.countClamp_ethQ (s : State) (c w : Nat) (b : Bool) : (s.countClamp c w b).ethQ = s.ethQ :=
  by unfold State.countClamp; split <;> simp
@[simp] theorem State.countClamp_rx (s : State) (c w : Nat) (b : Bool) : (s.countClamp c w b).rx = s.rx :=
  by unfold State.countClamp; split <;> simp
@[simp] theorem State.countClamp_arb (s : State) (c w : Nat) (b : Bool) : (s.countClamp c w b).arb = s.arb :=
  by unfold State.countClamp; split <;> simp
@[simp] theorem State.countClamp_pend (s : State) (c w : Nat) (b : Bool) : (s.countClamp c w b).pend = s.pend :=
  by unfold State.countClamp; split <;> simp
@[simp] theorem State.countClamp_sent (s : State) (c w : Nat) (b : Bool) : (s.countClamp c w b).sent = s.sent :=
  by unfold State.countClamp; split <;> simp
@[simp] theorem State.countClamp_mg (s : State) (c w : Nat) (b : Bool) : (s.countClamp c w b).mg = s.mg :=
  by unfold State.countClamp; split <;> simp
@[simp] theorem State.countClamp_agenda (s : State) (c w : Nat) (b : Bool) : (s.countClamp c w b).agenda = s.agenda :=
  by unfold State.countClamp; split <;> simp
@[simp] theorem State.countClamp_oracle (s : State) (c w : Nat) (b : Bool) : (s.countClamp c w b).oracle = s.oracle :=
  by unfold State.countClamp; split <;> simp
@[simp] theorem State.countClamp_cur (s : State) (c w : Nat) (b : Bool) : (s.countClamp c w b).cur = s.cur :=
  by unfold State.countClamp; split <;> simp
@[simp] theorem State.countClamp_freeCtr (s : State) (c w : Nat) (b : Bool) : (s.countClamp c w b).freeCtr = s.freeCtr :=
  by unfold State.countClamp; split <;> simp
@[simp] theorem State.countClamp_lag (s : State) (c w : Nat) (b : Bool) : (s.countClamp c w b).lag = s.lag :=
  by unfold State.countClamp; split <;> simp
@[simp] theorem State.onGraph_casts (s : State) (al g : Nat) (f : Graph → Graph) : (s.onGraph al g f).casts = s.casts :=
  by simp [State.onGraph]
@[simp] theorem State.onGraph_nextCast (s : State) (al g : Nat) (f : Graph → Graph) : (s.onGraph al g f).nextCast = s.nextCast :=
  by simp [State.onGraph]
@[simp] theorem State.onGraph_plots (s : State) (al g : Nat) (f : Graph → Graph) : (s.onGraph al g f).plots = s.plots :=
  by simp [State.onGraph]
@[simp] theorem State.onGraph_scenes (s : State) (al g : Nat) (f : Graph → Graph) : (s.onGraph al g f).scenes = s.scenes :=
  by simp [State.onGraph]
@[simp] theorem State.onGraph_nextScene (s : State) (al g : Nat) (f : Graph → Graph) : (s.onGraph al g f).nextScene = s.nextScene :=
  by simp [State.onGraph]
@[simp] theorem State.onGraph_mem (s : State) (al g : Nat) (f : Graph → Graph) : (s.onGraph al g f).mem = s.mem := by simp [State.onGraph]
@[simp] theorem State.onGraph_cmn (s : State) (al g : Nat) (f : Graph → Graph) : (s.onGraph al g f).cmn = s.cmn := by simp [State.onGraph]
@[simp] theorem State.onGraph_peers (s : State) (al g : Nat) (f : Graph → Graph) : (s.onGraph al g f).peers = s.peers :=
  by simp [State.onGraph]
@[simp] theorem State.onGraph_frames (s : State) (al g : Nat) (f : Graph → Graph) : (s.onGraph al g f).frames = s.frames :=
  by simp [State.onGraph]
@[simp] theorem State.onGraph_keys (s : State) (al g : Nat) (f : Graph → Graph) : (s.onGraph al g f).keys = s.keys :=
  by simp [State.onGraph]
@[simp] theorem State.onGraph_nextKey (s : State) (al g : Nat) (f : Graph → Graph) : (s.onGraph al g f).nextKey = s.nextKey :=
  by simp [State.onGraph]
@[simp] theorem State.onGraph_errLines (s : State) (al g : Nat) (f : Graph → Graph) : (s.onGraph al g f).errLines = s.errLines :=
  by simp [State.onGraph]
@[simp] theorem State.onGraph_lostLines (s : State) (al g : Nat) (f : Graph → Graph) : (s.onGraph al g f).lostLines = s.lostLines :=
  by simp [State.onGraph]
@[simp] theorem State.onGraph_slines (s : State) (al g : Nat) (f : Graph → Graph) : (s.onGraph al g f).slines = s.slines :=
  by simp [State.onGraph]
@[simp] theorem State.onGraph_mtlb (s : State) (al g : Nat) (f : Graph → Graph) : (s.onGraph al g f).mtlb = s.mtlb :=
  by simp [State.onGraph]
@[simp] theorem State.onGraph_owns (s : State) (al g : Nat) (f : Graph → Graph) : (s.onGraph al g f).owns = s.owns :=
  by simp [State.onGraph]
@[simp] theorem State.onGraph_nextOwn (s : State) (al g : Nat) (f : Graph → Graph) : (s.onGraph al g f).nextOwn = s.nextOwn :=
  by simp [State.onGraph]
@[simp] theorem State.onGraph_nextHeld (s : State) (al g : Nat) (f : Graph → Graph) : (s.onGraph al g f).nextHeld = s.nextHeld :=
  by simp [State.onGraph]
@[simp] theorem State.onGraph_win (s : State) (al g : Nat) (f : Graph → Graph) : (s.onGraph al g f).win = s.win := by simp [State.onGraph]
@[simp] theorem State.onGraph_wpmask (s : State) (al g : Nat) (f : Graph → Graph) : (s.onGraph al g f).wpmask = s.wpmask :=
  by simp [State.onGraph]
@[simp] theorem State.onGraph_devnum (s : State) (al g : Nat) (f : Graph → Graph) : (s.onGraph al g f).devnum = s.devnum :=
  by simp [State.onGraph]
@[simp] theorem State.onGraph_faultQ (s : State) (al g : Nat) (f : Graph → Graph) : (s.onGraph al g f).faultQ = s.faultQ :=
  by simp [State.onGraph]
@[simp] theorem State.onGraph_faultSeq (s : State) (al g : Nat) (f : Graph → Graph) : (s.onGraph al g f).faultSeq = s.faultSeq :=
  by simp [State.onGraph]
@[simp] theorem State.onGraph_resolv (s : State) (al g : Nat) (f : Graph → Graph) : (s.onGraph al g f).resolv = s.resolv :=
  by simp [State.onGraph]
@[simp] theorem State.onGraph_clks (s : State) (al g : Nat) (f : Graph → Graph) : (s.onGraph al g f).clks = s.clks :=
  by simp [State.onGraph]
@[simp] theorem State.onGraph_dieClk (s : State) (al g : Nat) (f : Graph → Graph) : (s.onGraph al g f).dieClk = s.dieClk :=
  by simp [State.onGraph]
@[simp] theorem State.onGraph_nextReq (s : State) (al g : Nat) (f : Graph → Graph) : (s.onGraph al g f).nextReq = s.nextReq :=
  by simp [State.onGraph]
@[simp] theorem State.onGraph_ports (s : State) (al g : Nat) (f : Graph → Graph) : (s.onGraph al g f).ports = s.ports :=
  by simp [State.onGraph]
@[simp] theorem State.onGraph_spareLanes (s : State) (al g : Nat) (f : Graph → Graph) : (s.onGraph al g f).spareLanes = s.spareLanes :=
  by simp [State.onGraph]
@[simp] theorem State.onGraph_routes (s : State) (al g : Nat) (f : Graph → Graph) : (s.onGraph al g f).routes = s.routes :=
  by simp [State.onGraph]
@[simp] theorem State.onGraph_qps (s : State) (al g : Nat) (f : Graph → Graph) : (s.onGraph al g f).qps = s.qps := by simp [State.onGraph]
@[simp] theorem State.onGraph_ethOpen (s : State) (al g : Nat) (f : Graph → Graph) : (s.onGraph al g f).ethOpen = s.ethOpen :=
  by simp [State.onGraph]
@[simp] theorem State.onGraph_pfc (s : State) (al g : Nat) (f : Graph → Graph) : (s.onGraph al g f).pfc = s.pfc := by simp [State.onGraph]
@[simp] theorem State.onGraph_ethQ (s : State) (al g : Nat) (f : Graph → Graph) : (s.onGraph al g f).ethQ = s.ethQ :=
  by simp [State.onGraph]
@[simp] theorem State.onGraph_rx (s : State) (al g : Nat) (f : Graph → Graph) : (s.onGraph al g f).rx = s.rx := by simp [State.onGraph]
@[simp] theorem State.onGraph_arb (s : State) (al g : Nat) (f : Graph → Graph) : (s.onGraph al g f).arb = s.arb := by simp [State.onGraph]
@[simp] theorem State.onGraph_pend (s : State) (al g : Nat) (f : Graph → Graph) : (s.onGraph al g f).pend = s.pend :=
  by simp [State.onGraph]
@[simp] theorem State.onGraph_sent (s : State) (al g : Nat) (f : Graph → Graph) : (s.onGraph al g f).sent = s.sent :=
  by simp [State.onGraph]
@[simp] theorem State.onGraph_mg (s : State) (al g : Nat) (f : Graph → Graph) : (s.onGraph al g f).mg = s.mg := by simp [State.onGraph]
@[simp] theorem State.onGraph_agenda (s : State) (al g : Nat) (f : Graph → Graph) : (s.onGraph al g f).agenda = s.agenda :=
  by simp [State.onGraph]
@[simp] theorem State.onGraph_oracle (s : State) (al g : Nat) (f : Graph → Graph) : (s.onGraph al g f).oracle = s.oracle :=
  by simp [State.onGraph]
@[simp] theorem State.onGraph_cur (s : State) (al g : Nat) (f : Graph → Graph) : (s.onGraph al g f).cur = s.cur := by simp [State.onGraph]
@[simp] theorem State.onGraph_freeCtr (s : State) (al g : Nat) (f : Graph → Graph) : (s.onGraph al g f).freeCtr = s.freeCtr :=
  by simp [State.onGraph]
@[simp] theorem State.onGraph_lag (s : State) (al g : Nat) (f : Graph → Graph) : (s.onGraph al g f).lag = s.lag := by simp [State.onGraph]

/-! ### Reading after an update -/

@[simp] theorem State.plot_onPlot_same (s : State) (p : Nat) (f : Plot → Plot) : (s.onPlot p f).plot p = f (s.plot p) := by
  simp [State.onPlot, State.setPlot, State.plot]

@[simp] theorem State.plot_onPlot_ne (s : State) (p q : Nat) (f : Plot → Plot) (h : q ≠ p) : (s.onPlot p f).plot q = s.plot q := by
  simp [State.onPlot, State.setPlot, State.plot, h]

@[simp] theorem State.plot_setPlot_same (s : State) (p : Nat) (v : Plot) : (s.setPlot p v).plot p = v := by
  simp [State.setPlot, State.plot]

@[simp] theorem State.plot_setPlot_ne (s : State) (p q : Nat) (v : Plot) (h : q ≠ p) : (s.setPlot p v).plot q = s.plot q := by
  simp [State.setPlot, State.plot, h]

@[simp] theorem State.plot_onCast (s : State) (n p : Nat) (f : Cast → Cast) : (s.onCast n f).plot p = s.plot p := by simp [State.plot]
@[simp] theorem State.plot_setThread (s : State) (r : TRef) (v : Thread) (p : Nat) : (s.setThread r v).plot p = s.plot p := by
  simp [State.plot]

@[simp] theorem State.look_onCast_same (s : State) (n : Nat) (f : Cast → Cast) :
    look (s.onCast n f).casts n = (look s.casts n).map f := by
  unfold State.onCast
  split <;> simp_all [State.setCast]

@[simp] theorem State.look_onCast_ne (s : State) (n m : Nat) (f : Cast → Cast) (h : m ≠ n) :
    look (s.onCast n f).casts m = look s.casts m := by
  unfold State.onCast
  split <;> simp_all [State.setCast]

@[simp] theorem State.look_onAllot_same (s : State) (n : Nat) (f : Allot → Allot) :
    look (s.onAllot n f).allots n = (look s.allots n).map f := by
  unfold State.onAllot
  split <;> simp_all

@[simp] theorem State.look_onAllot_ne (s : State) (n m : Nat) (f : Allot → Allot) (h : m ≠ n) :
    look (s.onAllot n f).allots m = look s.allots m := by
  unfold State.onAllot
  split <;> simp_all

@[simp] theorem State.look_onScene_same (s : State) (n : Nat) (f : Scene → Scene) :
    look (s.onScene n f).scenes n = (look s.scenes n).map f := by
  unfold State.onScene
  split <;> simp_all

@[simp] theorem State.look_onScene_ne (s : State) (n m : Nat) (f : Scene → Scene) (h : m ≠ n) :
    look (s.onScene n f).scenes m = look s.scenes m := by
  unfold State.onScene
  split <;> simp_all

/-- The thread that was stored is read back, where its cast is there. -/
theorem State.thread_setThread_same (s : State) (r : TRef) (v : Thread) (c : Cast) (h : look s.casts r.c = some c) :
    (s.setThread r v).thread? r = some v := by
  simp [State.setThread, State.thread?, h, Cast.setThread]

/-- Storing a thread changes no other. -/
theorem State.thread_setThread_ne (s : State) (r q : TRef) (v : Thread) (h : q ≠ r) :
    (s.setThread r v).thread? q = s.thread? q := by
  by_cases hc : q.c = r.c
  · have ht : q.t ≠ r.t := by intro e; apply h; cases q; cases r; simp_all
    cases hl : look s.casts r.c <;> simp [State.setThread, State.thread?, hc, hl, Cast.setThread, ht]
  · simp [State.setThread, State.thread?, hc]

/-- The thread of a context stands in its cast. -/
theorem State.ctx_cast {s : State} {k : Ctx} (h : s.ctx = some k) : look s.casts k.r.c = some k.c := by
  unfold State.ctx at h
  cases hc : s.cur with
  | none => simp [hc] at h
  | some r =>
    simp only [hc, Option.bind_some] at h
    cases hl : look s.casts r.c with
    | none => simp [hl] at h
    | some c =>
      simp only [hl, Option.bind_some] at h
      split at h
      · cases ht : look c.threads r.t with
        | none => simp [ht] at h
        | some t =>
          simp only [ht, Option.bind_some] at h
          split at h
          · cases h; exact hl
          · exact absurd h (by simp)
      · exact absurd h (by simp)

/-- The thread of a context stands in its slot, and is READY. -/
theorem State.ctx_thread {s : State} {k : Ctx} (h : s.ctx = some k) : look k.c.threads k.r.t = some k.t ∧ k.t.st = .ready := by
  unfold State.ctx at h
  cases hc : s.cur with
  | none => simp [hc] at h
  | some r =>
    simp only [hc, Option.bind_some] at h
    cases hl : look s.casts r.c with
    | none => simp [hl] at h
    | some c =>
      simp only [hl, Option.bind_some] at h
      split at h
      · cases ht : look c.threads r.t with
        | none => simp [ht] at h
        | some t =>
          simp only [ht, Option.bind_some] at h
          split at h
          · rename_i hr; cases h; exact ⟨ht, hr⟩
          · exact absurd h (by simp)
      · exact absurd h (by simp)

/-- The context of a thread after the thread was stored. -/
theorem State.ctxAt_setThread (s : State) (r : TRef) (v : Thread) (c : Cast) (h : look s.casts r.c = some c) :
    (s.setThread r v).ctxAt r = some { r := r, c := c.setThread r.t v, t := v } := by
  simp [State.setThread, State.ctxAt, h, Cast.setThread]

end Sys2Proof.Machine
end

