-- ==== Sys2Proof/Laws/Memory.lean ====
section
/-!
SUPPORT. The canonical form of a memory (addresses rising, no byte listed as 0): every operation keeps it, and what each leaves at
every other address; and the operations of the state over memory that keep the invariant.
-/

namespace Sys2Proof.Machine

open Sys2Proof

/-! ### One list -/

theorem Memory.wfFrom_cons (lo b : Nat) (w : Byte) (r : List Host.Cell) :
    Memory.wfFrom lo ((b, w) :: r) = true ↔ lo ≤ b ∧ w ≠ 0 ∧ Memory.wfFrom (b + 1) r = true := by
  simp [Memory.wfFrom, Bool.and_eq_true, and_assoc]

theorem Memory.wfFrom_mono {m : List Host.Cell} {lo hi : Nat} (h : Memory.wfFrom hi m = true) (le : lo ≤ hi) :
    Memory.wfFrom lo m = true := by
  cases m with
  | nil => rfl
  | cons c r => obtain ⟨b, w⟩ := c; rw [Memory.wfFrom_cons] at h ⊢; exact ⟨by omega, h.2⟩

/-- Below the first listed address every byte reads 0. -/
theorem Memory.byte_low {m : List Host.Cell} {lo a : Nat} (h : Memory.wfFrom lo m = true) (lt : a < lo) : Memory.byte m a = 0 := by
  induction m generalizing lo with
  | nil => rfl
  | cons c r ih =>
    obtain ⟨b, w⟩ := c
    rw [Memory.wfFrom_cons] at h
    simp only [Memory.byte]
    rw [if_neg (by omega)]
    exact ih h.2.2 (by omega)

theorem Memory.setByte_wfFrom {m : List Host.Cell} {lo a : Nat} (v : Byte) (h : Memory.wfFrom lo m = true) (le : lo ≤ a) :
    Memory.wfFrom lo (Memory.setByte m a v) = true := by
  induction m generalizing lo with
  | nil => by_cases hv : v = 0#8 <;> simp [Memory.setByte, Memory.wfFrom, hv, le]
  | cons c r ih =>
    obtain ⟨b, w⟩ := c
    have h' := (Memory.wfFrom_cons ..).1 h
    simp only [Memory.setByte]
    split
    · split
      · exact h
      · rename_i lt hv
        exact (Memory.wfFrom_cons ..).2 ⟨le, hv, (Memory.wfFrom_cons ..).2 ⟨by omega, h'.2⟩⟩
    · split
      · rename_i eq
        subst eq
        split
        · exact Memory.wfFrom_mono h'.2.2 (by omega)
        · rename_i hv; exact (Memory.wfFrom_cons ..).2 ⟨le, hv, h'.2.2⟩
      · exact (Memory.wfFrom_cons ..).2 ⟨h'.1, h'.2.1, ih h'.2.2 (by omega)⟩

theorem Memory.setByte_wf {m : List Host.Cell} (a : Nat) (v : Byte) (h : Memory.wf m = true) : Memory.wf (Memory.setByte m a v) = true :=
  Memory.setByte_wfFrom v h (Nat.zero_le a)

theorem Memory.byte_setByte_ne (m : List Host.Cell) {a b : Nat} (v : Byte) (ne : b ≠ a) :
    Memory.byte (Memory.setByte m a v) b = Memory.byte m b := by
  induction m with
  | nil => by_cases hv : v = 0#8 <;> simp [Memory.setByte, Memory.byte, hv, Ne.symm ne]
  | cons c r ih =>
    obtain ⟨d, w⟩ := c
    simp only [Memory.setByte]
    split
    · split <;> simp [Memory.byte, Ne.symm ne]
    · split
      · rename_i eq; subst eq
        split <;> simp [Memory.byte, Ne.symm ne]
      · simp only [Memory.byte]; split
        · rfl
        · exact ih

theorem Memory.byte_setByte_same {m : List Host.Cell} {lo a : Nat} (v : Byte) (h : Memory.wfFrom lo m = true) :
    Memory.byte (Memory.setByte m a v) a = v := by
  induction m generalizing lo with
  | nil => by_cases hv : v = 0#8 <;> simp [Memory.setByte, Memory.byte, hv]
  | cons c r ih =>
    obtain ⟨b, w⟩ := c
    have h' := (Memory.wfFrom_cons ..).1 h
    simp only [Memory.setByte]
    split
    · split
      · rename_i lt hv
        rw [hv]; simp only [Memory.byte]; rw [if_neg (by omega)]
        exact Memory.byte_low h'.2.2 (by omega)
      · simp [Memory.byte]
    · split
      · rename_i eq
        subst eq
        split
        · rename_i hv; rw [hv]; exact Memory.byte_low h'.2.2 (by omega)
        · simp [Memory.byte]
      · rename_i n1 n2
        simp only [Memory.byte]; rw [if_neg (by omega)]; exact ih h'.2.2

/-- Every store keeps the canonical form. -/
theorem Memory.write_wf {m : List Host.Cell} (a n v : Nat) (h : Memory.wf m = true) : Memory.wf (Memory.write m a n v) = true := by
  induction n generalizing m a v with
  | zero => exact h
  | succ n ih => exact ih _ _ (Memory.setByte_wf _ _ h)

theorem Memory.byte_write_out (m : List Host.Cell) (a n v b : Nat) (out : b < a ∨ a + n ≤ b) :
    Memory.byte (Memory.write m a n v) b = Memory.byte m b := by
  induction n generalizing m a v with
  | zero => rfl
  | succ n ih => rw [Memory.write, ih _ _ _ (by omega), Memory.byte_setByte_ne _ _ (by omega)]

theorem Memory.writeList_wf {m : List Host.Cell} (a : Nat) (bs : List Byte) (h : Memory.wf m = true) :
    Memory.wf (Memory.writeList m a bs) = true := by
  induction bs generalizing m a with
  | nil => exact h
  | cons b bs ih => exact ih _ (Memory.setByte_wf _ _ h)

theorem Memory.byte_writeList_out (m : List Host.Cell) (a : Nat) (bs : List Byte) (b : Nat) (out : b < a ∨ a + bs.length ≤ b) :
    Memory.byte (Memory.writeList m a bs) b = Memory.byte m b := by
  induction bs generalizing m a with
  | nil => rfl
  | cons c bs ih =>
    simp only [List.length_cons] at out
    rw [Memory.writeList, ih _ _ (by omega), Memory.byte_setByte_ne _ _ (by omega)]

theorem Memory.filter_wfFrom {m : List Host.Cell} {lo : Nat} (f : Host.Cell → Bool) (h : Memory.wfFrom lo m = true) :
    Memory.wfFrom lo (m.filter f) = true := by
  induction m generalizing lo with
  | nil => rfl
  | cons c r ih =>
    obtain ⟨b, w⟩ := c
    have h' := (Memory.wfFrom_cons ..).1 h
    rw [List.filter_cons]
    split
    · exact (Memory.wfFrom_cons ..).2 ⟨h'.1, h'.2.1, ih h'.2.2⟩
    · exact Memory.wfFrom_mono (ih h'.2.2) (by omega)

theorem Memory.clear_wf {m : List Host.Cell} (a n : Nat) (h : Memory.wf m = true) : Memory.wf (Memory.clear m a n) = true :=
  Memory.filter_wfFrom _ h

theorem wbBytes_wf {m : List Host.Cell} (a : Nat) (d : BitVec 1024) (k : BitVec 128) (n : Nat) (h : Memory.wf m = true) :
    Memory.wf (wbBytes m a d k n) = true := by
  induction n with
  | zero => exact h
  | succ n ih =>
    simp only [wbBytes]
    split
    · exact Memory.setByte_wf _ _ ih
    · exact ih

theorem Memory.reset_wf : Memory.wf State.reset.mem = true := by decide

/-! ### The state -/

/-- An update that leaves every memory, the casts and the allotments as they are keeps the invariant. -/
theorem State.Inv.of_same {s t : State} (h : s.Inv) (hm : t.mem = s.mem) (hc : t.cmn = s.cmn) (hp : t.peers = s.peers)
    (hk : t.casts = s.casts) (ha : t.allots = s.allots) : t.Inv := by
  obtain ⟨m, c, v⟩ := h
  refine ⟨?_, ?_, ?_⟩
  · simpa [State.memWf, hm, hc, hp] using m
  · simpa [hk] using c
  · simpa [ha] using v

/-- A memory that is replaced by one in canonical form. -/
theorem State.Inv.of_mem {s : State} (h : s.Inv) {m : List Host.Cell} (hm : Memory.wf m = true) : ({ s with mem := m } : State).Inv := by
  obtain ⟨w, c, v⟩ := h
  simp only [State.memWf, Bool.and_eq_true] at w
  exact ⟨by simp [State.memWf, hm, w], c, v⟩

theorem State.Inv.of_cmn {s : State} (h : s.Inv) {m : List Host.Cell} (hm : Memory.wf m = true) : ({ s with cmn := m } : State).Inv := by
  obtain ⟨w, c, v⟩ := h
  simp only [State.memWf, Bool.and_eq_true] at w
  exact ⟨by simp [State.memWf, hm, w], c, v⟩

theorem State.Inv.of_peers {s : State} (h : s.Inv) {m : List Host.Cell} (hm : Memory.wf m = true) : ({ s with peers := m } : State).Inv := by
  obtain ⟨w, c, v⟩ := h
  simp only [State.memWf, Bool.and_eq_true] at w
  exact ⟨by simp [State.memWf, hm, w], c, v⟩

theorem State.Inv.mem_wf {s : State} (h : s.Inv) : Memory.wf s.mem = true := by
  have := h.mems; simp only [State.memWf, Bool.and_eq_true] at this; exact this.1.1

theorem State.Inv.cmn_wf {s : State} (h : s.Inv) : Memory.wf s.cmn = true := by
  have := h.mems; simp only [State.memWf, Bool.and_eq_true] at this; exact this.1.2

theorem State.Inv.peers_wf {s : State} (h : s.Inv) : Memory.wf s.peers = true := by
  have := h.mems; simp only [State.memWf, Bool.and_eq_true] at this; exact this.2

/-- A list of entries after `put` holds the old ones and the new one. -/
theorem mem_put {α : Type} {l : List (Nat × α)} {n : Nat} {v : α} {e : Nat × α} (h : e ∈ put l n v) : e ∈ l ∨ e = (n, v) := by
  induction l with
  | nil => simpa [put] using h
  | cons x r ih =>
    obtain ⟨m, w⟩ := x
    unfold put at h
    split at h
    · rcases List.mem_cons.1 h with h | h
      · exact .inr h
      · exact .inl (List.mem_cons_of_mem _ h)
    · rcases List.mem_cons.1 h with h | h
      · exact .inl (h ▸ List.mem_cons_self ..)
      · rcases ih h with h | h
        · exact .inl (List.mem_cons_of_mem _ h)
        · exact .inr h

/-- An update of a cast that keeps its regions in canonical form keeps the invariant. -/
theorem State.Inv.onCast {s : State} (h : s.Inv) (c : Nat) {f : Cast → Cast} (hf : ∀ k : Cast, k.memWf = true → (f k).memWf = true) :
    (s.onCast c f).Inv := by
  simp only [State.onCast]
  split
  · rename_i k hk
    refine ⟨h.mems, ?_, h.saved⟩
    intro e he
    rcases mem_put he with he | he
    · exact h.casts e he
    · subst he; exact hf k (h.casts _ (mem_of_look hk))
  · exact h

theorem State.Inv.setCast {s : State} (h : s.Inv) (c : Nat) {k : Cast} (hk : k.memWf = true) : (s.setCast c k).Inv := by
  refine ⟨h.mems, ?_, h.saved⟩
  intro e he
  rcases mem_put he with he | he
  · exact h.casts e he
  · subst he; exact hk

/-- An update of an allotment that leaves its saved contexts keeps the invariant. -/
theorem State.Inv.onAllot {s : State} (h : s.Inv) (al : Nat) {f : Allot → Allot} (hf : ∀ a : Allot, (f a).saved = a.saved) :
    (s.onAllot al f).Inv := by
  simp only [State.onAllot]
  split
  · rename_i a ha
    refine ⟨h.mems, h.casts, ?_⟩
    intro e he
    rcases mem_put he with he | he
    · exact h.saved e he
    · subst he
      simp only [hf]
      exact h.saved _ (mem_of_look ha)
  · exact h

theorem State.Inv.onPlot {s : State} (h : s.Inv) (p : Nat) (f : Plot → Plot) : (s.onPlot p f).Inv := h.of_same rfl rfl rfl rfl rfl

theorem State.Inv.onQueue {s : State} (h : s.Inv) (al q : Nat) (f : QState → QState) : (s.onQueue al q f).Inv := h.onAllot al (fun _ => rfl)

/-- An update that leaves the casts and the allotments, and puts a memory in canonical form in the place of home memory. -/
theorem State.Inv.of_home {s t : State} (h : s.Inv) (hm : Memory.wf t.mem = true) (hc : t.cmn = s.cmn) (hp : t.peers = s.peers)
    (hk : t.casts = s.casts) (ha : t.allots = s.allots) : t.Inv :=
  (h.of_mem hm).of_same rfl hc hp hk ha

/-- A request at an arbiter leaves what the invariant speaks of. -/
theorem State.Inv.charge {s : State} (h : s.Inv) (a : Nat) (c : Charge) (n : Nat) : (s.charge a c n).Inv := h.of_same rfl rfl rfl rfl rfl

theorem State.Inv.written {s : State} (h : s.Inv) (pa n : Nat) : (s.written pa n).Inv := h.of_same rfl rfl rfl rfl rfl

theorem State.Inv.realise {s : State} (h : s.Inv) (f : Nat) : (s.realise f).Inv := by
  simp only [State.realise]
  split
  · refine State.Inv.of_home h ?_ rfl rfl rfl rfl
    exact Memory.clear_wf (f * 65536) 65536 h.mem_wf
  · exact h

theorem State.Inv.qcbNote {s : State} (h : s.Inv) (a : Nat) : (s.qcbNote a).Inv := by
  have w := h.mem_wf
  simp only [State.qcbNote]
  split
  · exact h.of_mem (Memory.setByte_wf _ _ w)
  split
  · exact h
  split
  · exact h.of_mem (Memory.setByte_wf _ _ w)
  split
  · exact (h.onQueue _ _ _).of_mem (Memory.setByte_wf _ _ w)
  split
  · exact h.onQueue _ _ _
  split
  · exact h.onQueue _ _ _
  · exact h

theorem State.Inv.ite {c : Prop} [Decidable c] {s t : State} (hs : s.Inv) (ht : t.Inv) : (if c then s else t).Inv := by
  split <;> assumption

/-- A fold of updates that each keep the invariant keeps it. -/
theorem State.Inv.foldl {α : Type} {f : State → α → State} (hf : ∀ s x, s.Inv → (f s x).Inv) (l : List α) {s : State} (h : s.Inv) :
    (l.foldl f s).Inv := by
  induction l generalizing s with
  | nil => exact h
  | cons x l ih => exact ih (hf s x h)

theorem State.Inv.ownHome {s : State} (h : s.Inv) (pa : Nat) (v : Byte) : (s.ownHome pa v).Inv := by
  simp only [State.ownHome]; split <;> exact h.of_same rfl rfl rfl rfl rfl

theorem State.Inv.ownBack {s : State} (h : s.Inv) (p pa : Nat) (v : Byte) : (s.ownBack p pa v).Inv := by
  simp only [State.ownBack]; split <;> exact h.of_same rfl rfl rfl rfl rfl

theorem State.Inv.ownCached {s : State} (h : s.Inv) (p pa n : Nat) : (s.ownCached p pa n).Inv := by
  simp only [State.ownCached]; split <;> exact h.of_same rfl rfl rfl rfl rfl

theorem State.Inv.homeWrite {s : State} (h : s.Inv) (pa n v : Nat) : (s.homeWrite pa n v).Inv := by
  simp only [State.homeWrite]
  split
  · exact h
  · exact State.Inv.foldl (fun _ _ h => (h.ownHome _ _).qcbNote _) _
      (((h.realise _).of_mem (Memory.write_wf _ _ _ (h.realise _).mem_wf)).written _ _)

theorem State.Inv.sliceWrite {s : State} (h : s.Inv) (pa n v : Nat) : (s.sliceWrite pa n v).Inv := by
  simp only [State.sliceWrite]
  split
  · exact h.homeWrite _ _ _
  · exact h.of_same rfl rfl rfl rfl rfl

theorem State.Inv.dpWrite {s : State} (h : s.Inv) (pa n v al : Nat) : (s.dpWrite pa n v al).Inv := by
  simp only [State.dpWrite]
  split
  · refine State.Inv.of_home (h.realise (pa / 65536)) ?_ rfl rfl rfl rfl
    exact Memory.write_wf pa n v (h.realise (pa / 65536)).mem_wf
  · exact h

theorem State.Inv.leafStep {s : State} (h : s.Inv) (ea : Nat) (f : DWord → DWord) : (s.leafStep ea f).Inv := by
  simp only [State.leafStep]
  split
  · exact h
  · exact h.homeWrite _ _ _

theorem State.Inv.setFrame {s : State} (h : s.Inv) (f : Nat) (e : FrameEnt) : (s.setFrame f e).Inv := h.of_same rfl rfl rfl rfl rfl

theorem State.Inv.dropTlb {s : State} (h : s.Inv) (al vpn n : Nat) : (s.dropTlb al vpn n).Inv := h.of_same rfl rfl rfl rfl rfl

theorem State.Inv.makeZeros {s : State} (h : s.Inv) (al va pa ea : Nat) (block : Bool) : (s.makeZeros al va pa ea block).Inv := by
  simp only [State.makeZeros]
  exact State.Inv.dropTlb (State.Inv.leafStep (State.Inv.foldl (fun _ _ h => (h.setFrame _ _).ite h) _ h) ea leafNoZ) ..

theorem State.Inv.fillSlice {s : State} (h : s.Inv) (al pa : Nat) (l : DWord) : (s.fillSlice al pa l).Inv := by
  simp only [State.fillSlice]
  split
  · exact h
  split
  · exact h.charge _ _ _
  · exact h.of_same rfl rfl rfl rfl rfl

theorem State.Inv.leafGo {s : State} (h : s.Inv) (al va : Nat) (wr : Bool) (l : DWord) (pa ea : Nat) (block hit : Bool) :
    (leafGo s al va wr l pa ea block hit).Inv := by
  have d : (if (wr && bitsN l 11 1 == 0) = true then s.leafStep ea leafD else s).Inv := by
    split
    · exact h.leafStep _ _
    · exact h
  have z : (if (wr && bitsN l 10 1 == 1) = true then
      (if (wr && bitsN l 11 1 == 0) = true then s.leafStep ea leafD else s).makeZeros al va pa ea block
    else (if (wr && bitsN l 11 1 == 0) = true then s.leafStep ea leafD else s)).Inv := by
    split
    · exact d.makeZeros _ _ _ _ _
    · exact d
  simp only [Machine.leafGo]
  split
  · exact z
  · exact z.fillSlice _ _ _

/-- A translated access keeps the invariant. -/
theorem State.Inv.access {s t : State} (h : s.Inv) {p al va pa : Nat} {w : Want} {v : View} {e : Eng} {z : Bool}
    (a : access s p al va w v e = .ok (t, pa, z)) : t.Inv := by
  unfold Machine.access at a
  split at a
  · cases a
  · cases a
  · cases a
  · dsimp only at a
    split at a
    · cases a
    · cases a
      have w : (if (s.tlb? p e al va).isNone then s.walkCharge al ‹Nat› else s).Inv := (h.charge _ _ _).ite h
      refine State.Inv.onPlot (State.Inv.leafGo ?_ ..) _ _
      exact (w.leafStep _ _).ite w

theorem State.Inv.writeBack {s : State} (h : s.Inv) (p : Nat) (l : Line) : (s.writeBack p l).Inv := by
  simp only [State.writeBack]
  split
  · exact h
  split
  · exact h
  · have c : (if (s.sline? l.n).isSome then s else s.charge (memArb (l.n * 128)) (s.plotCharge p) 1).Inv := h.ite (h.charge _ _ _)
    refine State.Inv.foldl (fun _ i h => ?_) _
      ((c.realise _).of_home (wbBytes_wf _ _ _ _ (c.realise _).mem_wf) rfl rfl rfl rfl)
    split
    · exact (h.ownBack _ _ _).qcbNote _
    · exact h

theorem State.Inv.writeBackIf {s : State} (h : s.Inv) (p : Nat) (f : Line → Bool) : (s.writeBackIf p f).Inv :=
  State.Inv.onPlot (s := ((s.plot p).cache.filter f).foldl (State.writeBack p) s)
    (State.Inv.foldl (f := State.writeBack p) (fun _ l h => State.Inv.writeBack h p l) _ h) p
    (fun q => { q with cache := (s.plot p).cache.map (fun l => if f l then l.clean else l) })

theorem State.Inv.release {s : State} (h : s.Inv) (p sc : Nat) : (s.release p sc).Inv := by
  simp only [State.release]
  split
  · exact h
  · exact (h.writeBackIf _ _).onPlot _ _

theorem State.Inv.acquire {s : State} (h : s.Inv) (p sc : Nat) : (s.acquire p sc).Inv := by
  simp only [State.acquire]
  split
  · exact h
  · exact (h.writeBackIf _ _).onPlot _ _

theorem State.Inv.expel {s : State} (h : s.Inv) (p ln : Nat) : (s.expel p ln).Inv := by
  simp only [State.expel]
  split
  · exact h
  · exact (h.writeBack _ _).onPlot _ _

theorem State.Inv.useLine {s : State} (h : s.Inv) (p : Nat) (l : Line) : (s.useLine p l).Inv := by
  simp only [State.useLine]
  split
  · exact (h.onPlot _ _).expel _ _
  · exact h.onPlot _ _

theorem State.Inv.readAt {s : State} (h : s.Inv) (p : Nat) (v : View) (l : Loc) (z : Bool) (n : Nat) : (s.readAt p v l z n).1.Inv := by
  cases l with
  | home pa =>
    simp only [State.readAt]
    split
    · exact h.useLine _ _
    · exact h.expel _ _
  | bank | scr | opd | peer => exact h

theorem State.Inv.putHome {s : State} (h : s.Inv) (p : Nat) (v : View) (pa n x : Nat) : (s.putHome p v pa n x).Inv := by
  simp only [State.putHome]
  split
  · exact (h.ownCached _ _ _).useLine _ _
  · exact (h.expel _ _).sliceWrite _ _ _

/-- A write that spares read-only bytes keeps the invariant where each byte's write does. -/
theorem State.Inv.softBytes {s : State} (h : s.Inv) {f : State → Nat → Nat → State} (hf : ∀ (s : State) a y, s.Inv → (f s a y).Inv)
    (pa n x : Nat) : (s.softBytes f pa n x).Inv :=
  State.Inv.foldl (fun _ _ h => h.ite (hf _ _ _ h)) _ h

theorem State.Inv.writeAt {s : State} (h : s.Inv) (p : Nat) (v : View) (l : Loc) (n x : Nat) : (s.writeAt p v l n x).Inv := by
  cases l with
  | home pa =>
    simp only [State.writeAt]
    split
    · exact h.softBytes (fun _ _ _ h => h.putHome _ _ _ _ _) _ _ _
    · exact h.putHome _ _ _ _ _
  | bank a => exact h.of_cmn (Memory.write_wf _ _ _ h.cmn_wf)
  | peer a => exact h.of_peers (Memory.write_wf _ _ _ h.peers_wf)
  | scr c o =>
    refine h.onCast c (fun k hk => ?_)
    simp only [Cast.memWf, Bool.and_eq_true] at hk ⊢
    exact ⟨Memory.write_wf _ _ _ hk.1, hk.2⟩
  | opd c o =>
    refine h.onCast c (fun k hk => ?_)
    simp only [Cast.memWf, Bool.and_eq_true] at hk ⊢
    exact ⟨hk.1, Memory.write_wf _ _ _ hk.2⟩

end Sys2Proof.Machine
end

