-- ==== Sys2Proof/Laws/PerInstr.lean ====
section
/-!
SUPPORT. The family F of statements about every instruction as syntax: the shape of its words (R120, R121). An instruction that has
words has one, of 16 or 32 bits, bit 0 tells which, and no bit lies above its length; an event row has none.
-/

namespace Sys2Proof.Laws

/-- The word of an instruction has 16 bits with bit 0 clear, or 32 bits with bit 0 set (R120). -/
def F.Statement (i : Instr) : Prop :=
  ∀ n w : Nat, encode i = some (n, w) → (n = 16 ∧ w % 2 = 0 ∨ n = 32 ∧ w % 2 = 1) ∧ w < 2 ^ n

/-- A narrow word. -/
theorem narrow_shape {i : Instr} {c d a : Nat} (h : encode i = some (16, c + d * 32 + a * 1024)) (hc : c % 2 = 0) (hl : c < 32)
    (hd : d < 32) (ha : a < 32) : F.Statement i := by
  intro n w e
  cases h.symm.trans e
  exact ⟨.inl ⟨rfl, by omega⟩, by omega⟩

/-- A wide word. -/
theorem wide_shape {i : Instr} {w : Nat} (h : encode i = some (32, w)) (ho : w % 2 = 1) (hl : w < 2 ^ 32) : F.Statement i := by
  intro n v e
  cases h.symm.trans e
  exact ⟨.inr ⟨rfl, ho⟩, hl⟩

/-- An event has no word. -/
theorem event_shape {i : Instr} (h : encode i = none) : F.Statement i := by
  intro n w e
  cases h.symm.trans e

theorem F.mov (d a : BitVec 5) : F.Statement (.mov d a) := narrow_shape rfl rfl (by decide) d.isLt a.isLt
theorem F.addN (d a : BitVec 5) : F.Statement (.addN d a) := narrow_shape rfl rfl (by decide) d.isLt a.isLt
theorem F.subN (d a : BitVec 5) : F.Statement (.subN d a) := narrow_shape rfl rfl (by decide) d.isLt a.isLt
theorem F.andN (d a : BitVec 5) : F.Statement (.andN d a) := narrow_shape rfl rfl (by decide) d.isLt a.isLt
theorem F.orN (d a : BitVec 5) : F.Statement (.orN d a) := narrow_shape rfl rfl (by decide) d.isLt a.isLt
theorem F.xorN (d a : BitVec 5) : F.Statement (.xorN d a) := narrow_shape rfl rfl (by decide) d.isLt a.isLt
theorem F.shlN (d a : BitVec 5) : F.Statement (.shlN d a) := narrow_shape rfl rfl (by decide) d.isLt a.isLt
theorem F.shrN (d a : BitVec 5) : F.Statement (.shrN d a) := narrow_shape rfl rfl (by decide) d.isLt a.isLt
theorem F.addi5 (d im : BitVec 5) : F.Statement (.addi5 d im) := narrow_shape rfl rfl (by decide) d.isLt im.isLt
theorem F.faddN (d a : BitVec 5) : F.Statement (.faddN d a) := narrow_shape rfl rfl (by decide) d.isLt a.isLt
theorem F.fsubN (d a : BitVec 5) : F.Statement (.fsubN d a) := narrow_shape rfl rfl (by decide) d.isLt a.isLt
theorem F.fmulN (d a : BitVec 5) : F.Statement (.fmulN d a) := narrow_shape rfl rfl (by decide) d.isLt a.isLt
theorem F.fminN (d a : BitVec 5) : F.Statement (.fminN d a) := narrow_shape rfl rfl (by decide) d.isLt a.isLt
theorem F.fmaxN (d a : BitVec 5) : F.Statement (.fmaxN d a) := narrow_shape rfl rfl (by decide) d.isLt a.isLt
theorem F.movi5 (d im : BitVec 5) : F.Statement (.movi5 d im) := narrow_shape rfl rfl (by decide) d.isLt im.isLt
theorem F.mulN (d a : BitVec 5) : F.Statement (.mulN d a) := narrow_shape rfl rfl (by decide) d.isLt a.isLt
theorem F.ill : ∀ q u, F.Statement (.ill q u) := by
  intro q u
  exact wide_shape rfl (by omega) (by have := Bool.toNat_le q; have := u.isLt; omega)
theorem F.add : ∀ q d a b, F.Statement (.add q d a b) := by
  intro q d a b
  exact wide_shape rfl (by omega) (by have := Bool.toNat_le q; have := d.isLt; have := a.isLt; have := b.isLt; omega)
theorem F.sub : ∀ q d a b, F.Statement (.sub q d a b) := by
  intro q d a b
  exact wide_shape rfl (by omega) (by have := Bool.toNat_le q; have := d.isLt; have := a.isLt; have := b.isLt; omega)
theorem F.and : ∀ q d a b, F.Statement (.and q d a b) := by
  intro q d a b
  exact wide_shape rfl (by omega) (by have := Bool.toNat_le q; have := d.isLt; have := a.isLt; have := b.isLt; omega)
theorem F.or : ∀ q d a b, F.Statement (.or q d a b) := by
  intro q d a b
  exact wide_shape rfl (by omega) (by have := Bool.toNat_le q; have := d.isLt; have := a.isLt; have := b.isLt; omega)
theorem F.xor : ∀ q d a b, F.Statement (.xor q d a b) := by
  intro q d a b
  exact wide_shape rfl (by omega) (by have := Bool.toNat_le q; have := d.isLt; have := a.isLt; have := b.isLt; omega)
theorem F.andn : ∀ q d a b, F.Statement (.andn q d a b) := by
  intro q d a b
  exact wide_shape rfl (by omega) (by have := Bool.toNat_le q; have := d.isLt; have := a.isLt; have := b.isLt; omega)
theorem F.shl : ∀ q d a b, F.Statement (.shl q d a b) := by
  intro q d a b
  exact wide_shape rfl (by omega) (by have := Bool.toNat_le q; have := d.isLt; have := a.isLt; have := b.isLt; omega)
theorem F.shr : ∀ q d a b, F.Statement (.shr q d a b) := by
  intro q d a b
  exact wide_shape rfl (by omega) (by have := Bool.toNat_le q; have := d.isLt; have := a.isLt; have := b.isLt; omega)
theorem F.sra : ∀ q d a b, F.Statement (.sra q d a b) := by
  intro q d a b
  exact wide_shape rfl (by omega) (by have := Bool.toNat_le q; have := d.isLt; have := a.isLt; have := b.isLt; omega)
theorem F.ror : ∀ q d a b, F.Statement (.ror q d a b) := by
  intro q d a b
  exact wide_shape rfl (by omega) (by have := Bool.toNat_le q; have := d.isLt; have := a.isLt; have := b.isLt; omega)
theorem F.mul : ∀ q d a b, F.Statement (.mul q d a b) := by
  intro q d a b
  exact wide_shape rfl (by omega) (by have := Bool.toNat_le q; have := d.isLt; have := a.isLt; have := b.isLt; omega)
theorem F.mulh : ∀ q d a b, F.Statement (.mulh q d a b) := by
  intro q d a b
  exact wide_shape rfl (by omega) (by have := Bool.toNat_le q; have := d.isLt; have := a.isLt; have := b.isLt; omega)
theorem F.mulhu : ∀ q d a b, F.Statement (.mulhu q d a b) := by
  intro q d a b
  exact wide_shape rfl (by omega) (by have := Bool.toNat_le q; have := d.isLt; have := a.isLt; have := b.isLt; omega)
theorem F.mulhsu : ∀ q d a b, F.Statement (.mulhsu q d a b) := by
  intro q d a b
  exact wide_shape rfl (by omega) (by have := Bool.toNat_le q; have := d.isLt; have := a.isLt; have := b.isLt; omega)
theorem F.div : ∀ q d a b, F.Statement (.div q d a b) := by
  intro q d a b
  exact wide_shape rfl (by omega) (by have := Bool.toNat_le q; have := d.isLt; have := a.isLt; have := b.isLt; omega)
theorem F.divu : ∀ q d a b, F.Statement (.divu q d a b) := by
  intro q d a b
  exact wide_shape rfl (by omega) (by have := Bool.toNat_le q; have := d.isLt; have := a.isLt; have := b.isLt; omega)
theorem F.rem : ∀ q d a b, F.Statement (.rem q d a b) := by
  intro q d a b
  exact wide_shape rfl (by omega) (by have := Bool.toNat_le q; have := d.isLt; have := a.isLt; have := b.isLt; omega)
theorem F.remu : ∀ q d a b, F.Statement (.remu q d a b) := by
  intro q d a b
  exact wide_shape rfl (by omega) (by have := Bool.toNat_le q; have := d.isLt; have := a.isLt; have := b.isLt; omega)
theorem F.min : ∀ q d a b, F.Statement (.min q d a b) := by
  intro q d a b
  exact wide_shape rfl (by omega) (by have := Bool.toNat_le q; have := d.isLt; have := a.isLt; have := b.isLt; omega)
theorem F.max : ∀ q d a b, F.Statement (.max q d a b) := by
  intro q d a b
  exact wide_shape rfl (by omega) (by have := Bool.toNat_le q; have := d.isLt; have := a.isLt; have := b.isLt; omega)
theorem F.minu : ∀ q d a b, F.Statement (.minu q d a b) := by
  intro q d a b
  exact wide_shape rfl (by omega) (by have := Bool.toNat_le q; have := d.isLt; have := a.isLt; have := b.isLt; omega)
theorem F.maxu : ∀ q d a b, F.Statement (.maxu q d a b) := by
  intro q d a b
  exact wide_shape rfl (by omega) (by have := Bool.toNat_le q; have := d.isLt; have := a.isLt; have := b.isLt; omega)
theorem F.clz : ∀ q d a, F.Statement (.clz q d a) := by
  intro q d a
  exact wide_shape rfl (by omega) (by have := Bool.toNat_le q; have := d.isLt; have := a.isLt; omega)
theorem F.popc : ∀ q d a, F.Statement (.popc q d a) := by
  intro q d a
  exact wide_shape rfl (by omega) (by have := Bool.toNat_le q; have := d.isLt; have := a.isLt; omega)
theorem F.brev : ∀ q d a, F.Statement (.brev q d a) := by
  intro q d a
  exact wide_shape rfl (by omega) (by have := Bool.toNat_le q; have := d.isLt; have := a.isLt; omega)
theorem F.slt : ∀ q d a b, F.Statement (.slt q d a b) := by
  intro q d a b
  exact wide_shape rfl (by omega) (by have := Bool.toNat_le q; have := d.isLt; have := a.isLt; have := b.isLt; omega)
theorem F.sltu : ∀ q d a b, F.Statement (.sltu q d a b) := by
  intro q d a b
  exact wide_shape rfl (by omega) (by have := Bool.toNat_le q; have := d.isLt; have := a.isLt; have := b.isLt; omega)
theorem F.addi : ∀ q d a im, F.Statement (.addi q d a im) := by
  intro q d a im
  exact wide_shape rfl (by omega) (by have := Bool.toNat_le q; have := d.isLt; have := a.isLt; have := im.isLt; omega)
theorem F.andi : ∀ q d a im, F.Statement (.andi q d a im) := by
  intro q d a im
  exact wide_shape rfl (by omega) (by have := Bool.toNat_le q; have := d.isLt; have := a.isLt; have := im.isLt; omega)
theorem F.ori : ∀ q d a im, F.Statement (.ori q d a im) := by
  intro q d a im
  exact wide_shape rfl (by omega) (by have := Bool.toNat_le q; have := d.isLt; have := a.isLt; have := im.isLt; omega)
theorem F.xori : ∀ q d a im, F.Statement (.xori q d a im) := by
  intro q d a im
  exact wide_shape rfl (by omega) (by have := Bool.toNat_le q; have := d.isLt; have := a.isLt; have := im.isLt; omega)
theorem F.shli : ∀ q d a n, F.Statement (.shli q d a n) := by
  intro q d a n
  exact wide_shape rfl (by omega) (by have := Bool.toNat_le q; have := d.isLt; have := a.isLt; have := n.isLt; omega)
theorem F.shri : ∀ q d a n, F.Statement (.shri q d a n) := by
  intro q d a n
  exact wide_shape rfl (by omega) (by have := Bool.toNat_le q; have := d.isLt; have := a.isLt; have := n.isLt; omega)
theorem F.srai : ∀ q d a n, F.Statement (.srai q d a n) := by
  intro q d a n
  exact wide_shape rfl (by omega) (by have := Bool.toNat_le q; have := d.isLt; have := a.isLt; have := n.isLt; omega)
theorem F.rori : ∀ q d a n, F.Statement (.rori q d a n) := by
  intro q d a n
  exact wide_shape rfl (by omega) (by have := Bool.toNat_le q; have := d.isLt; have := a.isLt; have := n.isLt; omega)
theorem F.lui : ∀ q d v, F.Statement (.lui q d v) := by
  intro q d v
  exact wide_shape rfl (by omega) (by have := Bool.toNat_le q; have := d.isLt; have := v.isLt; omega)
theorem F.luiZ : ∀ q d v, F.Statement (.luiZ q d v) := by
  intro q d v
  exact wide_shape rfl (by omega) (by have := Bool.toNat_le q; have := d.isLt; have := v.isLt; omega)
theorem F.luiLo : ∀ q d v, F.Statement (.luiLo q d v) := by
  intro q d v
  exact wide_shape rfl (by omega) (by have := Bool.toNat_le q; have := d.isLt; have := v.isLt; omega)
theorem F.luiS : ∀ q d v, F.Statement (.luiS q d v) := by
  intro q d v
  exact wide_shape rfl (by omega) (by have := Bool.toNat_le q; have := d.isLt; have := v.isLt; omega)
theorem F.bfx : ∀ q d a l w, F.Statement (.bfx q d a l w) := by
  intro q d a l w
  exact wide_shape rfl (by omega) (by have := Bool.toNat_le q; have := d.isLt; have := a.isLt; have := l.isLt; have := w.isLt; omega)
theorem F.bfxS : ∀ q d a l w, F.Statement (.bfxS q d a l w) := by
  intro q d a l w
  exact wide_shape rfl (by omega) (by have := Bool.toNat_le q; have := d.isLt; have := a.isLt; have := l.isLt; have := w.isLt; omega)
theorem F.bfi : ∀ q d a l w, F.Statement (.bfi q d a l w) := by
  intro q d a l w
  exact wide_shape rfl (by omega) (by have := Bool.toNat_le q; have := d.isLt; have := a.isLt; have := l.isLt; have := w.isLt; omega)
theorem F.cmp : ∀ q k a b c, F.Statement (.cmp q k a b c) := by
  intro q k a b c
  exact wide_shape rfl (by omega) (by have := Bool.toNat_le q; have := k.isLt; have := a.isLt; have := b.isLt; have := c.isLt; omega)
theorem F.cmpi : ∀ q k c a im, F.Statement (.cmpi q k c a im) := by
  intro q k c a im
  exact wide_shape rfl (by omega) (by have := Bool.toNat_le q; have := k.isLt; have := c.isLt; have := a.isLt; have := im.isLt; omega)
theorem F.sel : ∀ q d a b p, F.Statement (.sel q d a b p) := by
  intro q d a b p
  exact wide_shape rfl (by omega) (by have := Bool.toNat_le q; have := d.isLt; have := a.isLt; have := b.isLt; have := p.isLt; omega)
theorem F.kand : ∀ q d a b, F.Statement (.kand q d a b) := by
  intro q d a b
  exact wide_shape rfl (by omega) (by have := Bool.toNat_le q; have := d.isLt; have := a.isLt; have := b.isLt; omega)
theorem F.kor : ∀ q d a b, F.Statement (.kor q d a b) := by
  intro q d a b
  exact wide_shape rfl (by omega) (by have := Bool.toNat_le q; have := d.isLt; have := a.isLt; have := b.isLt; omega)
theorem F.kxor : ∀ q d a b, F.Statement (.kxor q d a b) := by
  intro q d a b
  exact wide_shape rfl (by omega) (by have := Bool.toNat_le q; have := d.isLt; have := a.isLt; have := b.isLt; omega)
theorem F.kandn : ∀ q d a b, F.Statement (.kandn q d a b) := by
  intro q d a b
  exact wide_shape rfl (by omega) (by have := Bool.toNat_le q; have := d.isLt; have := a.isLt; have := b.isLt; omega)
theorem F.korn : ∀ q d a b, F.Statement (.korn q d a b) := by
  intro q d a b
  exact wide_shape rfl (by omega) (by have := Bool.toNat_le q; have := d.isLt; have := a.isLt; have := b.isLt; omega)
theorem F.knot : ∀ q d a, F.Statement (.knot q d a) := by
  intro q d a
  exact wide_shape rfl (by omega) (by have := Bool.toNat_le q; have := d.isLt; have := a.isLt; omega)
theorem F.ktox : ∀ q d a, F.Statement (.ktox q d a) := by
  intro q d a
  exact wide_shape rfl (by omega) (by have := Bool.toNat_le q; have := d.isLt; have := a.isLt; omega)
theorem F.xtok : ∀ q d a, F.Statement (.xtok q d a) := by
  intro q d a
  exact wide_shape rfl (by omega) (by have := Bool.toNat_le q; have := d.isLt; have := a.isLt; omega)
theorem F.kpack : ∀ q d, F.Statement (.kpack q d) := by
  intro q d
  exact wide_shape rfl (by omega) (by have := Bool.toNat_le q; have := d.isLt; omega)
theorem F.kunpk : ∀ q a, F.Statement (.kunpk q a) := by
  intro q a
  exact wide_shape rfl (by omega) (by have := Bool.toNat_le q; have := a.isLt; omega)
theorem F.adda : ∀ q d a b sx, F.Statement (.adda q d a b sx) := by
  intro q d a b sx
  exact wide_shape rfl (by omega) (by have := Bool.toNat_le q; have := d.isLt; have := a.isLt; have := b.isLt; have := sx.isLt; omega)
theorem F.addai : ∀ q d a im, F.Statement (.addai q d a im) := by
  intro q d a im
  exact wide_shape rfl (by omega) (by have := Bool.toNat_le q; have := d.isLt; have := a.isLt; have := im.isLt; omega)
theorem F.br : ∀ q k n o, F.Statement (.br q k n o) := by
  intro q k n o
  exact wide_shape rfl (by omega) (by have := Bool.toNat_le q; have := k.isLt; have := Bool.toNat_le n; have := o.isLt; omega)
theorem F.jmp : ∀ q o, F.Statement (.jmp q o) := by
  intro q o
  exact wide_shape rfl (by omega) (by have := Bool.toNat_le q; have := o.isLt; omega)
theorem F.call : ∀ q o, F.Statement (.call q o) := by
  intro q o
  exact wide_shape rfl (by omega) (by have := Bool.toNat_le q; have := o.isLt; omega)
theorem F.jr : ∀ q a, F.Statement (.jr q a) := by
  intro q a
  exact wide_shape rfl (by omega) (by have := Bool.toNat_le q; have := a.isLt; omega)
theorem F.callr : ∀ q a, F.Statement (.callr q a) := by
  intro q a
  exact wide_shape rfl (by omega) (by have := Bool.toNat_le q; have := a.isLt; omega)
theorem F.ret : ∀ q, F.Statement (.ret q) := by
  intro q
  exact wide_shape rfl (by omega) (by have := Bool.toNat_le q; omega)
theorem F.become : ∀ q d a, F.Statement (.become q d a) := by
  intro q d a
  exact wide_shape rfl (by omega) (by have := Bool.toNat_le q; have := d.isLt; have := a.isLt; omega)
theorem F.meet : ∀ q o, F.Statement (.meet q o) := by
  intro q o
  exact wide_shape rfl (by omega) (by have := Bool.toNat_le q; have := o.isLt; omega)
theorem F.yield : ∀ q, F.Statement (.yield q) := by
  intro q
  exact wide_shape rfl (by omega) (by have := Bool.toNat_le q; omega)
theorem F.loop : ∀ q n a l, F.Statement (.loop q n a l) := by
  intro q n a l
  exact wide_shape rfl (by omega) (by have := Bool.toNat_le q; have := n.isLt; have := a.isLt; have := l.isLt; omega)
theorem F.nop : ∀ q, F.Statement (.nop q) := by
  intro q
  exact wide_shape rfl (by omega) (by have := Bool.toNat_le q; omega)
theorem F.trap : ∀ q c, F.Statement (.trap q c) := by
  intro q c
  exact wide_shape rfl (by omega) (by have := Bool.toNat_le q; have := c.isLt; omega)
theorem F.brk : ∀ q c, F.Statement (.brk q c) := by
  intro q c
  exact wide_shape rfl (by omega) (by have := Bool.toNat_le q; have := c.isLt; omega)
theorem F.mfs : ∀ q d sx, F.Statement (.mfs q d sx) := by
  intro q d sx
  exact wide_shape rfl (by omega) (by have := Bool.toNat_le q; have := d.isLt; have := sx.isLt; omega)
theorem F.mts : ∀ q a sx, F.Statement (.mts q a sx) := by
  intro q a sx
  exact wide_shape rfl (by omega) (by have := Bool.toNat_le q; have := a.isLt; have := sx.isLt; omega)
theorem F.fadd : ∀ q d a b, F.Statement (.fadd q d a b) := by
  intro q d a b
  exact wide_shape rfl (by omega) (by have := Bool.toNat_le q; have := d.isLt; have := a.isLt; have := b.isLt; omega)
theorem F.fsub : ∀ q d a b, F.Statement (.fsub q d a b) := by
  intro q d a b
  exact wide_shape rfl (by omega) (by have := Bool.toNat_le q; have := d.isLt; have := a.isLt; have := b.isLt; omega)
theorem F.fmul : ∀ q d a b, F.Statement (.fmul q d a b) := by
  intro q d a b
  exact wide_shape rfl (by omega) (by have := Bool.toNat_le q; have := d.isLt; have := a.isLt; have := b.isLt; omega)
theorem F.fmin : ∀ q d a b, F.Statement (.fmin q d a b) := by
  intro q d a b
  exact wide_shape rfl (by omega) (by have := Bool.toNat_le q; have := d.isLt; have := a.isLt; have := b.isLt; omega)
theorem F.fmax : ∀ q d a b, F.Statement (.fmax q d a b) := by
  intro q d a b
  exact wide_shape rfl (by omega) (by have := Bool.toNat_le q; have := d.isLt; have := a.isLt; have := b.isLt; omega)
theorem F.fabs : ∀ q d a, F.Statement (.fabs q d a) := by
  intro q d a
  exact wide_shape rfl (by omega) (by have := Bool.toNat_le q; have := d.isLt; have := a.isLt; omega)
theorem F.fneg : ∀ q d a, F.Statement (.fneg q d a) := by
  intro q d a
  exact wide_shape rfl (by omega) (by have := Bool.toNat_le q; have := d.isLt; have := a.isLt; omega)
theorem F.fsgnj : ∀ q d a b, F.Statement (.fsgnj q d a b) := by
  intro q d a b
  exact wide_shape rfl (by omega) (by have := Bool.toNat_le q; have := d.isLt; have := a.isLt; have := b.isLt; omega)
theorem F.ffma : ∀ q d a b c, F.Statement (.ffma q d a b c) := by
  intro q d a b c
  exact wide_shape rfl (by omega) (by have := Bool.toNat_le q; have := d.isLt; have := a.isLt; have := b.isLt; have := c.isLt; omega)
theorem F.ffms : ∀ q d a b c, F.Statement (.ffms q d a b c) := by
  intro q d a b c
  exact wide_shape rfl (by omega) (by have := Bool.toNat_le q; have := d.isLt; have := a.isLt; have := b.isLt; have := c.isLt; omega)
theorem F.fnma : ∀ q d a b c, F.Statement (.fnma q d a b c) := by
  intro q d a b c
  exact wide_shape rfl (by omega) (by have := Bool.toNat_le q; have := d.isLt; have := a.isLt; have := b.isLt; have := c.isLt; omega)
theorem F.hadd2 : ∀ q d a b, F.Statement (.hadd2 q d a b) := by
  intro q d a b
  exact wide_shape rfl (by omega) (by have := Bool.toNat_le q; have := d.isLt; have := a.isLt; have := b.isLt; omega)
theorem F.hsub2 : ∀ q d a b, F.Statement (.hsub2 q d a b) := by
  intro q d a b
  exact wide_shape rfl (by omega) (by have := Bool.toNat_le q; have := d.isLt; have := a.isLt; have := b.isLt; omega)
theorem F.hmul2 : ∀ q d a b, F.Statement (.hmul2 q d a b) := by
  intro q d a b
  exact wide_shape rfl (by omega) (by have := Bool.toNat_le q; have := d.isLt; have := a.isLt; have := b.isLt; omega)
theorem F.hmin2 : ∀ q d a b, F.Statement (.hmin2 q d a b) := by
  intro q d a b
  exact wide_shape rfl (by omega) (by have := Bool.toNat_le q; have := d.isLt; have := a.isLt; have := b.isLt; omega)
theorem F.hmax2 : ∀ q d a b, F.Statement (.hmax2 q d a b) := by
  intro q d a b
  exact wide_shape rfl (by omega) (by have := Bool.toNat_le q; have := d.isLt; have := a.isLt; have := b.isLt; omega)
theorem F.badd2 : ∀ q d a b, F.Statement (.badd2 q d a b) := by
  intro q d a b
  exact wide_shape rfl (by omega) (by have := Bool.toNat_le q; have := d.isLt; have := a.isLt; have := b.isLt; omega)
theorem F.bsub2 : ∀ q d a b, F.Statement (.bsub2 q d a b) := by
  intro q d a b
  exact wide_shape rfl (by omega) (by have := Bool.toNat_le q; have := d.isLt; have := a.isLt; have := b.isLt; omega)
theorem F.bmul2 : ∀ q d a b, F.Statement (.bmul2 q d a b) := by
  intro q d a b
  exact wide_shape rfl (by omega) (by have := Bool.toNat_le q; have := d.isLt; have := a.isLt; have := b.isLt; omega)
theorem F.bmin2 : ∀ q d a b, F.Statement (.bmin2 q d a b) := by
  intro q d a b
  exact wide_shape rfl (by omega) (by have := Bool.toNat_le q; have := d.isLt; have := a.isLt; have := b.isLt; omega)
theorem F.bmax2 : ∀ q d a b, F.Statement (.bmax2 q d a b) := by
  intro q d a b
  exact wide_shape rfl (by omega) (by have := Bool.toNat_le q; have := d.isLt; have := a.isLt; have := b.isLt; omega)
theorem F.hfma2 : ∀ q d a b c, F.Statement (.hfma2 q d a b c) := by
  intro q d a b c
  exact wide_shape rfl (by omega) (by have := Bool.toNat_le q; have := d.isLt; have := a.isLt; have := b.isLt; have := c.isLt; omega)
theorem F.bfma2 : ∀ q d a b c, F.Statement (.bfma2 q d a b c) := by
  intro q d a b c
  exact wide_shape rfl (by omega) (by have := Bool.toNat_le q; have := d.isLt; have := a.isLt; have := b.isLt; have := c.isLt; omega)
theorem F.fcmp : ∀ q k a b c, F.Statement (.fcmp q k a b c) := by
  intro q k a b c
  exact wide_shape rfl (by omega) (by have := Bool.toNat_le q; have := k.isLt; have := a.isLt; have := b.isLt; have := c.isLt; omega)
theorem F.fcvt : ∀ q d a t sx h, F.Statement (.fcvt q d a t sx h) := by
  intro q d a t sx h
  exact wide_shape rfl (by omega) (by have := Bool.toNat_le q; have := d.isLt; have := a.isLt; have := t.isLt; have := sx.isLt; have := Bool.toNat_le h; omega)
theorem F.rcp : ∀ q d a, F.Statement (.rcp q d a) := by
  intro q d a
  exact wide_shape rfl (by omega) (by have := Bool.toNat_le q; have := d.isLt; have := a.isLt; omega)
theorem F.rsq : ∀ q d a, F.Statement (.rsq q d a) := by
  intro q d a
  exact wide_shape rfl (by omega) (by have := Bool.toNat_le q; have := d.isLt; have := a.isLt; omega)
theorem F.sqrt : ∀ q d a, F.Statement (.sqrt q d a) := by
  intro q d a
  exact wide_shape rfl (by omega) (by have := Bool.toNat_le q; have := d.isLt; have := a.isLt; omega)
theorem F.exp2 : ∀ q d a, F.Statement (.exp2 q d a) := by
  intro q d a
  exact wide_shape rfl (by omega) (by have := Bool.toNat_le q; have := d.isLt; have := a.isLt; omega)
theorem F.log2 : ∀ q d a, F.Statement (.log2 q d a) := by
  intro q d a
  exact wide_shape rfl (by omega) (by have := Bool.toNat_le q; have := d.isLt; have := a.isLt; omega)
theorem F.tanh : ∀ q d a, F.Statement (.tanh q d a) := by
  intro q d a
  exact wide_shape rfl (by omega) (by have := Bool.toNat_le q; have := d.isLt; have := a.isLt; omega)
theorem F.sin : ∀ q d a, F.Statement (.sin q d a) := by
  intro q d a
  exact wide_shape rfl (by omega) (by have := Bool.toNat_le q; have := d.isLt; have := a.isLt; omega)
theorem F.cos : ∀ q d a, F.Statement (.cos q d a) := by
  intro q d a
  exact wide_shape rfl (by omega) (by have := Bool.toNat_le q; have := d.isLt; have := a.isLt; omega)
theorem F.faddE : ∀ q d a b, F.Statement (.faddE q d a b) := by
  intro q d a b
  exact wide_shape rfl (by omega) (by have := Bool.toNat_le q; have := d.isLt; have := a.isLt; have := b.isLt; omega)
theorem F.fmulE : ∀ q d a b, F.Statement (.fmulE q d a b) := by
  intro q d a b
  exact wide_shape rfl (by omega) (by have := Bool.toNat_le q; have := d.isLt; have := a.isLt; have := b.isLt; omega)
theorem F.ffmaE : ∀ q d a b, F.Statement (.ffmaE q d a b) := by
  intro q d a b
  exact wide_shape rfl (by omega) (by have := Bool.toNat_le q; have := d.isLt; have := a.isLt; have := b.isLt; omega)
theorem F.eadd : ∀ q d a b, F.Statement (.eadd q d a b) := by
  intro q d a b
  exact wide_shape rfl (by omega) (by have := Bool.toNat_le q; have := d.isLt; have := a.isLt; have := b.isLt; omega)
theorem F.efrom : ∀ q d a, F.Statement (.efrom q d a) := by
  intro q d a
  exact wide_shape rfl (by omega) (by have := Bool.toNat_le q; have := d.isLt; have := a.isLt; omega)
theorem F.ernd : ∀ q d a t, F.Statement (.ernd q d a t) := by
  intro q d a t
  exact wide_shape rfl (by omega) (by have := Bool.toNat_le q; have := d.isLt; have := a.isLt; have := t.isLt; omega)
theorem F.eget : ∀ q d a, F.Statement (.eget q d a) := by
  intro q d a
  exact wide_shape rfl (by omega) (by have := Bool.toNat_le q; have := d.isLt; have := a.isLt; omega)
theorem F.eset : ∀ q d a, F.Statement (.eset q d a) := by
  intro q d a
  exact wide_shape rfl (by omega) (by have := Bool.toNat_le q; have := d.isLt; have := a.isLt; omega)
theorem F.dot4 : ∀ q d a b, F.Statement (.dot4 q d a b) := by
  intro q d a b
  exact wide_shape rfl (by omega) (by have := Bool.toNat_le q; have := d.isLt; have := a.isLt; have := b.isLt; omega)
theorem F.dot4u : ∀ q d a b, F.Statement (.dot4u q d a b) := by
  intro q d a b
  exact wide_shape rfl (by omega) (by have := Bool.toNat_le q; have := d.isLt; have := a.isLt; have := b.isLt; omega)
theorem F.dot4su : ∀ q d a b, F.Statement (.dot4su q d a b) := by
  intro q d a b
  exact wide_shape rfl (by omega) (by have := Bool.toNat_le q; have := d.isLt; have := a.isLt; have := b.isLt; omega)
theorem F.dot2h : ∀ q d a b, F.Statement (.dot2h q d a b) := by
  intro q d a b
  exact wide_shape rfl (by omega) (by have := Bool.toNat_le q; have := d.isLt; have := a.isLt; have := b.isLt; omega)
theorem F.bpack : ∀ q d a b f, F.Statement (.bpack q d a b f) := by
  intro q d a b f
  exact wide_shape rfl (by omega) (by have := Bool.toNat_le q; have := d.isLt; have := a.isLt; have := b.isLt; have := f.isLt; omega)
theorem F.bpackFx : ∀ q d a b f, F.Statement (.bpackFx q d a b f) := by
  intro q d a b f
  exact wide_shape rfl (by omega) (by have := Bool.toNat_le q; have := d.isLt; have := a.isLt; have := b.isLt; have := f.isLt; omega)
theorem F.bunpk : ∀ q d a f, F.Statement (.bunpk q d a f) := by
  intro q d a f
  exact wide_shape rfl (by omega) (by have := Bool.toNat_le q; have := d.isLt; have := a.isLt; have := f.isLt; omega)
theorem F.rndm : ∀ q d a b w, F.Statement (.rndm q d a b w) := by
  intro q d a b w
  exact wide_shape rfl (by omega) (by have := Bool.toNat_le q; have := d.isLt; have := a.isLt; have := b.isLt; have := w.isLt; omega)
theorem F.rndm4 : ∀ q d a b, F.Statement (.rndm4 q d a b) := by
  intro q d a b
  exact wide_shape rfl (by omega) (by have := Bool.toNat_le q; have := d.isLt; have := a.isLt; have := b.isLt; omega)
theorem F.voteBal : ∀ q d a, F.Statement (.voteBal q d a) := by
  intro q d a
  exact wide_shape rfl (by omega) (by have := Bool.toNat_le q; have := d.isLt; have := a.isLt; omega)
theorem F.voteAny : ∀ q d a, F.Statement (.voteAny q d a) := by
  intro q d a
  exact wide_shape rfl (by omega) (by have := Bool.toNat_le q; have := d.isLt; have := a.isLt; omega)
theorem F.voteAll : ∀ q d a, F.Statement (.voteAll q d a) := by
  intro q d a
  exact wide_shape rfl (by omega) (by have := Bool.toNat_le q; have := d.isLt; have := a.isLt; omega)
theorem F.shflIdx : ∀ q d a b, F.Statement (.shflIdx q d a b) := by
  intro q d a b
  exact wide_shape rfl (by omega) (by have := Bool.toNat_le q; have := d.isLt; have := a.isLt; have := b.isLt; omega)
theorem F.shflUp : ∀ q d a b, F.Statement (.shflUp q d a b) := by
  intro q d a b
  exact wide_shape rfl (by omega) (by have := Bool.toNat_le q; have := d.isLt; have := a.isLt; have := b.isLt; omega)
theorem F.shflDn : ∀ q d a b, F.Statement (.shflDn q d a b) := by
  intro q d a b
  exact wide_shape rfl (by omega) (by have := Bool.toNat_le q; have := d.isLt; have := a.isLt; have := b.isLt; omega)
theorem F.shflXor : ∀ q d a b, F.Statement (.shflXor q d a b) := by
  intro q d a b
  exact wide_shape rfl (by omega) (by have := Bool.toNat_le q; have := d.isLt; have := a.isLt; have := b.isLt; omega)
theorem F.cred : ∀ q d a o, F.Statement (.cred q d a o) := by
  intro q d a o
  exact wide_shape rfl (by omega) (by have := Bool.toNat_le q; have := d.isLt; have := a.isLt; have := o.isLt; omega)
theorem F.cscan : ∀ q d a o, F.Statement (.cscan q d a o) := by
  intro q d a o
  exact wide_shape rfl (by omega) (by have := Bool.toNat_le q; have := d.isLt; have := a.isLt; have := o.isLt; omega)
theorem F.cscanx : ∀ q d a o, F.Statement (.cscanx q d a o) := by
  intro q d a o
  exact wide_shape rfl (by omega) (by have := Bool.toNat_le q; have := d.isLt; have := a.isLt; have := o.isLt; omega)
theorem F.ld : ∀ q d p sx z im, F.Statement (.ld q d p sx z im) := by
  intro q d p sx z im
  exact wide_shape rfl (by omega) (by have := Bool.toNat_le q; have := d.isLt; have := p.isLt; have := Bool.toNat_le sx; have := z.isLt; have := im.isLt; omega)
theorem F.st : ∀ q d p z im, F.Statement (.st q d p z im) := by
  intro q d p z im
  exact wide_shape rfl (by omega) (by have := Bool.toNat_le q; have := d.isLt; have := p.isLt; have := z.isLt; have := im.isLt; omega)
theorem F.lds : ∀ q d p sx, F.Statement (.lds q d p sx) := by
  intro q d p sx
  exact wide_shape rfl (by omega) (by have := Bool.toNat_le q; have := d.isLt; have := p.isLt; have := sx.isLt; omega)
theorem F.ldsD : ∀ q d p sx, F.Statement (.ldsD q d p sx) := by
  intro q d p sx
  exact wide_shape rfl (by omega) (by have := Bool.toNat_le q; have := d.isLt; have := p.isLt; have := sx.isLt; omega)
theorem F.sts : ∀ q d p sx, F.Statement (.sts q d p sx) := by
  intro q d p sx
  exact wide_shape rfl (by omega) (by have := Bool.toNat_le q; have := d.isLt; have := p.isLt; have := sx.isLt; omega)
theorem F.stsD : ∀ q d p sx, F.Statement (.stsD q d p sx) := by
  intro q d p sx
  exact wide_shape rfl (by omega) (by have := Bool.toNat_le q; have := d.isLt; have := p.isLt; have := sx.isLt; omega)
theorem F.acqp : ∀ q d p b, F.Statement (.acqp q d p b) := by
  intro q d p b
  exact wide_shape rfl (by omega) (by have := Bool.toNat_le q; have := d.isLt; have := p.isLt; have := b.isLt; omega)
theorem F.acqpAll : ∀ q d p, F.Statement (.acqpAll q d p) := by
  intro q d p
  exact wide_shape rfl (by omega) (by have := Bool.toNat_le q; have := d.isLt; have := p.isLt; omega)
theorem F.atom : ∀ q d p b sx o, F.Statement (.atom q d p b sx o) := by
  intro q d p b sx o
  exact wide_shape rfl (by omega) (by have := Bool.toNat_le q; have := d.isLt; have := p.isLt; have := b.isLt; have := sx.isLt; have := o.isLt; omega)
theorem F.atomt : ∀ q d p b sx, F.Statement (.atomt q d p b sx) := by
  intro q d p b sx
  exact wide_shape rfl (by omega) (by have := Bool.toNat_le q; have := d.isLt; have := p.isLt; have := b.isLt; have := sx.isLt; omega)
theorem F.red : ∀ q p b sx o, F.Statement (.red q p b sx o) := by
  intro q p b sx o
  exact wide_shape rfl (by omega) (by have := Bool.toNat_le q; have := p.isLt; have := b.isLt; have := sx.isLt; have := o.isLt; omega)
theorem F.waita : ∀ q d p b sx c, F.Statement (.waita q d p b sx c) := by
  intro q d p b sx c
  exact wide_shape rfl (by omega) (by have := Bool.toNat_le q; have := d.isLt; have := p.isLt; have := b.isLt; have := sx.isLt; have := c.isLt; omega)
theorem F.barArrive : ∀ q n a, F.Statement (.barArrive q n a) := by
  intro q n a
  exact wide_shape rfl (by omega) (by have := Bool.toNat_le q; have := n.isLt; have := a.isLt; omega)
theorem F.barWait : ∀ q n a, F.Statement (.barWait q n a) := by
  intro q n a
  exact wide_shape rfl (by omega) (by have := Bool.toNat_le q; have := n.isLt; have := a.isLt; omega)
theorem F.barSync : ∀ q n a, F.Statement (.barSync q n a) := by
  intro q n a
  exact wide_shape rfl (by omega) (by have := Bool.toNat_le q; have := n.isLt; have := a.isLt; omega)
theorem F.waitc : ∀ q c t sx r u, F.Statement (.waitc q c t sx r u) := by
  intro q c t sx r u
  exact wide_shape rfl (by omega) (by have := Bool.toNat_le q; have := c.isLt; have := t.isLt; have := sx.isLt; have := Bool.toNat_le r; have := Bool.toNat_le u; omega)
theorem F.emit : ∀ q a b, F.Statement (.emit q a b) := by
  intro q a b
  exact wide_shape rfl (by omega) (by have := Bool.toNat_le q; have := a.isLt; have := b.isLt; omega)
theorem F.cpy : ∀ q d a, F.Statement (.cpy q d a) := by
  intro q d a
  exact wide_shape rfl (by omega) (by have := Bool.toNat_le q; have := d.isLt; have := a.isLt; omega)
theorem F.cpys : ∀ q d a b, F.Statement (.cpys q d a b) := by
  intro q d a b
  exact wide_shape rfl (by omega) (by have := Bool.toNat_le q; have := d.isLt; have := a.isLt; have := b.isLt; omega)
theorem F.slinv : ∀ q a, F.Statement (.slinv q a) := by
  intro q a
  exact wide_shape rfl (by omega) (by have := Bool.toNat_le q; have := a.isLt; omega)
theorem F.mxc : ∀ q d a b, F.Statement (.mxc q d a b) := by
  intro q d a b
  exact wide_shape rfl (by omega) (by have := Bool.toNat_le q; have := d.isLt; have := a.isLt; have := b.isLt; omega)
theorem F.mxr : ∀ q d a t, F.Statement (.mxr q d a t) := by
  intro q d a t
  exact wide_shape rfl (by omega) (by have := Bool.toNat_le q; have := d.isLt; have := a.isLt; have := t.isLt; omega)
theorem F.mxrn : ∀ q d a t, F.Statement (.mxrn q d a t) := by
  intro q d a t
  exact wide_shape rfl (by omega) (by have := Bool.toNat_le q; have := d.isLt; have := a.isLt; have := t.isLt; omega)
theorem F.mxw : ∀ q d a t, F.Statement (.mxw q d a t) := by
  intro q d a t
  exact wide_shape rfl (by omega) (by have := Bool.toNat_le q; have := d.isLt; have := a.isLt; have := t.isLt; omega)
theorem F.rtake : ∀ q d r, F.Statement (.rtake q d r) := by
  intro q d r
  exact wide_shape rfl (by omega) (by have := Bool.toNat_le q; have := d.isLt; have := r.isLt; omega)
theorem F.rtakeRes : ∀ q d r, F.Statement (.rtakeRes q d r) := by
  intro q d r
  exact wide_shape rfl (by omega) (by have := Bool.toNat_le q; have := d.isLt; have := r.isLt; omega)
theorem F.rgivePub : ∀ q r b, F.Statement (.rgivePub q r b) := by
  intro q r b
  exact wide_shape rfl (by omega) (by have := Bool.toNat_le q; have := r.isLt; have := b.isLt; omega)
theorem F.rgiveRel : ∀ q r b, F.Statement (.rgiveRel q r b) := by
  intro q r b
  exact wide_shape rfl (by omega) (by have := Bool.toNat_le q; have := r.isLt; have := b.isLt; omega)
theorem F.bind : ∀ q a, F.Statement (.bind q a) := by
  intro q a
  exact wide_shape rfl (by omega) (by have := Bool.toNat_le q; have := a.isLt; omega)
theorem F.bindWb : ∀ q a, F.Statement (.bindWb q a) := by
  intro q a
  exact wide_shape rfl (by omega) (by have := Bool.toNat_le q; have := a.isLt; omega)
theorem F.grun : ∀ q a b, F.Statement (.grun q a b) := by
  intro q a b
  exact wide_shape rfl (by omega) (by have := Bool.toNat_le q; have := a.isLt; have := b.isLt; omega)
theorem F.gstop : ∀ q a, F.Statement (.gstop q a) := by
  intro q a
  exact wide_shape rfl (by omega) (by have := Bool.toNat_le q; have := a.isLt; omega)
theorem F.gstat : ∀ q d a, F.Statement (.gstat q d a) := by
  intro q d a
  exact wide_shape rfl (by omega) (by have := Bool.toNat_le q; have := d.isLt; have := a.isLt; omega)
theorem F.pendingResultReturn : ∀ a0 a1 a2, F.Statement (.pendingResultReturn a0 a1 a2) := by intros; exact event_shape rfl
theorem F.seedbedRelease : ∀ a0, F.Statement (.seedbedRelease a0) := by intros; exact event_shape rfl
theorem F.displacement : ∀ a0, F.Statement (.displacement a0) := by intros; exact event_shape rfl
theorem F.recordCommit : ∀ a0, F.Statement (.recordCommit a0) := by intros; exact event_shape rfl
theorem F.castEnd : ∀ a0, F.Statement (.castEnd a0) := by intros; exact event_shape rfl
theorem F.bundleRegroup : ∀ a0, F.Statement (.bundleRegroup a0) := by intros; exact event_shape rfl
theorem F.fairnessTimerExpiry : ∀ a0 a1, F.Statement (.fairnessTimerExpiry a0 a1) := by intros; exact event_shape rfl
theorem F.meetRejoin : ∀ a0 a1, F.Statement (.meetRejoin a0 a1) := by intros; exact event_shape rfl
theorem F.participantSetFixed : ∀ a0 a1, F.Statement (.participantSetFixed a0 a1) := by intros; exact event_shape rfl
theorem F.allZeroWriteback : ∀ a0 a1, F.Statement (.allZeroWriteback a0 a1) := by intros; exact event_shape rfl
theorem F.memoryOpRetire : ∀ a0 a1 a2, F.Statement (.memoryOpRetire a0 a1 a2) := by intros; exact event_shape rfl
theorem F.promotionRequest : ∀ a0, F.Statement (.promotionRequest a0) := by intros; exact event_shape rfl
theorem F.waitaWake : ∀ a0 a1, F.Statement (.waitaWake a0 a1) := by intros; exact event_shape rfl
theorem F.barrierComplete : ∀ a0 a1, F.Statement (.barrierComplete a0 a1) := by intros; exact event_shape rfl
theorem F.reelReserve : ∀ a0 a1, F.Statement (.reelReserve a0 a1) := by intros; exact event_shape rfl
theorem F.reelTake : ∀ a0 a1, F.Statement (.reelTake a0 a1) := by intros; exact event_shape rfl
theorem F.copyStart : ∀ a0, F.Statement (.copyStart a0) := by intros; exact event_shape rfl
theorem F.copyRetire : ∀ a0 a1, F.Statement (.copyRetire a0 a1) := by intros; exact event_shape rfl
theorem F.matrixCommandStart : ∀ a0 a1, F.Statement (.matrixCommandStart a0 a1) := by intros; exact event_shape rfl
theorem F.matrixCommandRetire : ∀ a0 a1, F.Statement (.matrixCommandRetire a0 a1) := by intros; exact event_shape rfl
theorem F.binding : ∀ a0 a1, F.Statement (.binding a0 a1) := by intros; exact event_shape rfl
theorem F.firingStart : ∀ a0 a1, F.Statement (.firingStart a0 a1) := by intros; exact event_shape rfl
theorem F.eosFiring : ∀ a0 a1, F.Statement (.eosFiring a0 a1) := by intros; exact event_shape rfl
theorem F.rebinding : ∀ a0 a1, F.Statement (.rebinding a0 a1) := by intros; exact event_shape rfl
theorem F.graphFailureStop : ∀ a0 a1, F.Statement (.graphFailureStop a0 a1) := by intros; exact event_shape rfl
theorem F.quantumExpiry : ∀ a0, F.Statement (.quantumExpiry a0) := by intros; exact event_shape rfl
theorem F.deferredListApply : ∀ a0, F.Statement (.deferredListApply a0) := by intros; exact event_shape rfl
theorem F.sceneAccept : ∀ a0, F.Statement (.sceneAccept a0) := by intros; exact event_shape rfl
theorem F.castPlacement : ∀ a0, F.Statement (.castPlacement a0) := by intros; exact event_shape rfl
theorem F.endOfLaunch : ∀ a0 a1, F.Statement (.endOfLaunch a0 a1) := by intros; exact event_shape rfl
theorem F.completionRecordWrite : ∀ a0 a1, F.Statement (.completionRecordWrite a0 a1) := by intros; exact event_shape rfl
theorem F.leaseGrant : ∀ a0, F.Statement (.leaseGrant a0) := by intros; exact event_shape rfl
theorem F.wdog : ∀ a0, F.Statement (.wdog a0) := by intros; exact event_shape rfl
theorem F.sliceEnd : ∀ a0 a1, F.Statement (.sliceEnd a0 a1) := by intros; exact event_shape rfl
theorem F.softSaveComplete : ∀ a0 a1, F.Statement (.softSaveComplete a0 a1) := by intros; exact event_shape rfl
theorem F.hardPreemption : ∀ a0 a1, F.Statement (.hardPreemption a0 a1) := by intros; exact event_shape rfl
theorem F.contextRestore : ∀ a0 a1, F.Statement (.contextRestore a0 a1) := by intros; exact event_shape rfl
theorem F.contextRecall : ∀ a0 a1, F.Statement (.contextRecall a0 a1) := by intros; exact event_shape rfl
theorem F.faultRecordWrite : F.Statement .faultRecordWrite := event_shape rfl
theorem F.frespReplay : ∀ a0, F.Statement (.frespReplay a0) := by intros; exact event_shape rfl
theorem F.frespFail : ∀ a0, F.Statement (.frespFail a0) := by intros; exact event_shape rfl
theorem F.assign : ∀ a0 a1 a2, F.Statement (.assign a0 a1 a2) := by intros; exact event_shape rfl
theorem F.share : ∀ a0 a1, F.Statement (.share a0 a1) := by intros; exact event_shape rfl
theorem F.free : ∀ a0, F.Statement (.free a0) := by intros; exact event_shape rfl
theorem F.scrubComplete : F.Statement .scrubComplete := event_shape rfl
theorem F.query : ∀ a0, F.Statement (.query a0) := by intros; exact event_shape rfl
theorem F.xinvPage : ∀ a0 a1, F.Statement (.xinvPage a0 a1) := by intros; exact event_shape rfl
theorem F.xinvAllotment : ∀ a0, F.Statement (.xinvAllotment a0) := by intros; exact event_shape rfl
theorem F.xinvComplete : F.Statement .xinvComplete := event_shape rfl
theorem F.migdst : ∀ a0, F.Statement (.migdst a0) := by intros; exact event_shape rfl
theorem F.migrationComplete : F.Statement .migrationComplete := event_shape rfl
theorem F.kgen : ∀ a0, F.Statement (.kgen a0) := by intros; exact event_shape rfl
theorem F.uncorrectableError : ∀ a0, F.Statement (.uncorrectableError a0) := by intros; exact event_shape rfl
theorem F.correctedError : ∀ a0 a1 a2, F.Statement (.correctedError a0 a1 a2) := by intros; exact event_shape rfl
theorem F.patrolScrub : ∀ a0 a1, F.Statement (.patrolScrub a0 a1) := by intros; exact event_shape rfl
theorem F.create : ∀ a0, F.Statement (.create a0) := by intros; exact event_shape rfl
theorem F.update : ∀ a0, F.Statement (.update a0) := by intros; exact event_shape rfl
theorem F.destroy : ∀ a0, F.Statement (.destroy a0) := by intros; exact event_shape rfl
theorem F.rtsync : F.Statement .rtsync := event_shape rfl
theorem F.crepair : ∀ a0, F.Statement (.crepair a0) := by intros; exact event_shape rfl
theorem F.registerWrite : ∀ a0 a1, F.Statement (.registerWrite a0 a1) := by intros; exact event_shape rfl
theorem F.rdmaWrite : ∀ a0 a1 a2 a3, F.Statement (.rdmaWrite a0 a1 a2 a3) := by intros; exact event_shape rfl
theorem F.rdmaRead : ∀ a0 a1 a2 a3, F.Statement (.rdmaRead a0 a1 a2 a3) := by intros; exact event_shape rfl
theorem F.atomicFetchAndAdd : ∀ a0 a1 a2 a3, F.Statement (.atomicFetchAndAdd a0 a1 a2 a3) := by intros; exact event_shape rfl
theorem F.atomicCompareAndSwap : ∀ a0 a1 a2 a3 a4, F.Statement (.atomicCompareAndSwap a0 a1 a2 a3 a4) := by intros; exact event_shape rfl
theorem F.invalidRequestNak : ∀ a0, F.Statement (.invalidRequestNak a0) := by intros; exact event_shape rfl
theorem F.ecnMarkedPacket : ∀ a0, F.Statement (.ecnMarkedPacket a0) := by intros; exact event_shape rfl
theorem F.remoteRequest : ∀ a0, F.Statement (.remoteRequest a0) := by intros; exact event_shape rfl
theorem F.flitReceive : ∀ a0 a1 a2, F.Statement (.flitReceive a0 a1 a2) := by intros; exact event_shape rfl
theorem F.laneRetire : ∀ a0 a1, F.Statement (.laneRetire a0 a1) := by intros; exact event_shape rfl
theorem F.laneFailure : ∀ a0 a1, F.Statement (.laneFailure a0 a1) := by intros; exact event_shape rfl
theorem F.arbitrationWindow : ∀ a0, F.Statement (.arbitrationWindow a0) := by intros; exact event_shape rfl
theorem F.thermalSample : ∀ a0 a1 a2, F.Statement (.thermalSample a0 a1 a2) := by intros; exact event_shape rfl
theorem F.lifetimeRecordSave : F.Statement .lifetimeRecordSave := event_shape rfl
theorem F.sensor : ∀ a0, F.Statement (.sensor a0) := by intros; exact event_shape rfl
theorem F.setop : ∀ a0 a1, F.Statement (.setop a0 a1) := by intros; exact event_shape rfl
theorem F.pcap : ∀ a0, F.Statement (.pcap a0) := by intros; exact event_shape rfl
theorem F.evread : ∀ a0, F.Statement (.evread a0) := by intros; exact event_shape rfl
theorem F.liferead : ∀ a0, F.Statement (.liferead a0) := by intros; exact event_shape rfl
theorem F.fwwrite : ∀ a0 a1 a2, F.Statement (.fwwrite a0 a1 a2) := by intros; exact event_shape rfl
theorem F.fwseal : ∀ a0, F.Statement (.fwseal a0) := by intros; exact event_shape rfl
theorem F.fwcommit : ∀ a0, F.Statement (.fwcommit a0) := by intros; exact event_shape rfl
theorem F.attest : ∀ a0 a1, F.Statement (.attest a0 a1) := by intros; exact event_shape rfl
theorem F.atread : ∀ a0, F.Statement (.atread a0) := by intros; exact event_shape rfl
theorem F.reset : F.Statement .reset := event_shape rfl
theorem F.i3cDynamicAddress : ∀ a0, F.Statement (.i3cDynamicAddress a0) := by intros; exact event_shape rfl
theorem F.powerOn : F.Statement .powerOn := event_shape rfl
theorem F.ethernetOpen : F.Statement .ethernetOpen := event_shape rfl
theorem F.pageOut : ∀ a0 a1, F.Statement (.pageOut a0 a1) := by intros; exact event_shape rfl
theorem F.laneRetrainComplete : ∀ a0, F.Statement (.laneRetrainComplete a0) := by intros; exact event_shape rfl
theorem F.powerLoss : F.Statement .powerLoss := event_shape rfl
theorem F.orderlyShutdown : F.Statement .orderlyShutdown := event_shape rfl
theorem F.priorityFlowControlFrame : ∀ a0 a1 a2, F.Statement (.priorityFlowControlFrame a0 a1 a2) := by intros; exact event_shape rfl

end Sys2Proof.Laws
end

