-- ==== Sys2Proof/Laws/Run.lean ====
section
/-!
SUPPORT. What the prologue of an instruction word does, once for every meaning (R51, R52, R133), and the completion of an
instruction as later proofs cite it.
-/

namespace Sys2Proof.Machine

open Sys2Proof

@[simp] theorem Ctx.cued_r (k : Ctx) (q : Bool) : (k.cued q).r = k.r := by cases q <;> rfl
@[simp] theorem Ctx.cued_c (k : Ctx) (q : Bool) : (k.cued q).c = k.c := by cases q <;> rfl
@[simp] theorem Ctx.cued_pc (k : Ctx) (q : Bool) : (k.cued q).t.pc = k.t.pc := by cases q <;> rfl
@[simp] theorem Ctx.cued_x (k : Ctx) (q : Bool) : (k.cued q).t.x = k.t.x := by cases q <;> rfl
@[simp] theorem Ctx.cued_k (k : Ctx) (q : Bool) : (k.cued q).t.k = k.t.k := by cases q <;> rfl
@[simp] theorem Ctx.cued_e (k : Ctx) (q : Bool) : (k.cued q).t.e = k.t.e := by cases q <;> rfl
@[simp] theorem Ctx.cued_lc (k : Ctx) (q : Bool) : (k.cued q).t.lc = k.t.lc := by cases q <;> rfl
@[simp] theorem Ctx.cued_key (k : Ctx) (q : Bool) : (k.cued q).t.key = k.t.key := by cases q <;> rfl
@[simp] theorem Ctx.cued_dep (k : Ctx) (q : Bool) : (k.cued q).t.dep = k.t.dep := by cases q <;> rfl
@[simp] theorem Ctx.cued_own (k : Ctx) (q : Bool) : (k.cued q).t.own = k.t.own := by cases q <;> rfl
@[simp] theorem Ctx.cued_cmask (k : Ctx) (q : Bool) : (k.cued q).t.cmask = k.t.cmask := by cases q <;> rfl
@[simp] theorem Ctx.cued_meet (k : Ctx) (q : Bool) : (k.cued q).t.meet = k.t.meet := by cases q <;> rfl
@[simp] theorem Ctx.cued_retired (k : Ctx) (q : Bool) : (k.cued q).t.retired = k.t.retired := by cases q <;> rfl
@[simp] theorem Ctx.cued_retLatch (k : Ctx) (q : Bool) : (k.cued q).t.retLatch = k.t.retLatch := by cases q <;> rfl
@[simp] theorem Ctx.cued_flights (k : Ctx) (q : Bool) : (k.cued q).t.flights = k.t.flights := by cases q <;> rfl
@[simp] theorem Ctx.cued_crew (k : Ctx) (q : Bool) : (k.cued q).crew = k.crew := by cases q <;> rfl
@[simp] theorem Ctx.cued_crewN (k : Ctx) (q : Bool) : (k.cued q).crewN = k.crewN := by cases q <;> rfl
@[simp] theorem Ctx.cued_lane (k : Ctx) (q : Bool) : (k.cued q).lane = k.lane := by cases q <;> rfl
@[simp] theorem Ctx.cued_full (k : Ctx) (q : Bool) (c : OpClass) : (k.cued q).full c = k.full c := by cases q <;> rfl
@[simp] theorem Ctx.cued_after (k : Ctx) (q : Bool) (n : Nat) : (k.cued q).after n = k.after n := by cases q <;> rfl
@[simp] theorem Ctx.cued_getX (k : Ctx) (q : Bool) (r : BitVec 6) : (k.cued q).t.getX r = k.t.getX r := by cases q <;> rfl
@[simp] theorem Ctx.cued_getK (k : Ctx) (q : Bool) (r : BitVec 3) : (k.cued q).t.getK r = k.t.getK r := by cases q <;> rfl
@[simp] theorem Ctx.cued_getE (k : Ctx) (q : Bool) (r : BitVec 2) : (k.cued q).t.getE r = k.t.getE r := by cases q <;> rfl
@[simp] theorem Ctx.cued_getA (k : Ctx) (q : Bool) (r : BitVec 5) : (k.cued q).t.getA r = k.t.getA r := by cases q <;> rfl
@[simp] theorem Ctx.cued_getPair (k : Ctx) (q : Bool) (r : BitVec 6) : (k.cued q).t.getPair r = k.t.getPair r := by
  cases q <;> rfl
@[simp] theorem Ctx.cued_effAddr (k : Ctx) (q : Bool) (p : BitVec 5) (i : BitVec 9) (z : BitVec 3) :
    effAddr (k.cued q).t p i z = effAddr k.t p i z := by cases q <;> rfl
@[simp] theorem Ctx.cued_storeData (k : Ctx) (q : Bool) (z : BitVec 3) (d : BitVec 6) :
    storeData (k.cued q).t z d = storeData k.t z d := by cases q <;> rfl
@[simp] theorem Ctx.cued_held (k : Ctx) (q : Bool) (s : State) : (k.cued q).held s = k.held s := by cases q <;> rfl
@[simp] theorem Ctx.cued_holds (k : Ctx) (q : Bool) (s : State) : (k.cued q).holds s = k.holds s := by cases q <;> rfl
@[simp] theorem Ctx.cued_behind (k : Ctx) (q : Bool) (s : State) (a : DWord) (n : Nat) : (k.cued q).behind s a n = k.behind s a n := by
  cases q <;> rfl
@[simp] theorem Ctx.cued_acquiring (k : Ctx) (q : Bool) (s : State) : (k.cued q).acquiring s = k.acquiring s := by cases q <;> rfl

/-- The completion of an instruction does not read the marks that a cue point clears. -/
@[simp] theorem retire_cued (s : State) (k : Ctx) (q : Bool) (t : Thread) (n : DWord) (b : Bool) :
    retire s (k.cued q) t n b = retire s k t n b := by cases q <;> rfl
@[simp] theorem State.flag_cued (s : State) (k : Ctx) (q : Bool) (f : Word) : s.flag (k.cued q) f = s.flag k f := by
  cases q <;> rfl
@[simp] theorem State.switch_cued (s : State) (k : Ctx) (q : Bool) : s.switch (k.cued q) = s.switch k := by cases q <;> rfl
@[simp] theorem State.count_cued (s : State) (k : Ctx) (q : Bool) (c : OpClass) (d : Bool) :
    s.count (k.cued q) c d = s.count k c d := by cases q <;> rfl

/-- A word that reads and writes fewer registers runs too. -/
theorem CanRun.sub {s : State} {k : Ctx} {q : Bool} {l m : List Dst} (h : CanRun s k q l) (hs : ∀ d ∈ m, d ∈ l) : CanRun s k q m :=
  ⟨h.ready, h.quiet, fun hq d hd => h.free hq d (hs d hd)⟩

/-- Where a thread can run its word, the prologue of a legal, unprivileged word goes on to the word's own operation. -/
theorem prologue_run {s : State} {k : Ctx} {q : Bool} {regs : List Dst} (h : CanRun s k q regs) (body : Ctx → Out) :
    prologue false false q regs s body = body (k.cued q) := by
  unfold prologue
  rw [h.ready]
  cases q with
  | true =>
    simp [h.quiet rfl, Ctx.cued]
  | false =>
    simp only [Bool.false_eq_true, if_false, Bool.false_and, Ctx.cued]
    rw [if_neg]
    simpa using h.free rfl

/-- A word that is no instruction takes ILL before anything else is looked at (R133). -/
theorem prologue_ill {s : State} {k : Ctx} (h : s.ctx = some k) (priv q : Bool) (regs : List Dst) (body : Ctx → Out) :
    prologue true priv q regs s body = raise s k .ill := by
  unfold prologue
  rw [h]
  rfl

/-- A privileged number takes PRIV (R132, R133). -/
theorem prologue_priv {s : State} {k : Ctx} (h : s.ctx = some k) (q : Bool) (regs : List Dst) (body : Ctx → Out) :
    prologue false true q regs s body = raise s k .priv := by
  unfold prologue
  rw [h]
  rfl

/-- At a cue point the thread waits while a result of its own is in flight (R51). -/
theorem prologue_cue {s : State} {k : Ctx} (h : s.ctx = some k) (hf : k.t.writing = true) (regs : List Dst) (body : Ctx → Out) :
    prologue false false true regs s body = .next (s.setThread k.r { k.t with st := .cueWait }) := by
  unfold prologue
  rw [h]
  simp [hf]

/-- A register of the word that is pending, and no cue point: PEND (R52). -/
theorem prologue_pend {s : State} {k : Ctx} (h : s.ctx = some k) {regs : List Dst} {d : Dst} (hd : d ∈ regs) (hp : d ∈ k.t.pend)
    (body : Ctx → Out) : prologue false false false regs s body = raise s k .pend := by
  unfold prologue
  rw [h]
  simp only [Bool.false_eq_true, if_false, Bool.false_and]
  rw [if_pos]
  exact List.any_eq_true.2 ⟨d, hd, by simpa using hp⟩

/-- A word that changes its thread's registers only. -/
theorem threadOp_run {s : State} {k : Ctx} {len : Nat} {q : Bool} {rd wr : List Dst} (h : CanRun s k q (rd ++ wr))
    (f : Thread → Thread) : threadOp len q rd wr f s = .next (retire s k (f (k.cued q).t) (k.after len) false) := by
  simp [threadOp, prologue_run h]

/-- A word that writes one general register from general registers. -/
theorem aluOp_run {s : State} {k : Ctx} {len : Nat} {q : Bool} {rd : List (BitVec 6)} {d : BitVec 6}
    (h : CanRun s k q (rd.map Dst.x ++ [.x d])) (f : Thread → Word) :
    aluOp len q rd d f s = .next (retire s k ((k.cued q).t.setX d (f (k.cued q).t)) (k.after len) false) := by
  simp [aluOp, threadOp_run h]

/-- A word that writes one predicate. -/
theorem predOp_run {s : State} {k : Ctx} {q : Bool} {rd : List Dst} {d : BitVec 3}
    (h : CanRun s k q (rd ++ [.k d])) (f : Thread → Bool) :
    predOp q rd d f s = .next (retire s k ((k.cued q).t.setK d (f (k.cued q).t)) (k.after 4) false) := by
  simp [predOp, threadOp_run h]

/-- A word that also sets FLAGS and reads MODE. -/
theorem modeOp_run {s : State} {k : Ctx} {len : Nat} {q : Bool} {rd wr : List Dst} (h : CanRun s k q (rd ++ wr))
    (f : Word → Thread → Thread × Word) :
    modeOp false len q rd wr f s =
      .next ((retire s k (f k.crew.mode (k.cued q).t).1 (k.after len) false).flag k (f k.crew.mode (k.cued q).t).2) := by
  simp [modeOp, prologue_run h]

/-- A floating-point word to one general register. -/
theorem fpOp_run {s : State} {k : Ctx} {len : Nat} {q : Bool} {rd : List (BitVec 6)} {d : BitVec 6}
    (h : CanRun s k q (rd.map Dst.x ++ [.x d])) (f : Word → Thread → Word × Word) :
    fpOp len q rd d f s =
      .next ((retire s k ((k.cued q).t.setX d (f k.crew.mode (k.cued q).t).1) (k.after len) false).flag k
        (f k.crew.mode (k.cued q).t).2) := by
  simp [fpOp, modeOp_run h]

/-- A word whose result is pending. -/
theorem pendOp_run {s : State} {k : Ctx} {q : Bool} {rd wr : List Dst} (h : CanRun s k q (rd ++ wr)) (f : Ctx → Flight) :
    pendOp q rd wr f s = .next (retire s k ((k.cued q).t.pending (f (k.cued q))) (k.after 4) false) := by
  simp [pendOp, prologue_run h]

end Sys2Proof.Machine
end

