-- ==== Sys2Proof/Tests/Slice0.lean ====
section
/-!
SUPPORT. Tests: ill-formed terms, words of every instruction written out from the encoding tables, one step of the instructions and of events on a
small loaded machine, and for each statement a state and operands that meet its hypotheses.
-/

open Sys2Proof Sys2Proof.Machine

namespace Sys2Proof.Tests

set_option Elab.async false

/-! ### Well-formed terms: one ill-formed term per check, and its nearest well-formed neighbour (R126, R132, R135, R192) -/

theorem test_wf_integer : ¬(Instr.ill false 0).wf = true ∧ ¬(Instr.bfx true 3 4 31 1).wf = true ∧ (Instr.bfx true 3 4 31 0).wf = true ∧
    ¬(Instr.bfxS true 3 4 0x1F 0x1F).wf = true ∧ ¬(Instr.bfi true 3 4 1 0x1F).wf = true ∧ (Instr.bfi true 3 4 0 0x1F).wf = true ∧
    ¬(Instr.cmp true 1 3 4 6).wf = true ∧ (Instr.cmp true 1 3 4 5).wf = true ∧ ¬(Instr.cmpi true 1 7 3 0).wf = true ∧
    ¬(Instr.loop true 3 4 1).wf = true ∧ ¬(Instr.loop true 2 4 0).wf = true ∧ (Instr.loop true 2 4 1).wf = true := by decide

/-- A number with no register, OUTBASE to an odd register; a number with no register, a read-only one, and MODE. -/
theorem test_wf_special : ¬(Instr.mfs true 3 0x013).wf = true ∧ ¬(Instr.mfs true 3 0x800).wf = true ∧ ¬(Instr.mfs true 3 0x040).wf = true ∧
    (Instr.mfs true 2 0x040).wf = true ∧ ¬(Instr.mts true 3 0x017).wf = true ∧ ¬(Instr.mts true 3 0x000).wf = true ∧
    (Instr.mts true 3 0x014).wf = true := by decide

/-- A DB format, one format twice, H on FP32; a format of 4; block formats of 3. -/
theorem test_wf_lane : ¬(Instr.fcvt true 3 4 1 4 false).wf = true ∧ ¬(Instr.fcvt true 3 4 1 1 false).wf = true ∧ ¬(Instr.fcvt true 3 4 2 1 true).wf = true ∧
    (Instr.fcvt true 3 4 1 2 true).wf = true ∧ ¬(Instr.ernd true 3 1 4).wf = true ∧ ¬(Instr.ernd true 3 1 0).wf = true ∧
    ¬(Instr.bpack true 3 4 5 3).wf = true ∧ ¬(Instr.bpackFx true 3 4 5 3).wf = true ∧ ¬(Instr.bunpk true 3 4 3).wf = true ∧
    ¬(Instr.cred true 3 4 11).wf = true ∧ (Instr.cred true 3 4 10).wf = true ∧ ¬(Instr.cscan true 3 4 15).wf = true ∧
    ¬(Instr.cscanx true 3 4 11).wf = true := by decide

/-- Sizes of 5, groups that are not aligned, a sign-extended word; scopes of 6 and 7; operations that RED has not, CAS from an odd register. -/
theorem test_wf_memory : ¬(Instr.ld true 4 1 false 5 0).wf = true ∧ ¬(Instr.ld true 5 1 false 3 0).wf = true ∧ ¬(Instr.ld true 6 1 false 4 0).wf = true ∧
    ¬(Instr.ld true 4 1 true 2 0).wf = true ∧ (Instr.ld true 4 1 true 1 0).wf = true ∧ ¬(Instr.st true 2 1 4 0).wf = true ∧
    ¬(Instr.lds true 3 1 6).wf = true ∧ ¬(Instr.ldsD true 3 1 7).wf = true ∧ ¬(Instr.sts true 3 1 6).wf = true ∧ ¬(Instr.stsD true 3 1 6).wf = true ∧
    ¬(Instr.atom true 3 1 4 6 0).wf = true ∧ ¬(Instr.atom true 3 1 4 3 13).wf = true ∧ ¬(Instr.atom true 3 1 5 3 10).wf = true ∧
    (Instr.atom true 3 1 4 5 10).wf = true ∧ ¬(Instr.atomt true 3 1 4 7).wf = true ∧ ¬(Instr.red true 1 4 6 0).wf = true ∧
    ¬(Instr.red true 1 4 3 9).wf = true ∧ ¬(Instr.red true 1 4 3 10).wf = true ∧ (Instr.red true 1 4 3 12).wf = true ∧
    ¬(Instr.waita true 3 1 4 3 4).wf = true ∧ ¬(Instr.waita true 3 1 4 6 0).wf = true ∧ ¬(Instr.waitc true 0 0 6 true false).wf = true ∧
    ¬(Instr.waitc true 0 0 1 false false).wf = true ∧ (Instr.waitc true 0 0 5 false true).wf = true := by decide

theorem test_decode_narrow :
    decodeNat 0x59A0 = .ok (.mov 0xD 0x16) ∧
    decodeNat 0x59A2 = .ok (.addN 0xD 0x16) ∧
    decodeNat 0x59A4 = .ok (.subN 0xD 0x16) ∧
    decodeNat 0x59A6 = .ok (.andN 0xD 0x16) ∧
    decodeNat 0x59A8 = .ok (.orN 0xD 0x16) ∧
    decodeNat 0x59AA = .ok (.xorN 0xD 0x16) ∧
    decodeNat 0x59AC = .ok (.shlN 0xD 0x16) ∧
    decodeNat 0x59AE = .ok (.shrN 0xD 0x16) ∧
    decodeNat 0x59B0 = .ok (.addi5 0xD 0x16) ∧
    decodeNat 0x59B2 = .ok (.faddN 0xD 0x16) ∧
    decodeNat 0x59B4 = .ok (.fsubN 0xD 0x16) ∧
    decodeNat 0x59B6 = .ok (.fmulN 0xD 0x16) ∧
    decodeNat 0x59B8 = .ok (.fminN 0xD 0x16) ∧
    decodeNat 0x59BA = .ok (.fmaxN 0xD 0x16) ∧
    decodeNat 0x59BC = .ok (.movi5 0xD 0x16) ∧
    decodeNat 0x59BE = .ok (.mulN 0xD 0x16) := by decide +kernel

theorem test_decode_integer_1 :
    decodeNat 0x82D39603 = .ok (.ill true 0x82D396) ∧
    decodeNat 0x0242F607 = .ok (.add true 0x36 0xB 0x24) ∧
    decodeNat 0x0642F607 = .ok (.sub true 0x36 0xB 0x24) ∧
    decodeNat 0x0A42F607 = .ok (.and true 0x36 0xB 0x24) ∧
    decodeNat 0x0E42F605 = .ok (.or false 0x36 0xB 0x24) ∧
    decodeNat 0x1242F607 = .ok (.xor true 0x36 0xB 0x24) ∧
    decodeNat 0x1642F605 = .ok (.andn false 0x36 0xB 0x24) ∧
    decodeNat 0x1A42F607 = .ok (.shl true 0x36 0xB 0x24) ∧
    decodeNat 0x1E42F607 = .ok (.shr true 0x36 0xB 0x24) ∧
    decodeNat 0x2242F607 = .ok (.sra true 0x36 0xB 0x24) ∧
    decodeNat 0x2642F607 = .ok (.ror true 0x36 0xB 0x24) ∧
    decodeNat 0x2A42F607 = .ok (.mul true 0x36 0xB 0x24) ∧
    decodeNat 0x2E42F605 = .ok (.mulh false 0x36 0xB 0x24) ∧
    decodeNat 0x3242F607 = .ok (.mulhu true 0x36 0xB 0x24) ∧
    decodeNat 0x3642F605 = .ok (.mulhsu false 0x36 0xB 0x24) ∧
    decodeNat 0x3A42F607 = .ok (.div true 0x36 0xB 0x24) ∧
    decodeNat 0x3E42F605 = .ok (.divu false 0x36 0xB 0x24) ∧
    decodeNat 0x4242F607 = .ok (.rem true 0x36 0xB 0x24) ∧
    decodeNat 0x4642F605 = .ok (.remu false 0x36 0xB 0x24) ∧
    decodeNat 0x4A42F607 = .ok (.min true 0x36 0xB 0x24) := by decide +kernel

theorem test_decode_integer_2 :
    decodeNat 0x4E42F607 = .ok (.max true 0x36 0xB 0x24) ∧
    decodeNat 0x5242F605 = .ok (.minu false 0x36 0xB 0x24) ∧
    decodeNat 0x5642F605 = .ok (.maxu false 0x36 0xB 0x24) ∧
    decodeNat 0x5802F607 = .ok (.clz true 0x36 0xB) ∧
    decodeNat 0x5C02F605 = .ok (.popc false 0x36 0xB) ∧
    decodeNat 0x6002F605 = .ok (.brev false 0x36 0xB) ∧
    decodeNat 0x6642F607 = .ok (.slt true 0x36 0xB 0x24) ∧
    decodeNat 0x6A42F605 = .ok (.sltu false 0x36 0xB 0x24) := by decide +kernel

theorem test_decode_immediate :
    decodeNat 0xCE42F609 = .ok (.addi false 0x36 0xB 0xCE4) ∧
    decodeNat 0xCE42F60D = .ok (.andi false 0x36 0xB 0xCE4) ∧
    decodeNat 0xCE42F613 = .ok (.ori true 0x36 0xB 0xCE4) ∧
    decodeNat 0xCE42F615 = .ok (.xori false 0x36 0xB 0xCE4) ∧
    decodeNat 0x0142F619 = .ok (.shli false 0x36 0xB 0x14) ∧
    decodeNat 0x0342F619 = .ok (.shri false 0x36 0xB 0x14) ∧
    decodeNat 0x0542F619 = .ok (.srai false 0x36 0xB 0x14) ∧
    decodeNat 0x0742F619 = .ok (.rori false 0x36 0xB 0x14) ∧
    decodeNat 0x1A72F61F = .ok (.lui true 0x36 0x69CB) ∧
    decodeNat 0x5A72F61D = .ok (.luiZ false 0x36 0x69CB) ∧
    decodeNat 0x9A72F61F = .ok (.luiLo true 0x36 0x69CB) ∧
    decodeNat 0xDA72F61D = .ok (.luiS false 0x36 0x69CB) := by decide +kernel

theorem test_decode_fields :
    decodeNat 0x0742F623 = .ok (.bfx true 0x36 0xB 0x14 0x3) ∧
    decodeNat 0x4742F621 = .ok (.bfxS false 0x36 0xB 0x14 0x3) ∧
    decodeNat 0x0742F627 = .ok (.bfi true 0x36 0xB 0x14 0x3) ∧
    decodeNat 0x0E42C62B = .ok (.cmp true 0x6 0xB 0x24 0x3) ∧
    decodeNat 0x27391E2D = .ok (.cmpi false 0x6 0x3 0x24 0x273) ∧
    decodeNat 0x0E42F633 = .ok (.sel true 0x36 0xB 0x24 0x3) ∧
    decodeNat 0x0040C635 = .ok (.kand false 0x6 0x3 0x4) ∧
    decodeNat 0x0440C637 = .ok (.kor true 0x6 0x3 0x4) ∧
    decodeNat 0x0840C635 = .ok (.kxor false 0x6 0x3 0x4) ∧
    decodeNat 0x0C40C637 = .ok (.kandn true 0x6 0x3 0x4) ∧
    decodeNat 0x1040C635 = .ok (.korn false 0x6 0x3 0x4) ∧
    decodeNat 0x1400C635 = .ok (.knot false 0x6 0x3) ∧
    decodeNat 0x1800F635 = .ok (.ktox false 0x36 0x3) ∧
    decodeNat 0x1C02C635 = .ok (.xtok false 0x6 0xB) ∧
    decodeNat 0x20003637 = .ok (.kpack true 0x36) ∧
    decodeNat 0x240D8037 = .ok (.kunpk true 0x36) ∧
    decodeNat 0x0642D639 = .ok (.adda false 0x16 0xB 0x24 0x1) ∧
    decodeNat 0xCE42D63F = .ok (.addai true 0x16 0xB 0xCE4) := by decide +kernel

theorem test_decode_control :
    decodeNat 0x8B4E4641 = .ok (.br false 0x6 false 0x8B4E4) ∧
    decodeNat 0x82D39647 = .ok (.jmp true 0x82D396) ∧
    decodeNat 0x82D39649 = .ok (.call false 0x82D396) ∧
    decodeNat 0x0005804D = .ok (.jr false 0x16) ∧
    decodeNat 0x0405804F = .ok (.callr true 0x16) ∧
    decodeNat 0x0800004F = .ok (.ret true) ∧
    decodeNat 0x0002F651 = .ok (.become false 0x36 0xB) ∧
    decodeNat 0x82D39655 = .ok (.meet false 0x82D396) ∧
    decodeNat 0x0000005B = .ok (.yield true) ∧
    decodeNat 0xCE42C25D = .ok (.loop false 0x2 0xB 0xCE4) ∧
    decodeNat 0x00000063 = .ok (.nop true) ∧
    decodeNat 0x06D39661 = .ok (.trap false 0x2D396) ∧
    decodeNat 0x0AD39663 = .ok (.brk true 0x2D396) ∧
    decodeNat 0x1CB03667 = .ok (.mfs true 0x36 0x1CB) ∧
    decodeNat 0x1CBD806B = .ok (.mts true 0x36 0x1CB) := by decide +kernel

theorem test_decode_float :
    decodeNat 0x0242F66D = .ok (.fadd false 0x36 0xB 0x24) ∧
    decodeNat 0x0642F66D = .ok (.fsub false 0x36 0xB 0x24) ∧
    decodeNat 0x0A42F66D = .ok (.fmul false 0x36 0xB 0x24) ∧
    decodeNat 0x0E42F66D = .ok (.fmin false 0x36 0xB 0x24) ∧
    decodeNat 0x1242F66D = .ok (.fmax false 0x36 0xB 0x24) ∧
    decodeNat 0x1402F66D = .ok (.fabs false 0x36 0xB) ∧
    decodeNat 0x1802F66D = .ok (.fneg false 0x36 0xB) ∧
    decodeNat 0x1E42F66F = .ok (.fsgnj true 0x36 0xB 0x24) ∧
    decodeNat 0x4E42F671 = .ok (.ffma false 0x36 0xB 0x24 0x13) ∧
    decodeNat 0x4E42F675 = .ok (.ffms false 0x36 0xB 0x24 0x13) ∧
    decodeNat 0x4E42F679 = .ok (.fnma false 0x36 0xB 0x24 0x13) := by decide +kernel

theorem test_decode_packed :
    decodeNat 0x0242F67F = .ok (.hadd2 true 0x36 0xB 0x24) ∧
    decodeNat 0x0642F67F = .ok (.hsub2 true 0x36 0xB 0x24) ∧
    decodeNat 0x0A42F67F = .ok (.hmul2 true 0x36 0xB 0x24) ∧
    decodeNat 0x0E42F67F = .ok (.hmin2 true 0x36 0xB 0x24) ∧
    decodeNat 0x1242F67F = .ok (.hmax2 true 0x36 0xB 0x24) ∧
    decodeNat 0x2242F67F = .ok (.badd2 true 0x36 0xB 0x24) ∧
    decodeNat 0x2642F67F = .ok (.bsub2 true 0x36 0xB 0x24) ∧
    decodeNat 0x2A42F67F = .ok (.bmul2 true 0x36 0xB 0x24) ∧
    decodeNat 0x2E42F67F = .ok (.bmin2 true 0x36 0xB 0x24) ∧
    decodeNat 0x3242F67F = .ok (.bmax2 true 0x36 0xB 0x24) ∧
    decodeNat 0x4E42F683 = .ok (.hfma2 true 0x36 0xB 0x24 0x13) ∧
    decodeNat 0x4E42F687 = .ok (.bfma2 true 0x36 0xB 0x24 0x13) ∧
    decodeNat 0x0E42C689 = .ok (.fcmp false 0x6 0xB 0x24 0x3) := by decide +kernel

theorem test_decode_chain_1 :
    decodeNat 0x4CC2F68D = .ok (.fcvt false 0x36 0xB 0xC 0x3 true) ∧
    decodeNat 0x0002F693 = .ok (.rcp true 0x36 0xB) ∧
    decodeNat 0x0402F693 = .ok (.rsq true 0x36 0xB) ∧
    decodeNat 0x0802F691 = .ok (.sqrt false 0x36 0xB) ∧
    decodeNat 0x0C02F691 = .ok (.exp2 false 0x36 0xB) ∧
    decodeNat 0x1002F691 = .ok (.log2 false 0x36 0xB) ∧
    decodeNat 0x1402F691 = .ok (.tanh false 0x36 0xB) ∧
    decodeNat 0x1802F693 = .ok (.sin true 0x36 0xB) ∧
    decodeNat 0x1C02F693 = .ok (.cos true 0x36 0xB) ∧
    decodeNat 0x02404297 = .ok (.faddE true 0x2 0x1 0x24) ∧
    decodeNat 0x0642C297 = .ok (.fmulE true 0x2 0xB 0x24) ∧
    decodeNat 0x0A42C297 = .ok (.ffmaE true 0x2 0xB 0x24) ∧
    decodeNat 0x0C204295 = .ok (.eadd false 0x2 0x1 0x2) ∧
    decodeNat 0x1002C297 = .ok (.efrom true 0x2 0xB) ∧
    decodeNat 0x16407695 = .ok (.ernd false 0x36 0x1 0x24) ∧
    decodeNat 0x18006C95 = .ok (.eget false 0x16 0x1) ∧
    decodeNat 0x1C058295 = .ok (.eset false 0x2 0xB) ∧
    decodeNat 0x0242F699 = .ok (.dot4 false 0x36 0xB 0x24) ∧
    decodeNat 0x0642F69B = .ok (.dot4u true 0x36 0xB 0x24) ∧
    decodeNat 0x0A42F699 = .ok (.dot4su false 0x36 0xB 0x24) := by decide +kernel

theorem test_decode_chain_2 :
    decodeNat 0x0E42F69B = .ok (.dot2h true 0x36 0xB 0x24) ∧
    decodeNat 0x0682F69F = .ok (.bpack true 0x36 0xB 0x14 0x1) ∧
    decodeNat 0x1682F69F = .ok (.bpackFx true 0x36 0xB 0x14 0x1) ∧
    decodeNat 0x2802F69F = .ok (.bunpk true 0x36 0xB 0x2) ∧
    decodeNat 0x0645B6A1 = .ok (.rndm false 0x36 0xB 0x24 0x1) ∧
    decodeNat 0x1245B8A3 = .ok (.rndm4 true 0xE 0xB 0x24) ∧
    decodeNat 0x0000F6A7 = .ok (.voteBal true 0x36 0x3) ∧
    decodeNat 0x0400C6A7 = .ok (.voteAny true 0x6 0x3) ∧
    decodeNat 0x0800C6A7 = .ok (.voteAll true 0x6 0x3) ∧
    decodeNat 0x1242F6A7 = .ok (.shflIdx true 0x36 0xB 0x24) ∧
    decodeNat 0x1642F6A5 = .ok (.shflUp false 0x36 0xB 0x24) ∧
    decodeNat 0x1A42F6A5 = .ok (.shflDn false 0x36 0xB 0x24) ∧
    decodeNat 0x1E42F6A7 = .ok (.shflXor true 0x36 0xB 0x24) := by decide +kernel

theorem test_decode_random :
    decodeNat 0x3002F6A9 = .ok (.cred false 0x36 0xB 0xC) ∧
    decodeNat 0x7002F6AB = .ok (.cscan true 0x36 0xB 0xC) ∧
    decodeNat 0xB002F6A9 = .ok (.cscanx false 0x36 0xB 0xC) := by decide +kernel

theorem test_decode_memory :
    decodeNat 0x9C3AF6AD = .ok (.ld false 0x36 0xB true 0x3 0x138) ∧
    decodeNat 0x39C2F6B1 = .ok (.st false 0x36 0xB 0x4 0x73) ∧
    decodeNat 0x0802F6B7 = .ok (.lds true 0x36 0xB 0x4) ∧
    decodeNat 0x1802ECB5 = .ok (.ldsD false 0x16 0xB 0x4) ∧
    decodeNat 0x0802F6BB = .ok (.sts true 0x36 0xB 0x4) ∧
    decodeNat 0x1802ECB9 = .ok (.stsD false 0x16 0xB 0x4) ∧
    decodeNat 0x0722F6BD = .ok (.acqp false 0x36 0xB 0x24) ∧
    decodeNat 0x1602F6BF = .ok (.acqpAll true 0x36 0xB) ∧
    decodeNat 0x8722F6C1 = .ok (.atom false 0x36 0xB 0x24 0x3 0x8) ∧
    decodeNat 0x0742F6C7 = .ok (.atomt true 0x36 0xB 0x14 0x3) ∧
    decodeNat 0x385D80CB = .ok (.red true 0x16 0xB 0x4 0x3) ∧
    decodeNat 0x8722F6CF = .ok (.waita true 0x36 0xB 0x24 0x3 0x8) := by decide +kernel

theorem test_decode_engines :
    decodeNat 0x0002CED3 = .ok (.barArrive true 0xE 0xB) ∧
    decodeNat 0x0402CED3 = .ok (.barWait true 0xE 0xB) ∧
    decodeNat 0x0802CED3 = .ok (.barSync true 0xE 0xB) ∧
    decodeNat 0x000C2ED7 = .ok (.waitc true 0x2 0xB 0x4 true false) ∧
    decodeNat 0x00BD80D9 = .ok (.emit false 0x36 0xB) ∧
    decodeNat 0x0002D6DF = .ok (.cpy true 0x16 0xB) ∧
    decodeNat 0x0642D6DD = .ok (.cpys false 0x16 0xB 0x24) ∧
    decodeNat 0x080580DF = .ok (.slinv true 0x16) ∧
    decodeNat 0x0242D6E3 = .ok (.mxc true 0x16 0xB 0x24) ∧
    decodeNat 0x0042F6E7 = .ok (.mxr true 0x36 0xB 0x4) ∧
    decodeNat 0x0442F6E5 = .ok (.mxrn false 0x36 0xB 0x4) ∧
    decodeNat 0x0842F6E7 = .ok (.mxw true 0x36 0xB 0x4) := by decide +kernel

theorem test_decode_graphs :
    decodeNat 0x000056EB = .ok (.rtake true 0x16 0x1) ∧
    decodeNat 0x040056E9 = .ok (.rtakeRes false 0x16 0x1) ∧
    decodeNat 0x08B080E9 = .ok (.rgivePub false 0x2 0xB) ∧
    decodeNat 0x0CB080E9 = .ok (.rgiveRel false 0x2 0xB) ∧
    decodeNat 0x000580ED = .ok (.bind false 0x16) ∧
    decodeNat 0x040580ED = .ok (.bindWb false 0x16) ∧
    decodeNat 0x08B580ED = .ok (.grun false 0x16 0xB) ∧
    decodeNat 0x0C0580EF = .ok (.gstop true 0x16) ∧
    decodeNat 0x1002ECEF = .ok (.gstat true 0x16 0xB) := by decide +kernel

/-! ### One step of one instruction word

Each test runs the instruction of a word, laid out from the encoding of the spec, in the loaded machine's one thread; the expected values are worked by
hand from the rule that the theorem's comment names. -/

/-- The loaded machine with the word `w` at the thread's PC, its one thread changed by `f` and current. -/
def demo (w : Nat) (f : Thread → Thread) : State :=
  { State.reset.boot w with
    casts := [(0, { bootCast 0 with threads := [(0, f (startThread 0x10000 0x20000 0))] })], cur := some ⟨0, 0⟩ }

/-- What the instruction of the word `w` does in a state, where the word decodes. -/
def does (w : Nat) (s : State) : Out :=
  match decodeNat w with
  | .ok i => exec i s
  | .error _ => .fault .noThread

/-- A thread whose registers hold the listed values. -/
def regs (l : List (BitVec 6 × Word)) (t : Thread) : Thread := l.foldl (fun t e => t.setX e.1 e.2) t

/-- One step of the loaded machine goes on to a state and a thread that satisfy `p`. -/
def ran (w : Nat) (l : List (BitVec 6 × Word)) (p : State → Thread → Bool) : Bool :=
  match does w (demo w (regs l)) with
  | .next s => match s.thread? ⟨0, 0⟩ with
    | some t => p s t
    | none => false
  | _ => false

/-- The step writes `v` to x[r] at once, with no fault and the next PC `pc`. -/
def writes (w : Nat) (l : List (BitVec 6 × Word)) (r : BitVec 6) (v : Word) (pc : DWord := 0x10004) : Bool :=
  ran w l (fun s t => t.getX r == v && t.pc == pc && t.flights.isEmpty && s.faultQ.isEmpty)

/-- The step writes `v` to x[r] and leaves FLAGS at `f`. -/
def sets (w : Nat) (l : List (BitVec 6 × Word)) (r : BitVec 6) (v f : Word) : Bool :=
  ran w l (fun s t => t.getX r == v && (look s.casts 0).any (fun c => (c.crew 0).flags == f))

/-- The step leaves x[r] pending with the value `v`, and the flags `f` to come with it. -/
def pends (w : Nat) (l : List (BitVec 6 × Word)) (r : BitVec 6) (v : Word) (f : Word := 0) : Bool :=
  ran w l (fun _ t => t.flights.any (fun x => x.dst == [(.x r, v)] && x.flags == f) && t.pend == [.x r])

/-- The step raises the fault `c`. -/
def raises (w : Nat) (l : List (BitVec 6 × Word)) (c : FCode) : Bool :=
  match does w (demo w (regs l)) with
  | .next s => s.faultQ.map FaultRec.code == [c] && s.casts.isEmpty
  | _ => false

/-- R147, R148. -/
theorem test_ialu_sums :
    writes 0x00510305 [(4, 0xFFFFFFFF), (5, 2)] 3 1 = true ∧
    writes 0x04510305 [(4, 1), (5, 2)] 3 0xFFFFFFFF = true ∧
    writes 0x28510305 [(4, 0xFFFFFFFF), (5, 2)] 3 0xFFFFFFFE = true ∧
    writes 0x2C510305 [(4, 0xFFFFFFFF), (5, 2)] 3 0xFFFFFFFF = true ∧
    writes 0x30510305 [(4, 0xFFFFFFFF), (5, 2)] 3 1 = true ∧
    writes 0x34510305 [(4, 2), (5, 0xFFFFFFFF)] 3 1 = true ∧
    writes 0x00510005 [(4, 1), (5, 2)] 0 0 = true := by decide +kernel

theorem test_ialu_bits :
    writes 0x08510305 [(4, 0xF0F0), (5, 0xFF00)] 3 0xF000 = true ∧
    writes 0x0C510305 [(4, 0xF0F0), (5, 0xFF00)] 3 0xFFF0 = true ∧
    writes 0x10510305 [(4, 0xF0F0), (5, 0xFF00)] 3 0x0FF0 = true ∧
    writes 0x14510305 [(4, 0xF0F0), (5, 0xFF00)] 3 0x00F0 = true ∧
    writes 0x18510305 [(4, 1), (5, 33)] 3 2 = true ∧
    writes 0x1C510305 [(4, 0x80000000), (5, 31)] 3 1 = true ∧
    writes 0x20510305 [(4, 0x80000000), (5, 4)] 3 0xF8000000 = true ∧
    writes 0x24510305 [(4, 1), (5, 1)] 3 0x80000000 = true ∧
    writes 0x58010305 [(4, 1)] 3 31 = true ∧
    writes 0x58010305 [(4, 0)] 3 32 = true ∧
    writes 0x5C010305 [(4, 0xF0F0)] 3 8 = true ∧
    writes 0x60010305 [(4, 1)] 3 0x80000000 = true := by decide +kernel

theorem test_ialu_order :
    writes 0x48510305 [(4, 0xFFFFFFFF), (5, 1)] 3 0xFFFFFFFF = true ∧
    writes 0x4C510305 [(4, 0xFFFFFFFF), (5, 1)] 3 1 = true ∧
    writes 0x50510305 [(4, 0xFFFFFFFF), (5, 1)] 3 1 = true ∧
    writes 0x54510305 [(4, 0xFFFFFFFF), (5, 1)] 3 0xFFFFFFFF = true ∧
    writes 0x64510305 [(4, 0xFFFFFFFF), (5, 1)] 3 1 = true ∧
    writes 0x68510305 [(4, 0xFFFFFFFF), (5, 1)] 3 0 = true := by decide +kernel

/-- R149: the corner cases of the table, and truncation toward zero. -/
theorem test_ialu_division :
    pends 0x38510305 [(4, 0xFFFFFFF9), (5, 2)] 3 0xFFFFFFFD = true ∧
    pends 0x40510305 [(4, 0xFFFFFFF9), (5, 2)] 3 0xFFFFFFFF = true ∧
    pends 0x38510305 [(4, 0x80000000), (5, 0xFFFFFFFF)] 3 0x80000000 = true ∧
    pends 0x40510305 [(4, 0x80000000), (5, 0xFFFFFFFF)] 3 0 = true ∧
    pends 0x3C510305 [(4, 7), (5, 0)] 3 0xFFFFFFFF = true ∧
    pends 0x44510305 [(4, 7), (5, 0)] 3 7 = true := by decide +kernel

/-- R151 to R155. -/
theorem test_immediates :
    writes 0xFFD1C709 [(7, 5)] 7 2 = true ∧
    writes 0xFFF1030D [(4, 0xFFFFFFFF)] 3 0xFFF = true ∧
    writes 0x80010311 [(4, 1)] 3 0x801 = true ∧
    writes 0xFFF10315 [(4, 0xF00F)] 3 0xFFF0 = true ∧
    writes 0x01F10319 [(4, 3)] 3 0x80000000 = true ∧
    writes 0x03F10319 [(4, 0x80000000)] 3 1 = true ∧
    writes 0x05F10319 [(4, 0x80000000)] 3 0xFFFFFFFF = true ∧
    writes 0x06010319 [(4, 0x12345678)] 3 0x12345678 = true ∧
    writes 0x048D031D [] 3 0x12340000 = true ∧
    writes 0x6000031D [] 3 0x8000 = true ∧
    writes 0x959E031D [(3, 0x1234FFFF)] 3 0x12345678 = true ∧
    writes 0xE000031D [] 3 0xFFFF8000 = true := by decide +kernel

theorem test_fields :
    writes 0x0E810321 [(4, 0xABCD1234)] 3 0x12 = true ∧
    writes 0x4F810321 [(4, 0xABCD1234)] 3 0xFFFFFFAB = true ∧
    writes 0x0E810325 [(3, 0xFFFFFFFF), (4, 0x12)] 3 0xFFFF12FF = true ∧
    raises 0x0F910321 [] .ill = true ∧
    ran 0x08510339 [(8, 0), (9, 1), (5, 0xFFFFFFFF)] (fun _ t => t.getA 3 == 0xFFFFFFFC) = true ∧
    ran 0xFFF1033D [(8, 0), (9, 1)] (fun _ t => t.getA 3 == 0xFFFFFFFF) = true := by decide +kernel

/-- R127, R128: the narrow forms are two bytes long. -/
theorem test_narrow :
    writes 0x1060 [(4, 9)] 3 9 0x10002 = true ∧
    writes 0x1062 [(3, 0xFFFFFFFF), (4, 2)] 3 1 0x10002 = true ∧
    writes 0x1064 [(3, 1), (4, 2)] 3 0xFFFFFFFF 0x10002 = true ∧
    writes 0x1066 [(3, 6), (4, 3)] 3 2 0x10002 = true ∧
    writes 0x1068 [(3, 6), (4, 3)] 3 7 0x10002 = true ∧
    writes 0x106A [(3, 6), (4, 3)] 3 5 0x10002 = true ∧
    writes 0x106C [(3, 6), (4, 33)] 3 12 0x10002 = true ∧
    writes 0x106E [(3, 6), (4, 33)] 3 3 0x10002 = true ∧
    writes 0x107E [(3, 0xFFFFFFFF), (4, 3)] 3 0xFFFFFFFD 0x10002 = true ∧
    writes 0x7C70 [(3, 0)] 3 0xFFFFFFFF 0x10002 = true ∧
    writes 0x407C [] 3 0xFFFFFFF0 0x10002 = true ∧
    writes 0x1072 [(3, 0x3F800000), (4, 0x3F800000)] 3 0x40000000 0x10002 = true ∧
    writes 0x1074 [(3, 0x3F800000), (4, 0x40000000)] 3 0xBF800000 0x10002 = true ∧
    writes 0x1076 [(3, 0x40400000), (4, 0x40000000)] 3 0x40C00000 0x10002 = true ∧
    writes 0x1078 [(3, 0x80000000), (4, 0)] 3 0x80000000 0x10002 = true ∧
    writes 0x107A [(3, 0x80000000), (4, 0)] 3 0 0x10002 = true := by decide +kernel

/-- R156 to R159. -/
theorem test_predicates :
    ran 0x08510229 [(4, 0xFFFFFFFF), (5, 1)] (fun _ t => t.getK 2) = true ∧
    ran 0x10510229 [(4, 0xFFFFFFFF), (5, 1)] (fun _ t => !t.getK 2) = true ∧
    ran 0xFFF1022D [(4, 0xFFFFFFFF)] (fun _ t => t.getK 2) = true ∧
    raises 0x18510229 [] .ill = true ∧
    writes 0x04510331 [(4, 4), (5, 5)] 3 5 = true ∧
    writes 0x00510331 [(4, 4), (5, 5)] 3 4 = true ∧
    ran 0x00200135 [] (fun _ t => !t.getK 1) = true ∧
    ran 0x04200135 [] (fun _ t => t.getK 1) = true ∧
    ran 0x08000135 [] (fun _ t => !t.getK 1) = true ∧
    ran 0x0C200135 [] (fun _ t => t.getK 1) = true ∧
    ran 0x10008135 [] (fun _ t => !t.getK 1) = true ∧
    ran 0x14008135 [] (fun _ t => t.getK 1) = true ∧
    ran 0x14000035 [] (fun _ t => t.getK 0) = true ∧
    writes 0x18000335 [] 3 1 = true ∧
    ran 0x1C010135 [(4, 8)] (fun _ t => t.getK 1) = true ∧
    writes 0x20000335 [] 3 1 = true ∧
    ran 0x24010035 [(4, 0xFE)] (fun _ t => t.getK 0 && t.getK 1 && t.getK 7) = true := by decide +kernel

/-- R162 to R170, R173 to R181: an offset counts halfwords. -/
theorem test_control :
    ran 0xFFFFF041 [] (fun _ t => t.pc == 0xFFFE) = true ∧
    ran 0xFFFFF841 [] (fun _ t => t.pc == 0x10004) = true ∧
    ran 0x00000845 [] (fun _ t => t.pc == 0x10010) = true ∧
    ran 0x00000849 [] (fun _ t => t.pc == 0x10010 && t.getA 31 == 0x10004) = true ∧
    ran 0x0001004D [(8, 0x10008)] (fun _ t => t.pc == 0x10008) = true ∧
    raises 0x0001004D [(8, 0x10009)] .align = true ∧
    ran 0x0800004D [(62, 0x1000C)] (fun _ t => t.pc == 0x1000C) = true ∧
    raises 0x0401004D [(8, 0x10008)] .budget = true ∧
    ran 0x0041005D [(4, 0)] (fun _ t => t.pc == 0x1000C && t.lc[0] == 0) = true ∧
    ran 0x0041015D [(4, 3)] (fun _ t => t.pc == 0x10004 && bitsN t.lc[1] 0 16 == 3 && bitsN t.lc[1] 31 1 == 1) = true ∧
    raises 0x0041005D [(4, 65536)] .bcnt = true ∧
    ran 0x00000855 [] (fun _ t => t.meet == 0x10010 && t.pc == 0x10004) = true ∧
    ran 0x00000061 [] (fun _ t => t.pc == 0x10004 && t.retired == 1) = true ∧
    ran 0x00000059 [] (fun _ t => t.pc == 0x10004) = true ∧
    raises 0x04000561 [] .trap = true ∧
    raises 0x08000561 [] .brk = true ∧
    raises 0x00000001 [] .ill = true := by decide +kernel

/-- R20: BECOME of 1 writes 0; of 2 starts ordinal 1 in the next free slot; of 0 ends the thread, and with it its cast's work. -/
theorem test_become :
    writes 0x00010351 [(3, 9), (4, 1)] 3 0 = true ∧
    ran 0x00010351 [(4, 2)] (fun s t => t.getX 3 == 0 &&
      (look s.casts 0).any (fun c => c.threads.length == 2 && c.threads.all (fun e => e.1 == 0 || e.2.getX 3 == 1))) = true ∧
    raises 0x00010351 [(4, 65536)] .bcnt = true := by decide +kernel

/-- R135, R182 to R184. -/
theorem test_special_registers :
    writes 0x02600365 [] 3 32 = true ∧
    writes 0x00500365 [] 3 1 = true ∧
    raises 0x01300365 [] .ill = true ∧
    raises 0x80000365 [] .priv = true ∧
    raises 0x0000C069 [] .ill = true ∧
    ran 0x00E10069 [(4, 0x1234)] (fun _ t => t.meet == 0x1234) = true ∧
    ran 0x01010069 [(4, 0xFFFFFFFF)] (fun s _ => (look s.casts 0).any (fun c => (c.crew 0).mode == 0x7FFFFF)) = true := by
  decide +kernel

/-- R186 to R188: 1 + 2^-24 is halfway and goes to the even neighbour; ∞ − ∞ is invalid; a fused product keeps its low half. -/
theorem test_float :
    sets 0x0051036D [(4, 0x3F800000), (5, 0x33800000)] 3 0x3F800000 0x10 = true ∧
    sets 0x0451036D [(4, 0x7F800000), (5, 0x7F800000)] 3 0x7FC00000 1 = true ∧
    sets 0x0851036D [(4, 0x7F000000), (5, 0x7F000000)] 3 0x7F800000 0x14 = true ∧
    sets 0x0C51036D [(4, 0x7FC00000), (5, 0x40000000)] 3 0x40000000 0 = true ∧
    sets 0x1051036D [(4, 0x80000000), (5, 0)] 3 0 0 = true ∧
    sets 0x1401036D [(4, 0xFF800001)] 3 0x7F800001 0 = true ∧
    sets 0x1801036D [(4, 0)] 3 0x80000000 0 = true ∧
    sets 0x1C51036D [(4, 0x3F800000), (5, 0x80000000)] 3 0xBF800000 0 = true ∧
    sets 0x18510371 [(4, 0x3F800001), (5, 0x3F800001), (6, 0xBF800002)] 3 0x28800000 0 = true ∧
    sets 0x18510375 [(4, 0x40000000), (5, 0x40400000), (6, 0x3F800000)] 3 0x40A00000 0 = true ∧
    sets 0x18510379 [(4, 0x40000000), (5, 0x40400000), (6, 0x3F800000)] 3 0xC0A00000 0 = true := by decide +kernel

/-- R189, R190: 0x3C00 is FP16 1.0, 0x3F80 BF16 1.0. -/
theorem test_packed :
    sets 0x0051037D [(4, 0x3C007BFF), (5, 0x3C007BFF)] 3 0x40007C00 0x14 = true ∧
    sets 0x0451037D [(4, 0x3C004000), (5, 0x40003C00)] 3 0xBC003C00 0 = true ∧
    sets 0x0851037D [(4, 0x40004200), (5, 0x42004000)] 3 0x46004600 0 = true ∧
    sets 0x0C51037D [(4, 0x3C00BC00), (5, 0x40003C00)] 3 0x3C00BC00 0 = true ∧
    sets 0x1051037D [(4, 0x3C00BC00), (5, 0x40003C00)] 3 0x40003C00 0 = true ∧
    sets 0x18510381 [(4, 0x40004000), (5, 0x42004200), (6, 0x3C003C00)] 3 0x47004700 0 = true ∧
    sets 0x2051037D [(4, 0x3F803F80), (5, 0x3F80BF80)] 3 0x40000000 0 = true ∧
    sets 0x2451037D [(4, 0x3F804000), (5, 0x40003F80)] 3 0xBF803F80 0 = true ∧
    sets 0x2851037D [(4, 0x40004000), (5, 0x40404040)] 3 0x40C040C0 0 = true ∧
    sets 0x2C51037D [(4, 0x7FC03F80), (5, 0x3F804000)] 3 0x3F803F80 0 = true ∧
    sets 0x3051037D [(4, 0x7FC03F80), (5, 0x3F804000)] 3 0x3F804000 0 = true ∧
    sets 0x18510385 [(4, 0x40004000), (5, 0x40404040), (6, 0x3F803F80)] 3 0x40E040E0 0 = true := by decide +kernel

/-- R191 to R193. -/
theorem test_convert :
    ran 0x08510289 [(4, 0xBF800000), (5, 0)] (fun _ t => t.getK 2) = true ∧
    ran 0x18510289 [(4, 0x7FC00000), (5, 0)] (fun _ t => t.getK 2) = true ∧
    sets 0x04C1038D [(4, 0x40200000)] 3 2 0x10 = true ∧
    sets 0x0491038D [(4, 0xC0000000)] 3 0 1 = true ∧
    sets 0x4811038D [(4, 0x3C000000)] 3 0x3F800000 0 = true ∧
    sets 0x3011038D [(4, 0xFFFFFFFF)] 3 0xBF800000 0 = true ∧
    sets 0x3081038D [(4, 0x180)] 3 0xFFFFFF80 0 = true ∧
    raises 0x0411038D [] .ill = true := by decide +kernel

/-- R119, R194. -/
theorem test_special_functions :
    pends 0x00010391 [(4, 0x80000000)] 3 0xFF800000 2 = true ∧
    pends 0x04010391 [(4, 0xBF800000)] 3 0x7FC00000 1 = true ∧
    pends 0x08010391 [(4, 0x80000000)] 3 0x80000000 0 = true ∧
    pends 0x0C010391 [(4, 0xFF800000)] 3 0 0 = true ∧
    pends 0x10010391 [(4, 0x3F800000)] 3 0 0 = true ∧
    pends 0x14010391 [(4, 0xFF800000)] 3 0xBF800000 0 = true ∧
    pends 0x18010391 [(4, 0x7F800000)] 3 0x7FC00000 1 = true ∧
    pends 0x1C010391 [(4, 0)] 3 0x3F800000 0 = true := by decide +kernel

/-- R109, R110, R195, R196: 0x3FF0_0000_0000_0000 is binary64 1.0. -/
theorem test_chain :
    ran 0x00400195 [(4, 0x3F800000)] (fun _ t => t.getE 1 == 0x3FF0000000000000) = true ∧
    ran 0x04510195 [(4, 0x40000000), (5, 0x40400000)] (fun _ t => t.getE 1 == 0x4018000000000000) = true ∧
    ran 0x08510195 [(4, 0x40000000), (5, 0x40400000)] (fun _ t => t.getE 1 == 0x4018000000000000) = true ∧
    ran 0x10010195 [(4, 0xBF800000)] (fun _ t => t.getE 1 == 0xBFF0000000000000) = true ∧
    ran 0x0C000195 [] (fun _ t => t.getE 1 == 0) = true ∧
    ran 0x1C020195 [(8, 5), (9, 6)] (fun _ t => t.getE 1 == 0x0000000600000005) = true ∧
    ran 0x18004895 [(8, 5), (9, 6)] (fun _ t => t.getA 4 == 0) = true ∧
    writes 0x14104395 [(3, 9)] 3 0 = true ∧
    raises 0x14404395 [] .ill = true := by decide +kernel

/-- R197: signed and unsigned bytes are told apart. -/
theorem test_dot :
    writes 0x00510399 [(3, 10), (4, 0x010203FF), (5, 0x01010102)] 3 14 = true ∧
    writes 0x04510399 [(3, 10), (4, 0x010203FF), (5, 0x01010102)] 3 526 = true ∧
    writes 0x08510399 [(3, 10), (4, 0x000000FF), (5, 0x000000FF)] 3 0xFFFFFF0B = true ∧
    writes 0x0C510399 [(3, 10), (4, 0x0001FFFF), (5, 0x00020003)] 3 9 = true := by decide +kernel

/-- R202: the published known answer of Philox4x32-10 for counter 0 and key 0. -/
theorem test_random :
    pends 0x005203A1 [] 3 0x6627E8D5 = true ∧
    pends 0x0C5203A1 [] 3 0x9B00DBD8 = true ∧
    ran 0x105210A1 [] (fun _ t => t.flights.map Flight.dst ==
      [[(.x 16, 0x6627E8D5), (.x 17, 0xE169C58D), (.x 18, 0xBC57AC4C), (.x 19, 0x9B00DBD8)]]) = true := by decide +kernel

/-- R203 to R209: a crew of one thread. -/
theorem test_collectives :
    ran 0x000003A5 [] (fun _ t => t.flights.map Flight.dst == [[(.x 3, 1)]]) = true ∧
    ran 0x040043A5 [] (fun _ t => t.flights.map Flight.dst == [[(.k 3, 0)]]) = true ∧
    ran 0x080003A5 [] (fun _ t => t.flights.map Flight.dst == [[(.k 3, 1)]]) = true ∧
    pends 0x105103A5 [(4, 7), (5, 3)] 3 7 = true ∧
    pends 0x145103A5 [(4, 7), (5, 1)] 3 7 = true ∧
    pends 0x185103A5 [(4, 7), (5, 1)] 3 7 = true ∧
    pends 0x1C5103A5 [(4, 7), (5, 1)] 3 7 = true ∧
    pends 0x000103A9 [(4, 7)] 3 7 = true ∧
    pends 0x400103A9 [(4, 7)] 3 7 = true ∧
    pends 0x840103A9 [(4, 7)] 3 0x7FFFFFFF = true ∧
    raises 0x2C0103A9 [] .ill = true := by decide +kernel

/-- R95 to R101, R198 to R201: in a crew of one thread the other lanes pack as +0; 1.0 at DB8 takes SH = 251 and sel 0 or 1 so that the
element reads back as 1.0, whose header the first lane holds. -/
theorem test_blocks :
    ran 0x00A1039D [(4, 0)] (fun _ t => t.st == .ready && t.getX 3 == 0x00000006) = true ∧
    ran 0x18A1039D [(4, 0x3F800000), (11, 0x00020100)] (fun _ t => t.st == .ready && t.getX 3 == 0x00020100) = true ∧
    ran 0x2801039D [(4, 0x00020100)] (fun _ t => t.st == .ready && t.getX 3 == 0) = true := by decide +kernel

/-- R215 to R221: the data page, a store into it, and scratch; memory that nothing has written reads 0. -/
theorem test_loads_and_stores :
    pends 0x00A046AD [] 6 0 = true ∧
    ran 0xFF8084B1 [(4, 0x1FF), (5, 0x30000000)] (fun s _ =>
      (look s.casts 0).any (fun c => Memory.read c.scr 0x1FE 1 == 0xFF)) = true ∧
    ran 0x00C088B1 [(4, 0), (5, 0x30000000), (8, 1), (9, 2), (10, 3), (11, 4)] (fun s _ =>
      (look s.casts 0).any (fun c => Memory.read c.scr 16 16 == 0x00000004000000030000000200000001)) = true ∧
    raises 0x003047AD [] .ill = true ∧
    raises 0x002086AD [(4, 2), (5, 0)] .align = true ∧
    raises 0x002086AD [(4, 0), (5, 0x50000000)] .path = true ∧
    raises 0x002086B1 [(4, 0), (5, 0x10000000)] .prot = true := by decide +kernel

/-- R53, R418: a page that the tables do not map holds the access in the operand log, and the thread goes on. -/
theorem test_translation_fault :
    ran 0x002086AD [(4, 0x30000)] (fun s t => t.pc == 0x10004 && s.faultQ.map FaultRec.code == [.xlate] &&
      s.faultQ.map FaultRec.cls == [2] && (s.plot 0).oplog.length == 1) = true := by decide +kernel

/-- R217 to R236. -/
theorem test_scoped :
    pends 0x020046B5 [] 6 0 = true ∧
    ran 0x120048B5 [] (fun _ t => t.flights.map Flight.dst == [[(.x 8, 0), (.x 9, 0)]]) = true ∧
    ran 0x060044B9 [(4, 7)] (fun s _ => Memory.read s.mem 0x50010000 4 == 7) = true ∧
    ran 0x160048B9 [(8, 7), (9, 8)] (fun s _ => Memory.read s.mem 0x50010000 8 == 0x800000007) = true ∧
    ran 0x062040C1 [(4, 7)] (fun s _ => Memory.read s.mem 0x50010000 4 == 7) = true ∧
    pends 0x962046C1 [(4, 7)] 6 0 = true ∧
    pends 0x064046C5 [(8, 7), (9, 5)] 6 0 = true ∧
    ran 0x062040C9 [(4, 7)] (fun s _ => Memory.read s.mem 0x50010000 4 == 7) = true ∧
    raises 0x962040C9 [] .ill = true ∧
    raises 0x062046BD [(4, 1)] .plotid = true := by decide +kernel

/-- R227 to R245. -/
theorem test_synchronisation :
    ran 0x062046BD [] (fun s t => t.pc == 0x10004 && t.pend == [.x 6] && (s.plot 0).oplog.map Held.kind == [.acqpGo 0 6] && (s.plot 0).preqs.length == 1) = true ∧
    ran 0x160046BD [] (fun s t => t.pc == 0x10004 && t.pend == [.x 6] && (s.plot 0).oplog.map Held.kind == [.acqpGo 0 6] && (s.plot 0).preqs.length == 1) = true ∧
    writes 0x062046CD [(6, 9)] 6 0 = true ∧
    ran 0x162046CD [] (fun _ t => t.pc == 0x10000 && t.st != .ready) = true ∧
    ran 0x080103D1 [(4, 1)] (fun _ t => t.pc == 0x10004 && t.st == .ready) = true ∧
    ran 0x000103D1 [(4, 2)] (fun s t => t.pc == 0x10004 && (look s.casts 0).any (fun c => c.bars[3].arr == 1)) = true ∧
    ran 0x040103D1 [(4, 2)] (fun s t => t.pc == 0x10000 && (look s.casts 0).any (fun c => c.bars[3].arr == 0)) = true ∧
    raises 0x080103D1 [(4, 33)] .barcnt = true ∧
    ran 0x001B00D5 [] (fun _ t => t.pc == 0x10004) = true := by decide +kernel

/-- R33: the loaded scene's output region holds no record. -/
theorem test_emit_full : raises 0x005100D9 [(4, 1), (5, 2)] .emitfull = true := by decide +kernel

/-- R250 to R276: a slate of zeros is not valid; a cell of the cast's first tile; a reel that no RTAKE has claimed. -/
theorem test_engines :
    raises 0x000041DD [] .slate = true ∧
    raises 0x044041DD [] .slate = true ∧
    ran 0x080040DD [] (fun _ t => t.pc == 0x10004) = true ∧
    raises 0x005101E1 [] .mxcmd = true ∧
    ran 0x080144E5 [(4, 7), (5, 129)] (fun s _ => look (s.plot 0).tiles 129 == some 7) = true ∧
    pends 0x000146E5 [(5, 129)] 6 0 = true ∧
    ran 0x040146E5 [(5, 129)] (fun _ t => t.flights.map Flight.dst == [[(.x 6, 0)]]) = true ∧
    raises 0x001146E5 [(5, 0)] .mxcmd = true ∧
    raises 0x000044E9 [] .slate = true ∧
    raises 0x084000E9 [] .slate = true ∧
    raises 0x0C4000E9 [] .slate = true := by decide +kernel

/-- R331, R332: BIND accepts an unbound graph; GRUN refuses it; GSTOP does nothing; GSTAT tells state 0. -/
theorem test_graph_words :
    ran 0x000040ED [] (fun s t => t.pc == 0x10004 && (look s.allots 1).any (fun a => a.graphs.length == 1)) = true ∧
    ran 0x040040ED [] (fun s t => t.pc == 0x10004 && (look s.allots 1).any (fun a => a.graphs.length == 1)) = true ∧
    raises 0x084040ED [] .gbusy = true ∧
    ran 0x0C0040ED [] (fun _ t => t.pc == 0x10004) = true ∧
    ran 0x100048ED [(8, 9)] (fun _ t => t.getX 8 == 0) = true := by decide +kernel

/-! ### Witnesses: states and operands that meet the hypotheses of each statement -/

/-- A word that is looked at where a step went, or whatever else answered a value. -/
theorem ok_of {ε α : Type} {e : Except ε α} (p : α → Bool) (h : (match e with | .ok a => p a | .error _ => false) = true) :
    ∃ a, e = .ok a ∧ p a = true := by
  cases e with
  | ok a => exact ⟨a, rfl, h⟩
  | error _ => cases h

theorem some_of {α : Type} {e : Option α} (p : α → Bool) (h : e.any p = true) : ∃ a, e = some a ∧ p a = true := by
  cases e with
  | some a => exact ⟨a, rfl, h⟩
  | none => cases h

/-- The loaded cast, changed. -/
def cast0 (fc : Cast → Cast) (ft : Thread → Thread) : Cast :=
  fc { bootCast 0 with threads := [(0, ft (startThread 0x10000 0x20000 0))] }

/-- The loaded machine with its cast, its thread, and then the whole changed. -/
def world (fc : Cast → Cast) (ft : Thread → Thread) (fs : State → State) : State :=
  fs { State.reset.boot 0x00000061 with casts := [(0, cast0 fc ft)], cur := some ⟨0, 0⟩ }

/-- The context of its thread. -/
def ctx0 (fc : Cast → Cast) (ft : Thread → Thread) : Ctx := { r := ⟨0, 0⟩, c := cast0 fc ft, t := ft (startThread 0x10000 0x20000 0) }

/-- The fields that make the current thread's context. -/
abbrev Fits (s : State) (k : Ctx) : Prop :=
  s.cur = some k.r ∧ look s.casts k.r.c = some k.c ∧ k.c.st = .resident ∧ look k.c.threads k.r.t = some k.t ∧ k.t.st = .ready

theorem ctx_of {s : State} {k : Ctx} (h : Fits s k) : s.ctx = some k := by
  obtain ⟨h1, h2, h3, h4, h5⟩ := h
  simp [State.ctx, h1, h2, h3, h4, h5]

theorem can {s : State} {k : Ctx} (h : Fits s k ∧ k.t.flights = [] ∧ k.t.pend = []) (q : Bool) (l : List Dst) : CanRun s k q l :=
  ⟨ctx_of h.1, fun _ => by simp [Thread.writing, h.2.1], fun _ _ _ => by simp [h.2.2]⟩

abbrev W : State := world id id id
abbrev K : Ctx := ctx0 id id

theorem wit_run (q : Bool) (l : List Dst) : CanRun W K q l := can (by decide +kernel) q l

theorem wit_IntegerResults : CanRun W K true [.x 4, .x 5, .x 3] ∧ CanRun W K false [.x 0, .x 3] :=
  ⟨wit_run _ _, wit_run _ _⟩

theorem wit_ImmediateResults : CanRun W K false [.x 4, .x 3] ∧ CanRun W K true (pairDst 4 ++ [.x 5] ++ pairDst 0) ∧
    CanRun W K true [.x 3, .x 4] ∧ (24#5).toNat + ((7#5).toNat + 1) ≤ 32 ∧ 32 < (25#5).toNat + ((7#5).toNat + 1) :=
  ⟨wit_run _ _, wit_run _ _, wit_run _ _, by decide +kernel, by decide +kernel⟩

theorem wit_NarrowResults : CanRun W K false [.x (wideReg 31), .x (wideReg 0)] := wit_run _ _

theorem wit_CompareResults : CanRun W K true [.x 4, .x 5, .x 3, .k 0, .k 7] ∧ (5#3).toNat < 6 ∧ 6 ≤ (6#3).toNat ∧
    CanRun W K false ([.k 1, .k 2, .k 3, .x 4, .x 5] ++ (List.range 8).map (fun i => Dst.k (BitVec.ofNat 3 i))) :=
  ⟨wit_run _ _, by decide +kernel, by decide +kernel, wit_run _ _⟩

/-- A branch taken and one not; a jump to an even, an odd, and a remote target. -/
theorem wit_BranchResults_1 : CanRun W K true ([.k 0] ++ pairDst 31) ∧ (K.t.getK 0 ^^ false) = true ∧ (K.t.getK 0 ^^ true) = false ∧
    (K.t.getA 1).getLsbD 0 = false ∧ ((ctx0 id (regs [(8, 1)])).t.getA 4).getLsbD 0 = true ∧
    bitsN ((ctx0 id (regs [(9, 0x10000000)])).t.getA 4) 48 16 ≠ 0 :=
  ⟨wit_run _ _, by and_intros <;> decide +kernel⟩

/-- A call to a target with no header, and to one with a header of BUDGET 64 and of BUDGET 1. -/
theorem wit_BranchResults_2 : bitsN (0x10008#64) 48 16 = 0 ∧
    (∃ r, fetchWord W K.c (0x10008#64 - 4) = .ok r ∧ (r.2 % 256 == 0) = true) ∧
    (∃ r, fetchWord { W with mem := Memory.write W.mem 0x50000004 4 0x42444001 } K.c (0x10008#64 - 4) = .ok r ∧
      (r.2 % 256 == 1 && r.2 / 2 ^ 15 % 2 == 0 && r.2 / 2 ^ 16 == 0x4244 && r.2 / 256 % 128 == descBudget K.c.desc) = true) ∧
    (∃ r, fetchWord { W with mem := Memory.write W.mem 0x50000004 4 0x42440101 } K.c (0x10008#64 - 4) = .ok r ∧
      (r.2 == 0x42440101) = true) :=
  ⟨by decide +kernel, ok_of _ (by decide +kernel), ok_of _ (by decide +kernel), ok_of _ (by decide +kernel)⟩

theorem wit_InstructionEnd : look W.casts K.r.c = some (cast0 id id) ∧ (K.t.lc[0]).getLsbD 31 = false ∧
    (K.t.lc[1]).getLsbD 31 = false ∧ (K.t.lc[2]).getLsbD 31 = false ∧ CanRun W K true [] ∧ descDet K.c.desc ≠ 1 := by
  refine ⟨?_, ?_, ?_, ?_, wit_run _ _, ?_⟩ <;> decide +kernel

/-- ORDERED mode: DET is 1. -/
def ordered (c : Cast) : Cast := { c with desc := c.desc ||| (1#1024 <<< 240) }

theorem wit_InstructionEnd_ordered : CanRun (world ordered id id) (ctx0 ordered id) false [] ∧ descDet (ctx0 ordered id).c.desc = 1 :=
  ⟨can (by decide +kernel) _ _, by decide +kernel⟩

/-- The conditions of LOOP's clauses: its levels, its blocks, and its counts at their bounds. -/
theorem wit_LoopResults_1 : CanRun W K true [.x 4] ∧ (2#2).toNat < 3 ∧ (1#12).toNat ≠ 0 ∧
    K.t.pc.toNat / 65536 = (K.t.pc + 4 + BitVec.ofNat 64 (2 * (4095#12).toNat) - 2).toNat / 65536 ∧
    ¬(0x1FFF8#64).toNat / 65536 = (0x1FFF8#64 + 4 + BitVec.ofNat 64 (2 * (3#12).toNat) - 2).toNat / 65536 ∧
    (0x1FFF8#64).toNat / 65536 = (0x1FFF8#64 + 4 + BitVec.ofNat 64 (2 * (2#12).toNat) - 2).toNat / 65536 ∧
    (0 : Word).toNat = 0 ∧ (1 : Word) ≠ 0 ∧ (65535 : Word).toNat ≤ 65535 ∧ 65535 < (65536 : Word).toNat :=
  ⟨wit_run _ _, by and_intros <;> decide +kernel⟩

/-- A loop of two halfwords, whose body ends after the next instruction; its last pass is settled by going on. -/
theorem wit_LoopResults_2 : (lcHead 0x10006 0x80000000#32).toNat + 4 < (loopEnd (lcHead 0x10006 0x80000000#32) 2).toNat ∧
    loopEnd (lcHead 0x10006 0x80000000#32) 2 = 0x10008 := by decide +kernel

theorem wit_LoopResults_3 : (0x80000002#32).getLsbD 31 = true ∧ lcHead 0x10006 0x80000000#32 = 0x10000 ∧ 1 < bitsN (0x80000002#32) 0 16 ∧
    bitsN (0x80000001#32) 0 16 ≤ 1 := by decide +kernel

/-- Counts at the bounds of BECOME's clauses, at depth 1 and at depth 8; 32 threads fill the cast's slots. -/
theorem wit_BecomeResults : CanRun W K true [] ∧ CanRun (world id (fun t => { t with dep := 8 }) id)
      (ctx0 id (fun t => { t with dep := 8 })) true [] ∧
    (∀ n : Nat, n ∈ [0, 1, 2, 32, 65535, 65536] → ((ctx0 id (regs [(4, BitVec.ofNat 32 n)])).t.getX 4).toNat = n) ∧
    CanRun (world id (regs [(4, 32)]) id) (ctx0 id (regs [(4, 32)])) true [] ∧ K.t.dep.toNat ≠ 8 ∧ K.c.seeds = [] ∧
    32 - 1 ≤ ((List.range (descSlots K.c.desc)).filter (fun i => (look K.c.threads i).isNone)).length := by
  refine ⟨wit_run _ _, can (by decide +kernel) _ _, ?_, can (by decide +kernel) _ _, ?_, rfl, ?_⟩ <;> decide +kernel

theorem wit_FloatResults : CanRun W K true [.x 4, .x 5, .x 6, .x 3] ∧ CanRun W K false [.x (wideReg 3), .x (wideReg 4)] ∧
    (FpVal.inf true).isSig = false ∧ (FpVal.nan false).isSig = false :=
  ⟨wit_run _ _, wit_run _ _, rfl, rfl⟩

theorem wit_PackedResults : CanRun W K true [.x 4, .x 5, .x 6, .x 3] ∧ CanRun W K true [.x 3, .x 4, .x 5] ∧
    CanRun W K false ([.x (evenReg 4), .x (oddReg 4), .x 5, .x 3] ++ (quadRegs 4).map Dst.x) :=
  ⟨wit_run _ _, wit_run _ _, wit_run _ _⟩

/-- The crew's MODE with every integer result clamped. -/
def clamped (c : Cast) : Cast := { c with crews := [{ mode := 0x100000 }] }

theorem wit_PackedResults_clamped : CanRun (world clamped id id) (ctx0 clamped id) true [.x 3, .x 4, .x 5] ∧
    modeIntSat (ctx0 clamped id).crew.mode = true ∧ modeIntSat K.crew.mode = false := ⟨can (by decide +kernel) _ _, by decide +kernel, by decide +kernel⟩

/-- A source of every kind, values that fit and that do not, and forms that are illegal. -/
theorem wit_ConvertResults : CanRun W K true [.x 4, .x 3] ∧ CanRun W K true [.x 4, .x 5, .k 2] ∧
    fp32.read false 0x7FC00000 = .nan false ∧ fp32.read false 0xFF800000 = .inf true ∧
    fp32.read false 0x3F800000 = .fin false 0x800000 (-23) ∧
    ((12 : Nat) ≠ 1 ∧ (12 : Nat) ≠ 8) ∧ modeIntSat K.crew.mode = false ∧ modeIntSat (ctx0 clamped id).crew.mode = true ∧
    CanRun (world clamped id id) (ctx0 clamped id) false [.x 4, .x 3] := by
  refine ⟨wit_run _ _, wit_run _ _, ?_, ?_, ?_, ?_, ?_, ?_, can (by decide +kernel) _ _⟩ <;> decide +kernel

theorem wit_SpecialFunctionResults : CanRun W K true [.x 4, .x 3] ∧ fp32.read (modeSubn 0) 0x7FC00000 = .nan false ∧
    fp32.read (modeSubn 0) 0x7F800001 = .nan true ∧ (∃ e, fp32.read (modeSubn 0) 0x80000000 = .fin true 0 e) ∧
    (0xBF800000#32).getLsbD 31 = true ∧ (fp32.read (modeSubn 0) 0xBF800000).isNan = false ∧
    ∀ n e, fp32.read (modeSubn 0) 0xBF800000 ≠ .fin n 0 e := by
  refine ⟨wit_run _ _, by decide +kernel, by decide +kernel, ⟨_, rfl⟩, by decide +kernel, by decide +kernel, fun n e h => ?_⟩
  rw [show fp32.read (modeSubn 0) 0xBF800000 = .fin true 0x800000 (-23) by decide +kernel] at h
  cases h

theorem wit_ChainResults : CanRun W K true [.x 3, .x 4, .x (evenReg 5), .x (oddReg 5)] ∧ modeStep K.crew.mode = false ∧
    modeStep 0x200000 = true ∧ 1 ≤ (1#6).toNat ∧ (3#6).toNat ≤ 3 ∧ 3 < (4#6).toNat :=
  ⟨wit_run _ _, by and_intros <;> decide +kernel⟩

theorem wit_ChainResults_step : CanRun (world (fun c => { c with crews := [{ mode := 0x200000 }] }) id id)
      (ctx0 (fun c => { c with crews := [{ mode := 0x200000 }] }) id) false [.x 3, .x 4, .x (evenReg 5), .x (oddReg 5)] ∧
    modeStep (ctx0 (fun c => { c with crews := [{ mode := 0x200000 }] }) id).crew.mode = true := ⟨can (by decide +kernel) _ _, by decide +kernel⟩

/-- A value that a format holds; one that it holds at a coarser unit, one that it does not; one in range and one past the largest. -/
theorem wit_Rounding : (∃ n m e, fp16.read false 0x3C01 = .fin n m e) ∧ 0x3C01 < 2 ^ (1 + fp16.eb + fp16.fb) ∧
    (0 : Int) < 2 ∧ 12 % 2 ^ ((2 : Int) - 0).toNat = 0 ∧ 13 % 2 ^ ((2 : Int) - 0).toNat ≠ 0 ∧
    (quantise 0 false 4095 1 (max (1 + Nat.log2 4095 - fp16.fb : Int) (1 - fp16.bias - fp16.fb))).1 ≤ 2 ^ (fp16.fb + 1) ∧
    (let qe := max ((-11 : Int) + Nat.log2 4095 - fp16.fb) (1 - fp16.bias - fp16.fb)
     (quantise 1 false 4095 (-11) qe).1 < 2 ^ (fp16.fb + 1) ∧ qe + fp16.fb ≤ fp16.bias) ∧
    (let qe := max ((5 : Int) + Nat.log2 4095 - fp16.fb) (1 - fp16.bias - fp16.fb)
     2 ^ fp16.fb ≤ (quantise 1 false 4095 5 qe).1 ∧ (quantise 1 false 4095 5 qe).1 < 2 ^ (fp16.fb + 1) ∧ fp16.bias < qe + fp16.fb) :=
  ⟨⟨_, _, _, rfl⟩, by and_intros <;> decide +kernel⟩

theorem wit_SpecialRegisters : CanRun W K true [.x 3, .x (evenReg 4), .x (oddReg 4)] ∧ CanRun W K false [.x 4] ∧ (1#6) ≠ 0 ∧ (7#3) ≠ 0 ∧
    (31#5) ≠ 0 :=
  ⟨wit_run _ _, wit_run _ _, by and_intros <;> decide +kernel⟩

theorem wit_IllegalWords : W.ctx = some K ∧ encode (.cmp true 1 2 3 6) = some (32, 0x1830812B) ∧
    (Instr.cmp true 1 2 3 6).wf = false ∧ (∀ q r sx, Instr.cmp true 1 2 3 6 = .mfs q r sx ∨ Instr.cmp true 1 2 3 6 = .mts q r sx → sx.toNat < 0x800) ∧
    (Instr.mfs false 3 0x7FF).wf = false ∧ (0x7FF#12).toNat < 0x800 ∧ 0x800 ≤ (0x800#12).toNat ∧ (3#6).toNat % 2 = 1 := by
  refine ⟨ctx_of (by decide +kernel), by decide +kernel, by decide +kernel, ?_, by decide +kernel, by decide +kernel, by decide +kernel, by decide +kernel⟩
  rintro q r sx (h | h) <;> cases h

theorem wit_IllWord : W.ctx = some K := ctx_of (by decide +kernel)

/-- A thread with one result in flight, and with two. -/
def inFlight (l : List Flight) (s : TState) (t : Thread) : Thread := { t with flights := l, st := s }

theorem wit_CuePoint_1 : (world id (inFlight [{ dst := [(.x 3, 7)] }] .ready) id).ctx = some (ctx0 id (inFlight [{ dst := [(.x 3, 7)] }] .ready)) ∧
    encode (.add true 3 4 5) = some (32, 0x00510307) ∧ 0x00510307 / 2 % 2 = 1 ∧ (Instr.add true 3 4 5).plain ∧
    encode (.mov 3 4) = some (16, 0x1060) ∧ K.t.pend = [] ∧ W.ctx = some K := by
  refine ⟨ctx_of (by decide +kernel), by decide +kernel, by decide +kernel, ⟨rfl, ?_⟩, by decide +kernel, rfl, ctx_of (by decide +kernel)⟩
  rintro q r n (h | h) <;> cases h

theorem wit_CuePoint_2 : (∃ k, (world id (inFlight [{ dst := [(.x 3, 7)] }] .cueWait) id).ctxAt ⟨0, 0⟩ = some k ∧ k.t.st = .cueWait ∧
      k.t.flights = [{ dst := [(.x 3, 7)] }]) ∧
    (∃ k, (world id (inFlight [{ dst := [(.x 3, 7)] }, { dst := [(.x 4, 8)] }] .cueWait) id).ctxAt ⟨0, 0⟩ = some k ∧ k.t.st = .cueWait ∧
      k.t.flights = [{ dst := [(.x 3, 7)] }, { dst := [(.x 4, 8)] }]) ∧
    (∀ f : Flight, f = { dst := [(.x 3, 7)] } ∨ f = { dst := [(.x 4, 8)] } → f.src = .value ∧ f.op = none ∧ f.flags = 0) :=
  ⟨⟨_, rfl, rfl, rfl⟩, ⟨_, rfl, rfl, rfl⟩, by rintro f (rfl | rfl) <;> decide⟩

theorem wit_RegisterFrame : (Instr.add true 3 4 5).regs = some ⟨true, [.x 4, .x 5], [.x 3], true⟩ ∧ (Instr.add true 3 4 5).plain ∧
    CanRun W K true ([.x 4, .x 5] ++ [.x 3]) ∧ K.crewN < K.c.crews.length := by
  refine ⟨rfl, ⟨rfl, ?_⟩, wit_run _ _, by decide +kernel⟩
  rintro q r n (h | h) <;> cases h

/-- A register that is pending is read, and one that is written. -/
theorem wit_RegisterFrame_pending : (world id (fun t => { t with pend := [.x 3, .x 4] }) id).ctx =
      some (ctx0 id (fun t => { t with pend := [.x 3, .x 4] })) ∧
    (Instr.add false 3 4 5).regs = some ⟨false, [.x 4, .x 5], [.x 3], true⟩ ∧ Dst.x 3 ∈ ([.x 4, .x 5] ++ [.x 3] : List Dst) ∧
    Dst.x 3 ∈ (ctx0 id (fun t => { t with pend := [.x 3, .x 4] })).t.pend :=
  ⟨ctx_of (by decide +kernel), rfl, by decide +kernel, by decide +kernel⟩

/-- The scene's TRAPR bit set. -/
def trapping (s : State) : State := { s with scenes := [(0, { bootScene with trapr := true })] }

/-- The I/O die full of records. -/
def fullDie (s : State) : State := { s with faultQ := List.replicate 256 (threadRec s K.c 0 none .trap 0 0 0 .none) }

theorem wit_TrapResults : CanRun W K true [] ∧ (look W.scenes K.c.scene).any Scene.trapr = false ∧ W.faultQ.length < 256 ∧
    CanRun (world id id trapping) K false [] ∧ (look (world id id trapping).scenes K.c.scene).any Scene.trapr = true ∧
    256 ≤ (fullDie W).faultQ.length ∧ CanRun (fullDie (trapping W)) K false [] ∧ look W.casts K.r.c = some K.c ∧ K.c.fire = none ∧
    look W.scenes K.c.scene = some bootScene := by
  refine ⟨wit_run _ _, by decide +kernel, by decide +kernel, can (by decide +kernel) _ _, by decide +kernel, ?_, can (by decide +kernel) _ _, by decide +kernel, rfl, by decide +kernel⟩
  exact List.length_replicate.ge

/-- An access that goes through, from its checks to its place, and what the place is like. -/
theorem reach_of {s : State} {k : Ctx} {op : AccOp} {a : DWord} {size sc : Nat} {w : Want} {v : View} (p : State → Space → Loc → Bool → Bool)
    (h1 : k.behind s a size = [] ∧ k.acquiring s = false ∧ descDet k.c.desc ≠ 1 ∧ s.lag = false)
    (h : (match checkAcc s k.c op a size sc with
      | .ok sp => (match resolve s k.c k.r.c sp w v with
        | .ok r => p r.1 sp r.2.1 r.2.2
        | .error _ => false)
      | .error _ => false) = true) : ∃ s1 sp l z, Reach s k op a size sc w v s1 sp l z ∧ p s1 sp l z = true := by
  obtain ⟨h2, h3, h4, h5⟩ := h1
  split at h
  · rename_i sp hc
    split at h
    · rename_i r hr
      exact ⟨r.1, sp, r.2.1, r.2.2, ⟨hc, h2, h3, fun h => absurd h h4, .inl h5, hr⟩, h⟩
    · cases h
  · cases h

theorem at_of {s : State} {k : Ctx} (h : look s.casts k.r.c = some k.c ∧ look k.c.threads k.r.t = some k.t) : s.ctxAt k.r = some k := by
  simp [State.ctxAt, h.1, h.2]

theorem goes_of {o : Out} (h : (match o with | .next _ => true | _ => false) = true) : Goes o := by
  cases o with
  | next t => exact ⟨t, rfl⟩
  | fault _ => cases h
  | refused _ => cases h

/-- A list of one byte, an empty one; addresses beside and inside a write. -/
theorem wit_CanonicalMemory : Memory.wf [] = true ∧ Memory.wf [(3, 7)] = true ∧ (2 : Nat) ≠ 3 ∧ ((1 : Nat) < 2 ∨ 2 + 4 ≤ 1) ∧ 2 + 4 ≤ 6 := by
  decide +kernel

/-- Every kind of place: the last bytes of a line of home memory, a commons bank, the cast's regions, another device. -/
theorem wit_CanonicalMemory_stores : W.memWf = true ∧ (4 ≤ 16) ∧ (0x5001007C % 128 + 4 ≤ 128) ∧ (W.plot 0).hasCache = true ∧
    look W.casts 0 = some (cast0 id id) ∧ (cast0 id id).memWf = true ∧ 16 ≤ 16 := by decide +kernel

theorem wit_LoadStoreResults : (Instr.ld true 8 1 false 3 1).wf = true ∧ CanRun W K true (pairDst 1 ++ (dataRegs 3 8).map Dst.x) ∧
    K.full .ld = false ∧ (∃ s1 sp l z, Reach W K .ld (K.gAddr 1 3 1) (2 ^ (3#3).toNat) 0 .read .plot s1 sp l z ∧ (l == .home 0x50010008) = true) ∧
    (Instr.st true 8 1 4 1).wf = true ∧ CanRun W K true (pairDst 1 ++ (dataRegs 4 8).map Dst.x) ∧ K.full .st = false ∧
    ∃ s1 sp l z, Reach W K .st (K.gAddr 1 4 1) (2 ^ (4#3).toNat) 0 .write .plot s1 sp l z ∧ (l == .home 0x50010010) = true := by
  refine ⟨?_, wit_run _ _, ?_, reach_of (fun _ _ l _ => l == .home 0x50010008) (by decide +kernel) (by decide +kernel), ?_, wit_run _ _, ?_, reach_of (fun _ _ l _ => l == .home 0x50010010) (by decide +kernel) (by decide +kernel)⟩ <;> decide +kernel

/-- A store to the data page goes on, and the byte beside it is outside. -/
theorem wit_StoreFrame : (Instr.st false 4 1 2 0).wf = true ∧ CanRun W K false (pairDst 1 ++ (dataRegs 2 4).map Dst.x) ∧ K.full .st = false ∧
    (∃ s1 sp l z, Reach W K .st (K.gAddr 1 2 0) (2 ^ (2#3).toNat) 0 .write .plot s1 sp l z ∧ (l == .home 0x50010000) = true) ∧
    ((W.plot K.c.plot).hasCache = false → (W.plot K.c.plot).cache = []) ∧ Goes (exec (.st false 4 1 2 0) W) ∧
    ¬(Loc.home 0x50010004).within (.home 0x50010000) 4 ∧ ¬(Loc.bank 0).within (.home 0x50010000) 4 := by
  refine ⟨by decide +kernel, wit_run _ _, by decide +kernel, reach_of (fun _ _ l _ => l == .home 0x50010000) (by decide +kernel) (by decide +kernel), by decide +kernel, ?_, ?_, ?_⟩
  · exact goes_of (by decide +kernel)
  · rintro ⟨i, hi, h⟩; simp only [Loc.add, Loc.home.injEq] at h; omega
  · rintro ⟨i, hi, h⟩; cases h

theorem wit_ScopedResults : (5#3).toNat < 6 ∧ CanRun W K true (pairDst 1 ++ [.x 4, .x (evenReg 4), .x (oddReg 4)]) ∧ K.full .ld = false ∧
    K.full .st = false ∧ K.holds W = false ∧
    (∃ s1 sp l z, Reach W K .lds (K.t.getA 1) 4 (5#3).toNat .read .home s1 sp l z ∧ (!sp.remote) = true) ∧
    (∃ s1 sp l z, Reach W K .lds (K.t.getA 1) 8 (1#3).toNat .read .plot s1 sp l z ∧ (!sp.remote) = true) ∧
    (∃ s1 sp l z, Reach W K .sts (K.t.getA 1) 4 (1#3).toNat .write .plot s1 sp l z ∧ (!sp.remote) = true) ∧
    (∃ s1 sp l z, Reach W K .sts (K.t.getA 1) 8 (3#3).toNat .write .home s1 sp l z ∧ (!sp.remote) = true) := by
  refine ⟨?_, wit_run _ _, ?_, ?_, ?_, reach_of (fun _ sp _ _ => !sp.remote) (by decide +kernel) (by decide +kernel), reach_of (fun _ sp _ _ => !sp.remote) (by decide +kernel) (by decide +kernel), reach_of (fun _ sp _ _ => !sp.remote) (by decide +kernel) (by decide +kernel), reach_of (fun _ sp _ _ => !sp.remote) (by decide +kernel) (by decide +kernel)⟩ <;> decide +kernel

/-- The last sixteen bytes of the cast's two scratch banks, and the first. -/
theorem wit_ScopedResults_scratch : (4#3).toNat ≤ 4 ∧ (8#6).toNat % 4 = 0 ∧
    CanRun (world id (regs [(4, 0xFFF0), (5, 0x30000000)]) id) (ctx0 id (regs [(4, 0xFFF0), (5, 0x30000000)])) true (pairDst 2 ++ (dataRegs 4 8).map Dst.x) ∧
    (ctx0 id (regs [(4, 0xFFF0), (5, 0x30000000)])).gAddr 2 4 0 = BitVec.ofNat 64 (3 * 2 ^ 60 + 0xFFF0) ∧ 0xFFF0 < 2 ^ 18 ∧
    0xFFF0 < 32768 * descScnt K.c.desc ∧ 0xFFF0 % 2 ^ (4#3).toNat = 0 ∧ K.full .ld = false ∧ K.full .st = false :=
  ⟨by decide +kernel, by decide +kernel, can (by decide +kernel) _ _, by and_intros <;> decide +kernel⟩

theorem wit_AtomicResults : (3#3).toNat < 6 ∧ descDet K.c.desc = 0 ∧ CanRun W K true (pairDst 1 ++ [.x 4, .x (4 + 1), .x 6] ++ pairDst 3) ∧
    (∃ s1 sp l z, Reach W K .atom (K.t.getA 1) 4 (3#3).toNat .write .home s1 sp l z ∧ (l == .home 0x50010000) = true) ∧ K.holds W = false ∧
    (6#6) ≠ 0 ∧ K.full .ld = false ∧ K.full .st = false ∧ (Instr.atom true 6 1 4 3 12).wf = true ∧ (Instr.atom true 6 1 4 3 10).wf = true ∧
    (Instr.red true 1 4 3 12).wf = true ∧ (7 : Word) ≠ 8 :=
  ⟨by decide +kernel, by decide +kernel, wit_run _ _, reach_of (fun _ _ l _ => l == .home 0x50010000) (by decide +kernel) (by decide +kernel), by and_intros <;> decide +kernel⟩

/-- One address for each fault of the checks, and one that passes them. -/
theorem wit_AccessFaults : CanRun W K true (pairDst 1 ++ [.x 6, .x (6 + 1), .x (6 + 2), .x (6 + 3), .x 4, .x (4 + 1)] ++ pairDst 3) ∧
    (Instr.ld true 6 1 false 2 0).wf = true ∧
    checkAcc W K.c .ld 0x5000000000000000 4 0 = .error .path ∧ 5 ≤ bitsN (0x5000000000000000#64) 60 4 ∧
    checkAcc W K.c .st 0x1000000000020000 4 0 = .error .prot ∧ checkAcc W K.c .lds 0x20002 4 3 = .error .align ∧
    checkAcc W K.c .ld 0x2000000000000000 4 0 = .error .path ∧ (∃ sp, checkAcc W K.c .ld 0x20004 4 0 = .ok sp ∧ (!sp.remote) = true) ∧
    pathOk W K.c .ld (classify W.devnum 0x20004) = true ∧ bitsN (0x1000000000020000#64) 60 4 = 1 ∧ (0x20002#64).toNat % 4 ≠ 0 := by
  refine ⟨wit_run _ _, ?_, ?_, ?_, ?_, ?_, ?_, ok_of _ (by decide +kernel), ?_⟩ <;> and_intros <;> decide +kernel

/-- Clamps trap, at the ceiling of plot scope. -/
def lowCeiling (s : State) : State :=
  { s with allots := [(1, { bootAllot with acb := (bootAcb &&& ~~~(15#1024 <<< 28)) ||| (9#1024 <<< 28) })] }

theorem wit_AccessFaults_scope : checkAcc (lowCeiling W) K.c .lds 0x20000 4 3 = .error .scope ∧ acbCtrap ((lowCeiling W).acb 1) = true ∧
    acbCeil ((lowCeiling W).acb 1) = 1 ∧ pathOk (lowCeiling W) K.c .lds (classify W.devnum 0x20000) = true := by decide +kernel

/-- A load and a store to a page that the tables do not map. -/
theorem wit_AccessFaults_translation : CanRun (world id (regs [(4, 0x30000)]) id) (ctx0 id (regs [(4, 0x30000)])) true
      (pairDst 2 ++ (dataRegs 2 6).map Dst.x) ∧ W.faultQ.length < 256 ∧ (W.plot 0).logged < 64 ∧
    (ctx0 id (regs [(4, 0x30000)])).behind (world id (regs [(4, 0x30000)]) id) 0x30000 4 = [] ∧
    (Instr.ld true 6 2 false 2 0).wf = true ∧ (Instr.st true 6 2 2 0).wf = true ∧ K.full .ld = false ∧ K.full .st = false ∧
    (∃ sp, checkAcc W K.c .ld 0x30000 4 0 = .ok sp ∧ (sp == .glob 0x30000) = true) ∧
    (match resolve W K.c K.r.c (.glob 0x30000) .read .plot with | .error (.xlate _ va) => va == 0x30000 | _ => false) = true ∧
    (match resolve W K.c K.r.c (.glob 0x30000) .write .plot with | .error (.xlate _ va) => va == 0x30000 | _ => false) = true ∧
    (W.resolv.any (fun e => e.vpn == 3)) = false := by
  refine ⟨can (by decide +kernel) _ _, ?_, ?_, ?_, ?_, ?_, ?_, ?_, ok_of _ (by decide +kernel), ?_⟩ <;> and_intros <;> decide +kernel

/-- A store of the thread to the data page's first word that has issued and is not performed. -/
def held1 (late : Bool) : Held :=
  { id := 0, cid := 0, slot := 0, key := K.t.key, dep := K.t.dep, pc := 0xFFFC, va := 0x20000, size := 4, scope := 0, ceil := 5,
    kind := .store 9, acck := .store, op := some 0, late := late }

def withHeld (late : Bool) (s : State) : State := s.onPlot 0 (fun p => { p with oplog := [held1 late] })

/-- An access behind one that waits, and one that the device puts off. -/
theorem wit_AccessFaults_behind : CanRun (world id id (withHeld false)) K true (pairDst 1 ++ (dataRegs 2 6).map Dst.x) ∧
    K.behind (world id id (withHeld false)) (K.gAddr 1 2 0) (2 ^ (2#3).toNat) = [held1 false] ∧
    K.acquiring (world id id (withHeld false)) = false ∧ descDet K.c.desc ≠ 1 ∧ ((world id id (withHeld false)).plot 0).logged < 64 ∧
    CanRun (world id id (fun s => { s with lag := true })) K true (pairDst 1 ++ (dataRegs 2 6).map Dst.x) ∧
    K.behind (world id id (fun s => { s with lag := true })) (K.gAddr 1 2 0) (2 ^ (2#3).toNat) = [] ∧
    (∃ r, resolve (world id id (fun s => { s with lag := true })) K.c K.r.c (.glob 0x20000) .read .plot = .ok r ∧
      (r.2.1 == .home 0x50010000) = true) ∧
    (∃ r, resolve (world id id (fun s => { s with lag := true })) K.c K.r.c (.glob 0x20000) .write .plot = .ok r ∧
      (r.2.1 == .home 0x50010000) = true) := by
  refine ⟨can (by decide +kernel) _ _, ?_, ?_, ?_, ?_, can (by decide +kernel) _ _, ?_, ok_of _ (by decide +kernel), ok_of _ (by decide +kernel)⟩ <;> decide +kernel

/-- A number beyond the allotment's one plot, its one plot that holds a context, and the same plot when it holds none. -/
theorem wit_PromotionAcquire : CanRun W K true (pairDst 1 ++ [.x 4, .x 6]) ∧ K.full .ld = false ∧
    (∃ s1 sp l z, Reach W K .acqp (K.t.getA 1) 4 0 .read .home s1 sp l z ∧ ((s1.plot 0).holdsCtx 1 &&
      (({ s1 with nextReq := s1.nextReq + 1 } : State).request K.c.al s1.nextReq [0]).requested s1.nextReq) = true) ∧
    ((look W.allots K.c.al).map Allot.plots).getD [] = [0] ∧ (0 : Word).toNat = 0 ∧ [0].length ≤ (1 : Word).toNat :=
  ⟨wit_run _ _, by decide +kernel, reach_of (fun s1 _ _ _ => ((s1.plot 0).holdsCtx 1 &&
      (({ s1 with nextReq := s1.nextReq + 1 } : State).request K.c.al s1.nextReq [0]).requested s1.nextReq)) (by decide +kernel) (by decide +kernel), by and_intros <;> decide +kernel⟩

theorem wit_PromotionAcquire_none : ∃ s1 sp l z,
    Reach (W.onPlot 0 (fun p => { p with ctx := [] })) K .acqp (K.t.getA 1) 4 0 .read .home s1 sp l z ∧
    ((s1.plot 0).holdsCtx 1 == false &&
      (({ s1 with nextReq := s1.nextReq + 1 } : State).request K.c.al s1.nextReq [0]).requested s1.nextReq == false) = true :=
  reach_of (fun s1 _ _ _ => ((s1.plot 0).holdsCtx 1 == false &&
    (({ s1 with nextReq := s1.nextReq + 1 } : State).request K.c.al s1.nextReq [0]).requested s1.nextReq == false))
    (by decide +kernel) (by decide +kernel)

/-- Conditions that a word of 0 meets and does not; a woken waiter. -/
theorem wit_WaitResults : (3#3).toNat < 6 ∧ (3#4).toNat < 4 ∧ CanRun W K true (pairDst 1 ++ [.x 4, .x 6]) ∧
    (∃ s1 sp l z, Reach W K .waita (K.t.getA 1) 4 (3#3).toNat .read .home s1 sp l z ∧
      ((s1.readAt 0 .home l z 4).2 == 0) = true) ∧ K.t.getX 4 = 0 ∧ W.oracle = [] ∧ ¬(0 : Word) ≠ 0 := by
  refine ⟨?_, ?_, wit_run _ _, reach_of (fun s1 _ l z => (s1.readAt 0 .home l z 4).2 == 0) (by decide +kernel) (by decide +kernel), ?_, rfl, ?_⟩ <;> decide +kernel

/-- A thread that waits at WAITA on the data page's first word. -/
def waiting (t : Thread) : Thread :=
  { t with st := .blocked (.waita { addr := 0x20000, loc := .home 0x50010000, scope := 3, ceil := 5, cond := 0, cmp := 0, d := 6, woken := true }) }

theorem wit_WaitResults_wake : (world id waiting id).ctxAt ⟨0, 0⟩ = some (ctx0 id waiting) ∧ (ctx0 id waiting).holds (world id waiting id) = false ∧
    (world id waiting id).midStep (ctx0 id waiting).c = false ∧
    (∃ r, resolve (world id waiting id) (ctx0 id waiting).c 0 (classify W.devnum 0x20000) .read .home .sync = .ok r ∧
      ((r.1.readAt 0 .home r.2.1 r.2.2 4).2 == 0) = true) :=
  ⟨at_of (k := ctx0 id waiting) (by decide +kernel), by decide +kernel, by decide +kernel, ok_of _ (by decide +kernel)⟩

/-- Counts at their bounds, a first arrival and a last one. -/
theorem wit_BarrierResults : CanRun (world id (regs [(4, 33)]) id) (ctx0 id (regs [(4, 33)])) true [.x 4] ∧ descSlots K.c.desc < (33 : Word).toNat ∧
    ¬((1 : Word) = 0 ∨ descSlots K.c.desc < (1 : Word).toNat ∨ (K.c.bars[15].cnt ≠ 0 ∧ K.c.bars[15].cnt ≠ 1)) ∧
    ¬((32 : Word) = 0 ∨ descSlots K.c.desc < (32 : Word).toNat ∨ (K.c.bars[15].cnt ≠ 0 ∧ K.c.bars[15].cnt ≠ 32)) ∧
    (K.c.threads.map Prod.fst).Nodup ∧ (∀ i t w e, look K.c.threads i = some t → t.st = .blocked (.barrier 15 0 w e) → w = 2) ∧
    K.c.bars[15].arr + 1 < (2 : Word).toNat ∧ K.c.bars[15].arr + 1 = (1 : Word).toNat ∧ (W.plot K.c.plot).oplog = [] := by
  refine ⟨can (by decide +kernel) _ _, by decide +kernel, by decide +kernel, by decide +kernel, by decide +kernel, ?_, by decide +kernel, by decide +kernel, by decide +kernel⟩
  intro i t w e h hs
  have hr : ∀ e ∈ K.c.threads, e.2.st = .ready := by decide +kernel
  have := hr _ (mem_of_look h)
  rw [hs] at this
  cases this

/-- Barrier 15 with a full generation of two arrivals that waits for an access. -/
def fullBar (c : Cast) : Cast := { c with bars := c.bars.set 15 { cnt := 2, arr := 2, by_ := [0] } }

theorem wit_BarrierResults_full : CanRun (world fullBar (regs [(4, 2)]) id) (ctx0 fullBar (regs [(4, 2)])) true [.x 4] ∧
    (ctx0 fullBar (regs [(4, 2)])).c.bars[15].cnt ≠ 0 ∧ (ctx0 fullBar (regs [(4, 2)])).c.bars[15].arr = ((2 : Word)).toNat ∧
    (ctx0 fullBar (regs [(4, 2)])).acquiring (world fullBar (regs [(4, 2)]) id) = false :=
  ⟨can (by decide +kernel) _ _, by and_intros <;> decide +kernel⟩

/-- A fence at and above the ceiling, with its class busy and not. -/
theorem wit_FenceResults : CanRun W K true [] ∧ (Instr.waitc true 0 0 5 true true).wf = true ∧ acbCeil (W.acb K.c.al) = 5 ∧
    CanRun (lowCeiling W) K false [] ∧ (acbCeil ((lowCeiling W).acb K.c.al) < (5#3).toNat) ∧ acbCtrap ((lowCeiling W).acb K.c.al) = true ∧
    ¬((0#6).toNat < (K.crew.ops.filter (fun o => o.cls == .ld)).length) ∧ K.holds W = false ∧
    CanRun (world (fun c => { c with crews := [{ ops := [{ id := 0, cls := .ld, done := false, slot := 0 }] }] }) id id)
      (ctx0 (fun c => { c with crews := [{ ops := [{ id := 0, cls := .ld, done := false, slot := 0 }] }] }) id) true [] ∧
    (0#6).toNat < ((ctx0 (fun c => { c with crews := [{ ops := [{ id := 0, cls := .ld, done := false, slot := 0 }] }] }) id).crew.ops.filter
      (fun o => o.cls == .ld)).length ∧ (1 < 2) ∧ (W.plot 0).log.length < 32 := by
  refine ⟨wit_run _ _, ?_, ?_, can (by decide +kernel) _ _, ?_, ?_, ?_, ?_, can (by decide +kernel) _ _, ?_⟩ <;> and_intros <;> decide +kernel

/-- A fence behind an access of the thread that is not performed: a store, a load, and an acquire. -/
def waitsFor (kd : HeldKind) (s : State) : State := s.onPlot 0 (fun p => { p with oplog := [{ held1 true with kind := kd }] })

theorem wit_FenceResults_held : CanRun (world id id (waitsFor (.store 0))) K true [] ∧ K.holds (world id id (waitsFor (.store 0))) = true ∧
    CanRun (world id id (waitsFor (.load [.x 3] false))) K true [] ∧
    ((K.held (world id id (waitsFor (.load [.x 3] false)))).any (fun h => h.kind.reads)) = true ∧
    CanRun (world id id (waitsFor (.lds [.x 3]))) K true [] ∧ K.acquiring (world id id (waitsFor (.lds [.x 3]))) = true := by
  refine ⟨can (by decide +kernel) _ _, ?_, can (by decide +kernel) _ _, ?_, can (by decide +kernel) _ _, ?_⟩ <;> decide +kernel

/-- A scene with an output region of two records at the data page. -/
def emitting (c : Cast) : Cast := { c with desc := c.desc ||| (0x20000#1024 <<< 384) ||| (2#1024 <<< 448) }

theorem wit_EmitResults : CanRun W K true [.x 4, .x 5] ∧ byteN K.c.desc 56 4 ≤ K.c.accepted ∧
    CanRun (world emitting id id) (ctx0 emitting id) true [.x 4, .x 5] ∧ (ctx0 emitting id).c.accepted < byteN (ctx0 emitting id).c.desc 56 4 ∧
    (let r : EmitRec := { key := K.t.key, dep := K.t.dep, ord := 0, w0 := 0, w1 := 0, slot := 0, pc := 0x10000 }
     committable (world emitting id id) 0 (ctx0 emitting id).c r = true ∧
     ∃ s1, (world emitting id id).commit 0 (ctx0 emitting id).c r = .ok s1 ∧ true = true) := by
  refine ⟨wit_run _ _, ?_, can (by decide +kernel) _ _, ?_, ?_, ok_of _ (by decide +kernel)⟩ <;> decide +kernel

/-- The two writes of a commit go through: the record's words and the count. -/
theorem wit_EmitResults_commit : look (world emitting id id).casts 0 = some (cast0 emitting id) ∧
    (match access (world emitting id id) 0 1 0x2A008 .write .plot with
      | .ok (s1, pa, _) => (match access (s1.storeAt 0 .plot (.home pa) 8 0) 0 1 0x2A000 .write .plot with
        | .ok (_, pb, _) => pa == 0x5001A008 && pb == 0x5001A000
        | .error _ => false)
      | .error _ => false) = true ∧ byteN (cast0 emitting id).desc 48 8 = 0x2A000 ∧ descDet (cast0 emitting id).desc ≠ 2 ∧
    byteN (cast0 emitting id).desc 104 8 = 0 := by decide +kernel

/-- Two slates in the plot's slate cache: the source at 0x20040, the destination at 0x20080. -/
def slates (src dst : Nat) (s : State) : State :=
  s.onPlot 0 (fun q => { q with slates := [(0x20040, BitVec.ofNat 512 src), (0x20080, BitVec.ofNat 512 dst)] })

/-- Two slates are read, and both are as `p` says. -/
theorem slates_of {s : State} {k : Ctx} {q : Bool} {sa da : DWord} {va vb : Nat} (p : State → BitVec 512 → BitVec 512 → Bool)
    (h : (match readSlate s (k.cued q) sa va with
      | .ok r => (match readSlate r.1 (k.cued q) da vb with
        | .ok t => p t.1 r.2 t.2
        | .error _ => false)
      | .error _ => false) = true) :
    ∃ s1 s2 sr dr, readSlate s (k.cued q) sa va = .ok (s1, sr) ∧ readSlate s1 (k.cued q) da vb = .ok (s2, dr) ∧ p s2 sr dr = true := by
  split at h
  · rename_i r hr
    split at h
    · rename_i t ht
      exact ⟨r.1, t.1, r.2, t.2, hr, ht, h⟩
    · cases h
  · cases h

/-- An FP32 slate at the data page, with its completion word offset. -/
def fpSlate (base cwoff : Nat) : Nat := base + 2 ^ 384 + cwoff * 2 ^ 416

def copyRegs : List (BitVec 6 × Word) := [(8, 0x20040), (10, 0x20080)]

abbrev kc : Ctx := ctx0 id (regs copyRegs)

theorem wit_CopyIssue : CanRun (world id (regs copyRegs) (slates (fpSlate 0x20000 0) (fpSlate 0x20000 0))) kc true (pairDst 5 ++ pairDst 4 ++ [.x 6]) ∧
    checkAcc (world id (regs copyRegs) (slates (fpSlate 0x20000 0) (fpSlate 0x20000 0))) kc.c .ctrl (kc.t.getA 4) 64 0 = .ok (.glob 0x20040) ∧
    checkAcc (world id (regs copyRegs) (slates (fpSlate 0x20000 0) (fpSlate 0x20000 0))) kc.c .ctrl (kc.t.getA 5) 64 0 = .ok (.glob 0x20080) ∧
    slateWait (world id (regs copyRegs) (slates (fpSlate 0x20000 0) (fpSlate 0x20000 0))) kc (kc.t.getA 4) = false ∧ kc.full .cp = false :=
  ⟨can (by decide +kernel) _ _, by and_intros <;> decide +kernel⟩

/-- Both valid; a source, and a destination that is not; a READONLY destination; a completion word past the region. -/
theorem wit_CopyIssue_slates :
    (∃ s1 s2 sr dr, readSlate (world id (regs copyRegs) (slates (fpSlate 0x20000 0) (fpSlate 0x20000 0xFFFC))) (kc.cued true) 0x20040 0x20040 = .ok (s1, sr) ∧
      readSlate s1 (kc.cued true) 0x20080 0x20080 = .ok (s2, dr) ∧
      (slateValid s2 kc.c false (slateOf sr) && slateValid s2 kc.c true (slateOf dr) && (slateOf dr).cwoff % 4 == 0 &&
        decide ((slateOf dr).cwoff < 32768 * descScnt kc.c.desc)) = true) ∧
    (∃ s1 s2 sr dr, readSlate (world id (regs copyRegs) (slates 0 (fpSlate 0x20000 0))) (kc.cued true) 0x20040 0x20040 = .ok (s1, sr) ∧
      readSlate s1 (kc.cued true) 0x20080 0x20080 = .ok (s2, dr) ∧ (!slateValid s2 kc.c false (slateOf sr)) = true) ∧
    (∃ s1 s2 sr dr, readSlate (world id (regs copyRegs) (slates (fpSlate 0x20000 0) (fpSlate 0x20002 0))) (kc.cued true) 0x20040 0x20040 = .ok (s1, sr) ∧
      readSlate s1 (kc.cued true) 0x20080 0x20080 = .ok (s2, dr) ∧
      (slateValid s2 kc.c false (slateOf sr) && !slateValid s2 kc.c true (slateOf dr)) = true) ∧
    (∃ s1 s2 sr dr, readSlate (world id (regs copyRegs) (slates (fpSlate 0x20000 0) (fpSlate 0x1000000000020000 0x10000))) (kc.cued true) 0x20040 0x20040 = .ok (s1, sr) ∧
      readSlate s1 (kc.cued true) 0x20080 0x20080 = .ok (s2, dr) ∧
      (slateValid s2 kc.c true (slateOf dr) && decide (¬((slateOf dr).cwoff < 32768 * descScnt kc.c.desc)) &&
        (match classify s2.devnum (slateOf dr).base with | .ro _ => true | _ => false)) = true) :=
  ⟨slates_of (fun s2 sr dr => slateValid s2 kc.c false (slateOf sr) && slateValid s2 kc.c true (slateOf dr) && (slateOf dr).cwoff % 4 == 0 &&
      decide ((slateOf dr).cwoff < 32768 * descScnt kc.c.desc)) (by decide +kernel),
    slates_of (fun s2 sr _ => !slateValid s2 kc.c false (slateOf sr)) (by decide +kernel),
    slates_of (fun s2 sr dr => slateValid s2 kc.c false (slateOf sr) && !slateValid s2 kc.c true (slateOf dr)) (by decide +kernel),
    slates_of (fun s2 _ dr => slateValid s2 kc.c true (slateOf dr) && decide (¬((slateOf dr).cwoff < 32768 * descScnt kc.c.desc)) &&
      (match classify s2.devnum (slateOf dr).base with | .ro _ => true | _ => false)) (by decide +kernel)⟩

/-- The last cell of the cast's one tile, a number past it, and a tile that the cast does not hold. -/
theorem wit_CellResults : CanRun (world id (regs [(4, 16383)]) id) (ctx0 id (regs [(4, 16383)])) true [.x 4, .x 6] ∧
    ((16383 : Word).toNat < 2 ^ 14 ∧ (0#3).toNat < descAcnt K.c.desc) ∧ ¬((16384 : Word).toNat < 2 ^ 14 ∧ (0#3).toNat < descAcnt K.c.desc) ∧
    ¬((0 : Word).toNat < 2 ^ 14 ∧ (1#3).toNat < descAcnt K.c.desc) ∧ W.writers 0 (K.c.tiles.getD 0 8) = [] ∧
    ({ W with nextReq := W.nextReq + 1 } : State).writers 0 (K.c.tiles.getD 0 8) = [] ∧ (W.plot 0).mxws = [] :=
  ⟨can (by decide +kernel) _ _, by and_intros <;> decide +kernel⟩

/-- A reel of one entry of 128 bytes at the start of the scratch region, in a given state. -/
def reel1 (free full : Nat) (held : List (Nat × Bool)) : Reel :=
  { space := false, base := 0, esz := 128, nent := 1, free := free, full := full, pix := 0, cix := 0, resq := [], takq := [], held := held }

def withReel (r : Reel) (c : Cast) : Cast := { c with reels := #v[some r, none, none, none] }

/-- The reel's entry in a8. -/
def entryRegs : List (BitVec 6 × Word) := [(16, 0), (17, 0x30000000)]

theorem wit_ReelResults : CanRun W K true (pairDst 4 ++ pairDst 8) ∧ K.c.reels[1] = none ∧
    CanRun (world (withReel (reel1 1 1 [(0, true)])) (regs entryRegs) id) (ctx0 (withReel (reel1 1 1 [(0, true)])) (regs entryRegs)) true
      (pairDst 4 ++ pairDst 8) ∧
    (ctx0 (withReel (reel1 1 1 [(0, true)])) (regs entryRegs)).c.reels[0] = some (reel1 1 1 [(0, true)]) ∧
    (reel1 0 0 []).take = none ∧ (reel1 0 0 []).reserve = none ∧ (reel1 1 1 []).take.isSome = true ∧ (reel1 1 1 []).reserve.isSome = true ∧
    BitVec.ofNat 64 (3 * 2 ^ 60 + 0 + 0 * 128) = (ctx0 id (regs entryRegs)).t.getA 8 ∧ BitVec.ofNat 64 (3 * 2 ^ 60 + 0 + 0 * 128) ≠ K.t.getA 8 ∧
    (reel1 1 1 [(0, true)]).held = [(0, true)] ∧ (reel1 1 1 [(0, false)]).held = [(0, false)] ∧ K.holds W = false ∧
    (0 : Nat) ≠ 1 ∧ (reel1 0 0 []).free = 0 ∧ 0 < (reel1 1 1 []).full :=
  ⟨wit_run _ _, by decide +kernel, can (by decide +kernel) _ _, by and_intros <;> decide +kernel⟩

/-- One buffered record of a cast with no lower key. -/
def emitRec : EmitRec := { key := K.t.key, dep := K.t.dep, ord := 0, w0 := 1, w1 := 2, slot := 0, pc := 0x10000 }

def buffered (c : Cast) : Cast := { emitting c with ebuf := [emitRec], accepted := 1 }

theorem wit_WaitEvents_commit : look (world buffered id id).casts 0 = some (cast0 buffered id) ∧ emitRec ∈ (cast0 buffered id).ebuf ∧
    (∀ x ∈ (cast0 buffered id).ebuf, x ≠ emitRec → emitRec.lt x = true ∧ x.lt emitRec = false) ∧
    committable (world buffered id id) 0 (cast0 buffered id) emitRec = true ∧
    ∃ s1, (world buffered id id).commit 0 (cast0 buffered id) emitRec = .ok s1 ∧ (s1.faultQ.isEmpty) = true := by
  refine ⟨?_, ?_, ?_, ?_, ok_of (fun s1 : State => s1.faultQ.isEmpty) (by decide +kernel)⟩ <;> decide +kernel

/-- A generation of bar15 whose one arrival has come, while its thread waits on it. -/
def arrived (c : Cast) : Cast := { c with bars := c.bars.set 15 { cnt := 1, arr := 1, gen := 0, by_ := [4] } }

theorem wit_WaitEvents_barrier : look (world arrived (fun t => { t with st := .blocked (.barrier 15 0 1 false) }) id).casts 0 =
      some (cast0 arrived (fun t => { t with st := .blocked (.barrier 15 0 1 false) })) ∧
    ((cast0 arrived id).threads.map Prod.fst).Nodup ∧ (cast0 arrived id).bars[15].cnt ≠ 0 ∧
    (cast0 arrived id).bars[15].arr = (cast0 arrived id).bars[15].cnt.toNat ∧ (∀ h ∈ ((withHeld false W).plot 0).oplog, h.id ∉ (cast0 arrived id).bars[15].by_) := by decide +kernel

/-- A thread that waits at RTAKE, and one that waits at RTAKE.RES, on a reel that can serve it. -/
theorem wit_WaitEvents_reel : (∀ res : Bool,
      let ft := fun t => ({ t with st := .blocked (.rtake res 0 4) } : Thread)
      look (world (withReel (reel1 1 1 [])) ft id).casts 0 = some (cast0 (withReel (reel1 1 1 [])) ft) ∧
      (0, cast0 (withReel (reel1 1 1 [])) ft) ∈ (world (withReel (reel1 1 1 [])) ft id).casts ∧
      (cast0 (withReel (reel1 1 1 [])) ft).reels[0] = some (reel1 1 1 []) ∧
      (0, ft (startThread 0x10000 0x20000 0)) ∈ (cast0 (withReel (reel1 1 1 [])) ft).threads) ∧
    (∀ m ∈ (cast0 (withReel (reel1 1 1 [])) id).threads, m.1 = 0) ∧
    (reel1 1 1 []).reserve = some (0, { reel1 1 1 [] with free := 0, resq := [(0, false)] }) ∧
    (reel1 1 1 []).take = some (0, { reel1 1 1 [] with full := 0, takq := [(0, false)] }) := by decide +kernel

/-- The loaded allotment with one graph in a state, whose descriptor stands at the data page, and others in use beside it. -/
def graphs (st : Option GState) (others : Nat) (s : State) : State :=
  { s with allots := [(1, { bootAllot with
    graphs := (match st with
      | some st => [{ addr := 0x20000, st := st }]
      | none => []) ++ List.replicate others { addr := 0x30000, st := .bound } })] }

def graphPlace (st : Option GState) (others : Nat) (p : State → State → Bool) : Bool :=
  let s := world id id (graphs st others)
  match checkAcc s K.c .ctrl (K.t.getA 1) 64 0 with
  | .ok sp => (match resolve s K.c K.r.c sp .read with
    | .ok r => p r.1 (r.1.release 0 3)
    | .error _ => false)
  | .error _ => false

/-- The descriptor's address passes its checks with the graph unseen, in every state, and with 31 and 32 graphs in use. -/
theorem wit_GraphWords : (∀ st ∈ [none, some GState.unbound, some .binding, some .bound, some .running, some .stopping, some .rebinding, some .failed],
      ∀ n ∈ [0, 31, 32], graphPlace st n (fun s1 r => (look r.allots 1).any (fun a => (a.graphs.filter (fun g => g.st != .unbound)).length ==
          n + (if st == none || st == some .unbound then 0 else 1)) && (r.graphAt 1 0x20000).isNone == st.isNone &&
        (s1.graphAt 1 0x20000).isNone == st.isNone && (match st with | some v => (r.graph? 1 0).any (fun g => g.st == v) | none => true)) = true) ∧
    CanRun (world id id (graphs none 0)) K true (pairDst 1 ++ [.x (evenReg 4), .x (oddReg 4), .x 6]) ∧
    K.holds (world id id (graphs none 0)) = false ∧ K.behind (world id id (graphs none 0)) (K.t.getA 1) 64 = [] ∧
    K.acquiring (world id id (graphs none 0)) = false ∧ (world id id (graphs none 0)).migrating 1 = false :=
  ⟨by decide +kernel, can (by decide +kernel) _ _, by and_intros <;> decide +kernel⟩

/-- A thread on its way and one that has arrived. -/
def arrivedAt (i : Instr) (vals : List Word) (t : Thread) : Thread := { t with st := .blocked (.collective { instr := i, vals := vals, ceil := 5 }) }

theorem wit_CollectiveSets : look K.c.threads K.r.t = some K.t ∧ fixNow K = none ∧
    look (ctx0 id (arrivedAt (.nop false) [])).c.threads 0 = some (ctx0 id (arrivedAt (.nop false) [])).t ∧
    (∃ fx, fixNow (ctx0 id (arrivedAt (.nop false) [])) = some fx ∧ (fx.parts == [0]) = true) := by
  refine ⟨?_, ?_, ?_, some_of (fun fx : FixedSet => fx.parts == [0]) (by decide +kernel)⟩ <;> decide +kernel

theorem wit_CollectiveSets_delivery : ([0] : List Nat).Nodup ∧ W.thread? ⟨0, 0⟩ = some K.t ∧ (K.t.lc[0]).getLsbD 31 = false ∧
    (K.t.lc[1]).getLsbD 31 = false ∧ (K.t.lc[2]).getLsbD 31 = false ∧ 0 ∈ ([0] : List Nat) ∧ 0 ∉ ([1] : List Nat) ∧ ([1] : List Nat).Nodup := by
  decide +kernel

/-- Two sets of one crew that are ready in one cycle, at different addresses, of the slots 1 and 0. -/
def apart (c : Cast) : Cast :=
  { c with threads := [(1, { arrivedAt (.nop false) [] (startThread 0x10000 0x20000 1) with cmask := 2 }),
      (0, { arrivedAt (.nop false) [] (startThread 0x10008 0x20000 0) with cmask := 1 })] }

theorem wit_CollectiveSets_order : ((world apart id id).readyGroups 0 0).map FixedSet.parts = [[0], [1]] := by decide +kernel

/-- An arrival that is the last of its set, and what the set and its lowest participant are like. -/
theorem gathers_of {k : Ctx} {q : Bool} {s : State} {i : Instr} {vals : List Word} (p : FixedSet → Ctx → Bool)
    (h : (match look (k.arrives q s i vals).casts k.r.c with
      | some c => !(k.arrives q s i vals).midStep c
      | none => true) = true)
    (h' : (match (k.arrives q s i vals).readyGroups k.r.c k.crewN with
      | [fx] => (match (k.gathered q s i vals fx).ctxAt ⟨k.r.c, fx.parts.headD 0⟩ with
        | some low => (match low.t.st with
          | .blocked (.collective a) => decide (a.instr = i) && (!collHeld (k.gathered q s i vals fx) low fx && p fx low)
          | _ => false)
        | none => false)
      | _ => false) = true) : ∃ fx low, k.gathers q s i vals fx low ∧ p fx low = true := by
  split at h'
  · rename_i fx hf
    split at h'
    · rename_i low hl
      split at h'
      · rename_i a ha
        simp only [Bool.and_eq_true, decide_eq_true_eq, Bool.not_eq_true'] at h'
        refine ⟨fx, low, ⟨fun c hc => ?_, hf, hl, ⟨a, ha, h'.1⟩, h'.2.1⟩, h'.2.2⟩
        rw [hc] at h
        simpa using h
      · cases h'
    · cases h'
  · cases h'

theorem wit_CollectiveResults : CanRun W K true [.x 3, .x 4, .x 5, .k 1, .k 2] ∧ CanRun W K true [.x 4, .x 3] ∧
    (∃ fx low, K.gathers true W (.voteBal true 3 2) [if K.t.getK 2 then 1 else 0] fx low ∧ (fx.parts == [0]) = true) ∧
    (∃ fx low, K.gathers true W (.shflXor true 3 4 5) [K.t.getX 4, K.t.getX 5] fx low ∧ (fx.parts == [0]) = true) ∧
    (∃ fx low, K.gathers true W (.cred true 3 4 10) [K.t.getX 4] fx low ∧ (fx.parts == [0]) = true) ∧ (10#4).toNat ≤ 10 ∧ (0 : Nat) < 32 :=
  ⟨wit_run _ _, wit_run _ _, gathers_of (fun fx _ => fx.parts == [0]) (by decide +kernel) (by decide +kernel),
    gathers_of (fun fx _ => fx.parts == [0]) (by decide +kernel) (by decide +kernel),
    gathers_of (fun fx _ => fx.parts == [0]) (by decide +kernel) (by decide +kernel), by decide +kernel, by decide +kernel⟩

/-- A block with no outlier and one with one: an outlier list of room for one at the data page. -/
def outlierWorld (x : Word) : State :=
  world (fun c => { c with crews := [{ outl := 0x20000 }] }) (regs [(4, x)]) (fun s => { s with mem := Memory.write s.mem 0x50010004 4 1 })

abbrev ko (x : Word) : Ctx := ctx0 (fun c => { c with crews := [{ outl := 0x20000 }] }) (regs [(4, x)])

/-- What the completion of a collective answers, at its set and its lowest participant, goes through. -/
def goesOn {ε α : Type} (e : Except ε α) : Bool := match e with
  | .ok _ => true
  | .error _ => false

theorem wit_BlockResults : (2#2).toNat < 3 ∧ CanRun (outlierWorld 0x3F800000) (ko 0x3F800000) true ([.x 3, .x 4, .x 5] ++ pairDst 6) ∧
    (∃ fx low, (ko 0x3F800000).gathers true (outlierWorld 0x3F800000) (.bpack true 3 4 6 2) [0x3F800000, 0, 0] fx low ∧
      (fx.parts == [0] && fx.outl == 0x20000) = true) ∧
    (∃ fx low, (ko 0x7FC00000).gathers true (outlierWorld 0x7FC00000) (.bpack true 3 4 6 2) [0x7FC00000, 0, 0] fx low ∧
      goesOn (appendOutliers ((ko 0x7FC00000).gathered true (outlierWorld 0x7FC00000) (.bpack true 3 4 6 2) [0x7FC00000, 0, 0] fx) low fx
        [(0x7FC00000, 0)]) = true) :=
  ⟨by decide +kernel, can (by decide +kernel) _ _,
    gathers_of (fun fx _ => fx.parts == [0] && fx.outl == 0x20000) (by decide +kernel) (by decide +kernel),
    gathers_of (fun fx low => goesOn (appendOutliers ((ko 0x7FC00000).gathered true (outlierWorld 0x7FC00000) (.bpack true 3 4 6 2)
      [0x7FC00000, 0, 0] fx) low fx [(0x7FC00000, 0)])) (by decide +kernel) (by decide +kernel)⟩

/-- A ZERO command of one row at the data page. -/
def zeroBlock (s : State) : State := { s with mem := Memory.write s.mem 0x50010000 12 0x0001FFFFFFFF000000000002 }

theorem wit_BlockResults_mxc : CanRun (world id id zeroBlock) K true ([.x 3, .x 4, .x 5] ++ pairDst 1) ∧
    (∃ fx low, K.gathers true (world id id zeroBlock) (.mxc true 1 4 5) [0x20000, 0, 0, 0] fx low ∧
      goesOn (mxcAppend (K.gathered true (world id id zeroBlock) (.mxc true 1 4 5) [0x20000, 0, 0, 0] fx) low fx 0x20000 0 0) = true) :=
  ⟨can (by decide +kernel) _ _, gathers_of (fun fx low => goesOn (mxcAppend (K.gathered true (world id id zeroBlock) (.mxc true 1 4 5)
    [0x20000, 0, 0, 0] fx) low fx 0x20000 0 0)) (by decide +kernel) (by decide +kernel)⟩

/-- Elements that fit the low scale, the high scale and neither, at 4 bits: 1, 3 and 8 at scales 2^0 and 2^2; and the three sizes. -/
theorem wit_BlockResults_elements : (∃ r, dbQ 0 (.fin false 1 0) 256 = some r ∧ (decide (r.1 < 2 ^ (4 - 2))) = true) ∧
    (∃ r, dbQ 0 (.fin false 4 0) 256 = some r ∧ (decide (¬r.1 < 2 ^ (4 - 2))) = true) ∧
    (∃ r, dbQ 0 (.fin false 4 0) 258 = some r ∧ (decide (r.1 < 2 ^ (4 - 2))) = true) ∧
    (∃ r, dbQ 0 (.fin false 16 0) 258 = some r ∧ (decide (¬r.1 < 2 ^ (4 - 2))) = true) ∧
    [dbEncode 4 0 false 258 256 (.fin false 1 0) 0][0]? = some (dbEncode 4 0 false 258 256 (.fin false 1 0) 0) ∧ 258 < 512 ∧ (258 : Nat) ≠ 511 ∧
    (FpVal.nan false).isNan = true ∧ (FpVal.fin false 16 0).isNan = false :=
  ⟨some_of (fun (r : Nat × Bool) => decide (r.1 < 2 ^ (4 - 2))) (by decide +kernel), some_of (fun (r : Nat × Bool) => decide (¬r.1 < 2 ^ (4 - 2))) (by decide +kernel), some_of (fun (r : Nat × Bool) => decide (r.1 < 2 ^ (4 - 2))) (by decide +kernel), some_of (fun (r : Nat × Bool) => decide (¬r.1 < 2 ^ (4 - 2))) (by decide +kernel), by and_intros <;> decide +kernel⟩

/-! #### Events of threads, casts and plots -/

/-- A result that returns with a counted operation, to a thread at CUEWAIT. -/
abbrev returning : Thread → Thread := inFlight [{ dst := [(.x 3, 7)], op := some 0 }] .cueWait

def counted (c : Cast) : Cast := { c with crews := [{ ops := [{ id := 0, cls := .ld, slot := 0, done := true }] }], nextOp := 1 }

theorem wit_ThreadEvents : (world counted returning id).ctxAt ⟨0, 0⟩ = some (ctx0 counted returning) ∧
    (ctx0 counted returning).t.flights[0]? = some { dst := [(.x 3, 7)], op := some 0 } ∧
    (world counted returning id).settleCells 0 = world counted returning id ∧ 0 < (ctx0 counted returning).c.crews.length :=
  ⟨at_of (k := ctx0 counted returning) (by decide +kernel), by and_intros <;> decide +kernel⟩

/-- HELD with another thread of its MEET that has arrived; a timer of 256, HELD and READY. -/
def meeting (c : Cast) : Cast :=
  { c with threads := c.threads ++ [(1, { startThread 0x10040 0x20000 1 with meet := 0x10040 })] }

theorem wit_ThreadEvents_held :
    (∃ k, (world meeting (fun t => { t with st := .held, meet := 0x10040 }) id).ctxAt ⟨0, 0⟩ = some k ∧ (k.t.st == .held &&
      k.c.threads.all (fun e => e.1 == 0 || e.2.pc.setWidth 32 == k.t.meet)) = true) ∧
    (∀ st ∈ [TState.held, .ready], ∃ k, (world id (fun t => { t with st := st, timer := 256 }) id).ctxAt ⟨0, 0⟩ = some k ∧
      (k.t.st == st && k.t.timer == 256 && descDet k.c.desc != 1) = true) :=
  ⟨some_of (fun k : Ctx => k.t.st == .held && k.c.threads.all (fun e => e.1 == 0 || e.2.pc.setWidth 32 == k.t.meet)) (by decide +kernel),
    fun st h => some_of (fun k : Ctx => k.t.st == st && k.t.timer == 256 && descDet k.c.desc != 1) (by revert st; decide +kernel)⟩

abbrev voting : Thread → Thread := arrivedAt (.voteAny true 3 2) [1]

/-- A set that is ready at an event, with its lowest participant, whose operation goes through. -/
def setReady (s : State) (c w : Nat) : Bool :=
  match s.readyGroups c w with
  | [fx] => (match (s.markFixed c fx).ctxAt ⟨c, fx.parts.headD 0⟩ with
    | some low => (match low.t.st with
      | .blocked (.collective b) => !collHeld (s.markFixed c fx) low fx && goesOn (performColl (s.markFixed c fx) low b.instr fx)
      | _ => false)
    | none => false)
  | _ => false

theorem wit_ThreadEvents_set : (world id voting id).ctxAt ⟨0, 0⟩ = some (ctx0 id voting) ∧
    (world id voting id).midStep (ctx0 id voting).c = false ∧ setReady (world id voting id) 0 0 = true :=
  ⟨at_of (k := ctx0 id voting) (by decide +kernel), by decide +kernel, by decide +kernel⟩

/-- HELD beside a thread of its MEET that has arrived since, and gone on: it stands in the list of those met. -/
theorem wit_ThreadEvents_met :
    let c := fun (c : Cast) => ({ c with threads := c.threads ++ [(1, { startThread 0x10080 0x20000 1 with meet := 0x10040, key := 7 })] } : Cast)
    ∃ k, (world c (fun t => { t with st := .held, meet := 0x10040, met := [(7, 1)] }) id).ctxAt ⟨0, 0⟩ = some k ∧ (k.t.st == .held &&
      k.c.threads.all (fun e => e.1 == 0 || k.t.met.contains (e.2.key, e.2.dep))) = true :=
  some_of (fun k : Ctx => k.t.st == .held && k.c.threads.all (fun e => e.1 == 0 || k.t.met.contains (e.2.key, e.2.dep))) (by decide +kernel)

/-- The turn: a holder that has retired the quantum, and a crew with a higher index; and one that starts again at the lowest. -/
def turnAt (last : Nat) (s : State) : State :=
  s.onPlot 0 (fun q => { q with turn := { holder := some (7, 0), last := some last, count := 65536 } })

theorem wit_IssueOrder : 0 ∈ (W.plot 0).rr ∧ look W.casts 0 = some K.c ∧ descDet K.c.desc ≠ 1 ∧ (0, K.t) ∈ K.c.threads ∧
    (∀ l ∈ [0, 5], let s := world (fun c => { ordered c with ix := if l = 0 then 1 else 0 }) id (turnAt l)
      (s.plot 0).turn.holder ≠ none ∧ (s.plot 0).turn.members = [] ∧ s.quant 0 ≤ (s.plot 0).turn.count ∧ (s.plot 0).turn.last = some l ∧
      s.turnCrews 0 = [(if l = 0 then 16 else 0, 0, 0)]) := by decide +kernel

/-- A record of the deferred ordinals 1 to `hi`, in a cast of 32 threads that holds one slot free, or none. -/
def seedRec (hi : Nat) : SeedRec := { deferral K.t 5 0 1 hi with dreg := 5 }

def slotsFull (n : Nat) (t : Thread) (l : List SeedRec) (c : Cast) : Cast :=
  { c with threads := (List.range n).map (fun i => (i, { t with key := keySet 0 0 (9 + i) })), seeds := l }

theorem wit_SeedEvents : (∀ hi ∈ [1, 2], let c := cast0 (slotsFull 31 K.t [seedRec hi]) id
      let s := world (slotsFull 31 K.t [seedRec hi]) id id
      look s.casts 0 = some c ∧ s.seedHeld 0 c = false ∧ s.midStep c = false ∧ c.emptySlots = [31] ∧ seedRec hi ∈ c.seeds ∧
      (match s.readSeed c (seedRec hi) with
        | .ok s1 => (match s1.advanceSeed c (seedRec hi) with | .ok r => r.2.isSome == (hi == 2) | .error _ => false)
        | .error _ => false) = true) := by decide +kernel

/-- Every slot stalled at EMIT above the deferred thread; the highest key with a result to come, and without; the top position. -/
theorem wit_SeedEvents_displacement : (∀ fl ∈ [[], [{ dst := [(.x 3, 7)] }]],
      let t := inFlight fl (.blocked .emit) { K.t with dep := 8 }
      let c := cast0 (slotsFull 32 t [seedRec 1]) id
      let s := world (slotsFull 32 t [seedRec 1]) id id
      look s.casts 0 = some c ∧ s.seedHeld 0 c = false ∧ s.midStep c = false ∧ c.emptySlots = [] ∧ (∀ e ∈ c.threads, e.2.st = .blocked .emit) ∧
      (∀ e ∈ c.threads, keyLt e.2.key e.2.dep.toNat (seedRec 1).low.1 (seedRec 1).low.2 = false) ∧ c.displaced = none ∧
      (31, { t with key := keySet 0 0 40 }) ∈ c.threads ∧
      (∀ e ∈ c.threads, e.1 ≠ 31 → keyLt e.2.key e.2.dep.toNat (keySet 0 0 40) 8 = true) ∧ s.seedPos c = (some 1, s) ∧
      (match s.writeSeed c (displacement { t with key := keySet 0 0 40 } 1) with | .ok _ => true | .error _ => false) = true) := by
  decide +kernel

/-- A cast that has ended, without and with a deferred update at the data page. -/
def deferredAt (a : DWord) : Deferred :=
  { key := K.t.key, dep := 1, ord := 0, idx := 0, addr := a, scope := 3, bf := false, val := 0x3F800000 }

theorem wit_CastEvents : (∀ l ∈ [[], [deferredAt 0x20000]],
      let c := cast0 (fun c => { c with threads := [], deferred := l }) id
      let s := world (fun c => { c with threads := [], deferred := l }) id id
      look s.casts 0 = some c ∧ s.castDone 0 c = true ∧ c.fire = none ∧ look s.scenes c.scene = some bootScene) ∧
    (let f := fun (c : Cast) => ({ c with st := .listWait, ix := 1, deferred := [deferredAt 0x20000] } : Cast)
     let s := world f id (fun s => { s with casts := s.casts ++ [(1, cast0 id id)] })
     look s.casts 0 = some (cast0 f id) ∧ s.prevCast (cast0 f id) ≠ none ∧ (world f id id).prevCast (cast0 f id) = none ∧
     (match (world f id id).applyOne 0 (cast0 f id) (deferredAt 0x20000) with
      | .ok s1 => look s1.casts 0 == some (cast0 f id)
      | .error _ => false) = true) := by decide +kernel

/-- A watchdog at its limit; a path of one bucket of RATE 1, at the data page, whose balance is 1,024, above it, and 1. -/
def limited (w : Nat) (p : List DWord) (s : State) : State := { s with scenes := [(0, { bootScene with wdlim := w, path := p })] }

def bucket (n : Nat) (s : State) : State :=
  limited 0 [0x20000] { s with mem := Memory.write (Memory.write s.mem 0x50010010 4 1) 0x50010028 8 n }

theorem wit_CastEvents_limits :
    (let s := world (fun c => { c with wdog := 1024 }) id (limited 1 [])
     look s.casts 0 = some (cast0 (fun c => { c with wdog := 1024 }) id) ∧ s.recFull = false ∧
       look s.scenes 0 = some { bootScene with wdlim := 1 }) ∧
    (∀ n ∈ [1, 1023, 1024, 1025], let s := world id id (bucket n)
      look s.casts 0 = some K.c ∧ K.c.lease = 0 ∧ K.c.st ≠ .listWait ∧ look s.scenes 0 = some { bootScene with path := [0x20000] } ∧
      (match (s.payOwed 1).balances 1 [0x20000] with | .ok r => r.2 == [((0x20000 : DWord), (n : Int))] | .error _ => false) = true) := by decide +kernel

/-- An FP32 slate of one element. -/
def slate1 (base : Nat) : BitVec 512 := BitVec.ofNat 512 (fpSlate base 0 + 2 ^ 64 + 2 ^ 96 + 2 ^ 128 + 2 ^ 160)

def copy1 (id : Nat) (started : Bool) : Copy :=
  { seq := id, cid := 0, slot := 0, op := id, pc := 0x10000, mode := 0, key := K.t.key, dep := 1, ord := 0, src := slate1 0x20000, dst := slate1 0x20100
    srcA := 0x20040, dstA := 0x20080, cval := none, entry := none, begun := started, started := started }

/-- Seven copies in progress, and one that has not begun. -/
def copying (s : State) : State :=
  s.onPlot 0 (fun q => { q with copies := (List.range 7).map (fun i => copy1 i true) ++ [copy1 7 false] })

theorem wit_PlotEvents : (let s := world counted id copying
      let k := { copy1 7 false with begun := true }
      (s.plot 0).copies.find? (fun x => copyReady s 0 x) = some (copy1 7 false) ∧ ((s.plot 0).copies.filter Copy.begun).length = 7 ∧
      look s.casts 0 = some (cast0 counted id) ∧ copyReserve s (copy1 7 false) = some (s, copy1 7 false) ∧
      goesOn (copyPayload k (copyBase s k) s) = true ∧
      (s.plot 0).copies[0]? = some (copy1 0 true) ∧ (copy1 0 true).started = true ∧ (copy1 0 true).entry = none ∧ (copy1 0 true).cval = none ∧
      (copy1 0 true).slot / 32 < (cast0 counted id).crews.length) := by decide +kernel

/-- A copy that waits in the operand log, a later one of the same bytes that waits behind it, and one of other bytes that does not. -/
theorem wit_PlotEvents_order : (let far := { copy1 1 false with src := slate1 0x24000, dst := slate1 0x28000 }
      let s := (world counted id id).onPlot 0 (fun q => { q with
        copies := [{ copy1 0 false with begun := true }, copy1 2 false, far], oplog := [{ held1 false with kind := .copy 0 }] })
      copyReady s 0 { copy1 0 false with begun := true } = false ∧
      (copiesMeet s { copy1 0 false with begun := true } (copy1 2 false)) = true ∧
      copiesMeet s { copy1 0 false with begun := true } far = false) := by decide +kernel

/-- A dirty line at the data page, with a stamp up to the cut-off, and a request that an ACQP waits for, or another plot has too. -/
def request5 : PromReq := { n := 5, al := 1, cut := 9 }

/-- An ACQP that waits for the completions of request 5. -/
def acquires5 : Held := { held1 true with kind := .acqpGo 5 3, acck := .load }

def promoting (s : State) : State :=
  s.onPlot 0 (fun q => { q with preqs := [request5], log := [9, 10], cache := [{ n := 0x50010000 / 128, data := 7, dirty := 1, stamp := 9 }],
                                oplog := [acquires5] })

theorem wit_PlotEvents_promotion : ((world id id promoting).plot 0).preqs = [request5] ∧
    ((world id id promoting).serveProm 0 request5).requested 5 = false ∧ ((world id id promoting).serveProm 0 request5).acqpOf 5 = some (0, 0) ∧
    (let p := { (promoting W).plot 0 with oplog := [] }
     ({ world id id promoting with plots := [(0, p), (1, { preqs := [request5] })] } : State).serveProm 0 request5 |>.acqpOf 5) = none ∧
    (∃ e ∈ (W.plot 0).ctx, e.1 = request5.al) := by decide +kernel

theorem wit_PlotEvents_acquire : (let s := (world id id promoting).serveProm 0 request5
      (s.plot 0).oplog.find? (fun x => x.id == 0) = some acquires5 ∧ acquires5.late = true ∧ s.requested 5 = false ∧
      (∀ x ∈ (s.plot 0).oplog, ¬x.id < 0) ∧ (match s.heldCtx acquires5 with
        | some k => goesOn (resolve s k.c 0 (classify s.devnum acquires5.va) .read .home .plot)
        | none => false) = true ∧
      (world id id promoting).requested 5 = true) := by decide +kernel

/-- The data page's frame all-zero, with a dirty line in the plot's cache. -/
def zeroFrame (s : State) : State :=
  { promoting s with frames := put s.frames 0x5001 { owner := 1, st := 2, key := 2, zero := true } }

theorem wit_PlotEvents_zero : (let s := world id id zeroFrame
      let x : Line := { n := 0x50010000 / 128, data := 7, dirty := 1, stamp := 9 }
      (s.plot 0).cache.find? (fun y => y.n == x.n) = some x ∧ x.dirty ≠ 0 ∧ (s.frame (x.n * 128 / 65536)).zero = true ∧
      s.wbOk 0 (x.n * 128) = true ∧ s.memWf = true ∧ (∀ i ∈ List.range 128, s.qcbAt (x.n * 128 + i) = none ∧ s.acbRoByte (x.n * 128 + i) = none)) := by decide +kernel

/-- Commands of a script: a ZERO of row 0 and of 128 rows; a WLOAD of INT8 from registers; an INT8 MMA with ACCUM. -/
def cmd1 (raw : Nat) (started : Bool) : MxCmd :=
  { id := 0, cid := 0, slot := 0, crew := 0, op := 0, pc := 0x10000, key := K.t.key, dep := 1, block := 0x20000, raw := BitVec.ofNat 512 raw
    opnd := 0, pitch := 0, mode := 0, rows := [], preds := [], started := started, entry := none, seen := [] }

def zeroCmd (m : Nat) : Nat := 2 + m * 2 ^ 80
def wloadCmd : Nat := 8 * 2 ^ 16
def mmaCmd : Nat := 1 + 16 + 8 * 2 ^ 16 + 2 ^ 80

def scripted (k : MxCmd) (s : State) : State := s.onPlot 0 (fun q => { q with script := [k] })

theorem wit_MatrixEvents : (∀ raw ∈ [zeroCmd 1, zeroCmd 128, wloadCmd], ∀ st ∈ [true, false],
      let k := cmd1 raw st
      let s := world counted id (scripted k)
      (s.plot 0).script[0]? = some k ∧ look s.casts k.cid = some (cast0 counted id) ∧
      (∀ j ∈ (s.plot 0).script, ¬(j.id < k.id)) ∧ s.arrayFree 0 k = true ∧ s.mxwBefore (cast0 counted id) k = false ∧
      ¬(k.b.kind < 2 ∧ k.b.asrc = 2) ∧ (s.plot 0).cmdHeld k = false ∧ (k.b.kind = if raw = wloadCmd then 0 else 2) ∧ k.b.fuse = 0 ∧ k.b.asrc = 0 ∧
      (raw = zeroCmd 128 ∨ (match runCmd s (cast0 counted id) k with
        | .ok r => (match cmdWord r.1 (cast0 counted id) k with | .ok _ => true | .error _ => false)
        | .error _ => false) = true)) ∧
    (let k := cmd1 mmaCmd true
     mxClass k.b.fmt = some 1 ∧ k.b.fuse = 0 ∧ k.b.accum = 1) := by decide +kernel

/-- A ZERO with a completion word at the data page. -/
theorem wit_MatrixEvents_word : (let k := cmd1 (zeroCmd 1 + 0x20000 * 2 ^ 192 + 7 * 2 ^ 256) true
      let s := world counted id (scripted k)
      k.b.cwaddr ≠ 0 ∧ (match resolve s (cast0 counted id) 0 (classify s.devnum (BitVec.ofNat 64 k.b.cwaddr)) .write .home .mx with
        | .ok (_, l, _) => !l.isScr
        | .error _ => false) = true) := by decide +kernel

/-! #### Scenes, graphs and contexts -/

/-- A queue's control block, its submission ring and its completion ring in home memory: the word at 16, TAIL, and the first descriptor. -/
def queued (q w tail d : Nat) (s : State) : State :=
  { s with mem := Memory.write (Memory.write (Memory.write (Memory.write s.mem (0x40010000 + 64 * q) 8 0x50010000) (0x40010010 + 64 * q) 4 w)
      (0x40010020 + 64 * q) 4 tail) 0x50010000 128 d }

/-- EN, CQLOG 2, SQLOG 0; and SQLOG 17, which stops the queue. -/
def goodWord : Nat := 0x10200
def badWord : Nat := 0x10211

theorem wit_SceneEvents_accept : (∀ d ∈ [0, bootDesc.toNat], (look (world id id (queued 1 goodWord 1 d)).allots 1).any (fun a => a.rrQ == 1) = true ∧
      (world id id (queued 1 goodWord 1 d)).queueWork 1 1 = true ∧ (world id id (queued 1 goodWord 1 d)).qcbBad 1 1 = false ∧
      (match refusal (world id id (queued 1 goodWord 1 d)) 1 (BitVec.ofNat 1024 d) with
        | some r => (look r.1.allots 1).isSome
        | none => false) = true) ∧
    (let w := world id id (fun s => { s with mem := Memory.write s.mem 0x40008010 8 (bootLeaf 0x5001 + 2 ^ 13) })
     (refusal w 1 (bootDesc ||| (0x20000#1024 <<< 768))).isNone = true) ∧
    (world id id (queued 63 badWord 1 0)).queueWork 1 63 = true ∧ (world id id (queued 63 badWord 1 0)).qcbBad 1 63 = true ∧
    (∀ r ∈ List.range 63, (world id id (queued 63 badWord 1 0)).queueWork 1 r = false) := by decide +kernel

/-- A scene with a cast to place, on the allotment's one plot, and on the second of two where the first has no bank left; COHORT. -/
def placing (d : BitVec 1024) (full : Bool) (s : State) : State :=
  { s with
    casts := []
    scenes := [(0, { bootScene with nextC := 0, desc := d })]
    allots := [(1, { bootAllot with plots := if full then [0, 1] else [0] })]
    plots := if full then [(0, { roles := Vector.replicate 8 1 }), (1, {})] else [(0, {})] }

def cohortDesc : BitVec 1024 := bootDesc ||| (1#1024 <<< 248)

theorem wit_SceneEvents_place : (∀ co ∈ [false, true], ∀ full ∈ [false, true],
      (world id id (placing (if co then cohortDesc else bootDesc) full)).scenes = [(0, { bootScene with nextC := 0, desc := if co then cohortDesc else bootDesc })] ∧
      (world id id (placing (if co then cohortDesc else bootDesc) full)).sceneReady { bootScene with nextC := 0, desc := if co then cohortDesc else bootDesc } = true ∧
      (world id id (placing (if co then cohortDesc else bootDesc) full)).canTake full.toNat 0 (if co then cohortDesc else bootDesc) = true) ∧
    ((world id id (placing bootDesc true)).plotsOf 1)[1]? = some 1 ∧ ((world id id (placing bootDesc false)).plotsOf 1)[0]? = some 0 ∧
    (world id id (placing bootDesc true)).canTake 0 0 bootDesc = false ∧ descCohort bootDesc = false ∧ descCohort cohortDesc = true := by
  decide +kernel

/-- A scene whose cast has ended; settled, without and with a signal word; a ring of 4 slots that is all but full. -/
def ending (ph : ScenePhase) (d : BitVec 1024) (head : Nat) (s : State) : State :=
  { queued 0 goodWord 1 0 s with
    mem := Memory.write (Memory.write (queued 0 goodWord 1 0 s).mem 0x40010028 4 head) 0x40010008 8 0x50010400
    casts := [], scenes := [(0, { bootScene with nEnd := 1, phase := ph, desc := d })] }

def signalDesc : BitVec 1024 := bootDesc ||| (0x20100#1024 <<< 512)

theorem wit_SceneEvents_end :
    (look (world id id (ending .running bootDesc 0)).scenes 0 = some { bootScene with nEnd := 1 } ∧ descDet bootDesc ≠ 2 ∧
      descCasts bootDesc ≤ 1 + ({ bootScene with nEnd := 1 } : Scene).nFail) ∧
    (∀ sg ∈ [false, true], look (world id id (ending .settled (if sg then signalDesc else bootDesc) 0)).scenes 0 =
      some { bootScene with nEnd := 1, phase := .settled, desc := if sg then signalDesc else bootDesc }) ∧
    (∀ head ∈ [0, 0xFFFFFFFD], (world id id (ending .settled bootDesc head)).qcb 1 0 16 4 / 256 % 32 = 2 ∧
      idxDiff 0 ((world id id (ending .settled bootDesc head)).qcb 1 0 40 4) + 1 ≤ 2 ^ 2 ∧
      ((world id id (ending .settled bootDesc head)).queue 1 0).err = false) ∧
    ((world id id (ending .settled bootDesc 0)).queue 1 0).cqtail = 0 ∧ descCwaddr bootDesc = 0 ∧ descCwaddr signalDesc = 0x20100 ∧
    isGlobal 0x20100 = true ∧
    (match (world id id (ending .settled signalDesc 0)).agentPut 1 0x20100 4 0 true with | .ok _ => true | .error _ => false) = true := by
  decide +kernel

/-- A graph of one stage with a channel to itself, at the data page: the header with FCAP, and the channel with INIT. -/
def graphMem (fcap init : Nat) (m : List Host.Cell) : List Host.Cell :=
  let m := Memory.write m 0x50010000 64 (0x52444731 + 2 ^ 32 + 2 ^ 64 + 2 ^ 96 + 0x20040 * 2 ^ 128 + 0x20080 * 2 ^ 192 + 0x20100 * 2 ^ 256 + fcap * 2 ^ 320)
  let m := Memory.write m 0x50010040 8 0x20200
  let m := Memory.write m 0x50010080 48 (2 ^ 32 + 2 ^ 64 + init * 2 ^ 96 + 0x20400 * 2 ^ 128 + 2 * 2 ^ 192 + 4 * 2 ^ 224)
  Memory.write m 0x50010200 128 bootDesc.toNat

def graph1 (st : GState) : Graph :=
  { addr := 0x20000, st := st, ctab := 0x20080, stages := [{ desc := bootDesc, aff := 0, pin := false, q := 1, pinned := none }]
    chans := [{ src := 0, dst := 0, p := 1, c := 1, init := 1, rsz := 4, buf := 0x20400, cap := 2, req := 1, claimed := 0, made := 1, used := true }]
    table := [(0, 1)], ctxQ := 0 }

def graphed (g : Graph) (fcap init : Nat) (s : State) : State :=
  { s with mem := graphMem fcap init s.mem, allots := [(1, { bootAllot with graphs := [g] })] }

/-- How the balance engine ends: 0 done, 1 a failure without a detail, 2 at a channel, 3 at a stage, 4 a stall. -/
def boundKind : Bound → Nat
  | .done _ _ _ => 0
  | .bad _ .none => 1
  | .bad _ (.chan _) => 2
  | .bad _ (.stage _) => 3
  | .dead _ _ _ => 4

theorem wit_GraphEvents_binding : (world id id (graphed (graph1 .binding) 1 1)).migrating 1 = false ∧
    ((world id id (graphed (graph1 .binding) 1 1)).graph? 1 0).any (fun x => x.st == .binding) = true ∧
    (∀ e ∈ [(1, 1, 0), (0, 1, 1), (1, 2 ^ 31, 2), (1, 0, 4)],
      boundKind (balance ((world id id (graphed (graph1 .binding) e.1 e.2.1)).gstatus 1 0x20000 0) 1 0x20000 none).2 = e.2.2) ∧
    boundKind (balance (({ world id id (graphed (graph1 .binding) 1 1) with
      mem := Memory.write (graphMem 1 1 W.mem) 0x50010200 64 0 } : State).gstatus 1 0x20000 0) 1 0x20000 none).2 = 3 := by decide +kernel

/-- The same in an allotment whose tables map nothing. -/
def unmapped (g : Graph) (s : State) : State := { s with allots := [(1, { bootAllot with acb := 0, graphs := [g] })] }

theorem wit_GraphEvents_firing : ((world id id (graphed (graph1 .running) 1 1)).graph? 1 0 = some (graph1 .running) ∧
      (world id id (graphed (graph1 .running) 1 1)).mayFire 1 (graph1 .running) = true ∧ ordinal (graph1 .running).table 0 [] = some (0, 0) ∧
      ((graph1 .running).stages[0]?).isSome = true ∧
      (((world id id (unmapped (graph1 .running))).startFiring 1 0 (graph1 .running) 0 0 0 0 true).graph? 1 0).isSome = true) ∧
    (let x := { graph1 .stopping with stopAt := some 0 }
     (world id id (graphed x 1 1)).graph? 1 0 = some x ∧ x.drained = true ∧ (world id id (graphed x 1 1)).migrating 1 = false ∧ (world id id (graphed x 1 1)).ctxOpen 1 0 = true ∧
       x.eosOrder[0]? = some 0) ∧
    (let x := { graph1 .running with failed := some 7 }
     (world id id (graphed x 1 1)).graph? 1 0 = some x ∧ x.runs = true ∧ (∀ f ∈ x.firings, f.ended = true)) := by decide +kernel

/-- A rebinding whose run had no end, one with a period to go, and one that has reached it; done, and failed. -/
theorem wit_GraphEvents_rebinding : (∀ t ∈ [none, some 1, some 0], ∀ fcap ∈ [0, 1],
      let x := { graph1 .rebinding with stopAt := some 0, target := t }
      let s := world id id (graphed x fcap 1)
      s.graph? 1 0 = some x ∧ x.failed = none ∧ x.drained = true ∧ s.migrating 1 = false ∧
      boundKind (balance (s.gstatus 1 0x20000 0) 1 0x20000 (some x)).2 = 1 - fcap) := by decide +kernel

/-- The loaded machine with queue `q` of its allotment in a state, and the die's counter. -/
def atQueue (q : Fin 64) (x : QState) (saved : List Saved) (clk : Nat) (s : State) : State :=
  { s with allots := [(1, { bootAllot with queues := bootAllot.queues.set q x, saved := saved })], dieClk := BitVec.ofNat 64 clk }

/-- A context whose slice of 1 ends at 1,024, with SAVEA, and a scene of priority 1 that finds no room, or none. -/
def sliced (drain : Nat) (press : Bool) (s : State) : State :=
  { atQueue 0 { ctxst := 1 } [] 1024 s with
    mem := Memory.write s.mem 0x40010030 8 0x50010000
    scenes := (0, { bootScene with slice := 1, drain := drain }) ::
      (if press then [(1, { bootScene with qn := 1, nextC := 0, prio := 1 })] else []) }

theorem wit_ContextEvents_slice : (∀ drain ∈ [0, 1], ∀ press ∈ [false, true],
      (world id id (sliced drain press)).topScene 1 0 = some { bootScene with slice := 1, drain := drain } ∧
      ((world id id (sliced drain press)).queue 1 0).ctxst = 1 ∧ ((world id id (sliced drain press)).queue 1 0).draining = none ∧
      ((world id id (sliced drain press)).queue 1 0).saving = false ∧
      ((world id id (sliced drain press)).queue 1 0).since + 1024 * 1 ≤ (world id id (sliced drain press)).dieClk.toNat ∧
      (world id id (sliced drain press)).savea 1 0 ≠ 0 ∧ (world id id (sliced drain press)).pressed 1 0 0 = press ∧
      (world id id (sliced drain press)).betterVictim 1 0 0 = false) := by decide +kernel

def savedCast0 : SavedCast :=
  { cid := 0, cast := K.c, ioff := 96, isize := 1152, cells := [], begun := [], copies := [], cmds := [], mxws := [], held := [], weights := none }

def saved0 (nvme : Option (List Byte × Nat)) : Saved := { qn := 0, casts := [savedCast0], turns := [], size := 2, nvme := nvme }

theorem wit_ContextEvents_saves :
    (∀ n ∈ [1024, 1025], (let s := world id id (atQueue 0 { ctxst := 1, draining := some n, drainLim := 1024 } [] 0)
      (s.queue 1 0).saving = false ∧ (s.queue 1 0).draining = some n ∧ (s.queue 1 0).drainLim ≤ n ∧ s.placed 1 0 ≠ [] ∧ ({ s with casts := [] } : State).placed 1 0 = [])) ∧
    (let s := world id id (fun s => { atQueue 0 { ctxst := 2 } [saved0 none] 0 s with casts := [], plots := [(0, {})] })
     (look s.allots 1).any (fun a => a.saved == [saved0 none]) = true ∧ (s.queue 1 0).ctxst = 2 ∧ s.canRestore [savedCast0] = true ∧ s.recFull = false ∧
       (s.queue 1 0).saving = false) ∧
    (let s := world id id (atQueue 63 { ctxst := 3, recalled := true } [{ saved0 (some ([1, 2], W.slotKey 1)) with qn := 63 }] 0)
     s.slotKey 1 = W.slotKey 1 ∧ (look s.allots 1).any (fun a => a.saved == [{ saved0 (some ([1, 2], W.slotKey 1)) with qn := 63 }]) = true ∧ (s.queue 1 63).ctxst = 3 ∧
       (s.queue 1 63).recalled = true) ∧
    ((world id id (atQueue 0 { ctxst := 1, saving := true } [] 0)).queue 1 0).saving = true := by decide +kernel

/-! #### Fault records, answers, errors -/

/-- A record for the system ring alone, and one for both rings; the ring of one entry. -/
def record1 (both : Bool) : FaultRec := { threadRec W K.c 0 none .trap 0 5 0 .none with both := both }

theorem wit_FaultEvents : (∀ both ∈ [false, true], ({ W with faultQ := [record1 both] } : State).faultQ = record1 both :: [] ∧
      (record1 both).both = both ∧ (record1 both).al = 1) ∧
    idxDiff W.win.sfrtail.toNat W.win.sfrhead.toNat < 2 ^ W.win.sfrlog.toNat ∧
    idxDiff bootAllot.frtail.toNat (({ W with faultQ := [record1 true] } : State).dpRead (bootAllot.acbA + 0x50) 4 1) < 2 ^ bitsN bootAllot.acb (8 * 0x48) 5 ∧
    (let x : Resolv := { seq := 9, al := 1, plot := 0, vpn := 2, cid := 0 }
     ∀ y ∈ ({ W with resolv := [x] } : State).resolv, y = x ∧ y.seq ≠ 8) := by decide +kernel

/-- A dirty and a clean line of the plot's cache; a cast; fifteen and no earlier errors of a macro; the last island. -/
theorem wit_ErrorEvents : (∃ x ∈ ((world id id promoting).plot 0).cache, x.n = 0x50010000 / 128 ∧ x.dirty ≠ 0) ∧
    (∃ x ∈ ((world id id (fun s => s.onPlot 0 (fun q => { q with cache := [{ n := 5, data := 0, dirty := 0, stamp := 0 }] }))).plot 0).cache,
      x.n = 5 ∧ x.dirty = 0) ∧ look W.casts 0 = some K.c ∧ 511 < 512 ∧ W.mg.repairs.length < 16382 ∧
    W.recFull = false ∧
    (∀ n ∈ [14, 15], ((List.replicate n (2 * 7, 0)).filter (fun e => decide (e.1 = 2 * 7 ∧ W.mg.usec.toNat < e.2 + 86400000000))).length + 1 = n + 1) := by
  decide +kernel

/-! #### The memory-system window -/

def entered (f : Nat) (e : FrameEnt) (s : State) : State := { s with frames := put s.frames f e }

/-- A frame in each state; a frame that is none; BUSY; a scrub; key slots of either kind. -/
theorem wit_WindowCommands : W.windowUp = true ∧ W.win.fbusy = false ∧ W.win.kbusy = false ∧ W.win.xbusy = false ∧
    frameOk 0x6000 = true ∧ frameOk 0x800000 = false ∧
    (W.frame 0x6000).st = 0 ∧ (0 : BitVec 12) ≠ 0xFFF ∧ (∀ st ∈ [1, 2, 3], ((world id id (entered 0x6000
      { owner := 1, st := BitVec.ofNat 2 st, key := 2, zero := false })).frame 0x6000).st = BitVec.ofNat 2 st) ∧
    ({ W with win := { W.win with fbusy := true, scrub := some 0x5001 } } : State).windowUp = true ∧
    (∀ x ∈ W.frames, x.2.key ≠ 3) ∧ (∃ x ∈ W.frames, x.2.key = 2) ∧
    ({ W with win := { W.win with xbusy := true, xinv := some (1, some 2) } } : State).win.xinv = some (1, some 2) ∧
    W.win.mbusy = false ∧ ({ W with win := { W.win with mbusy := true } } : State).win.mbusy = true ∧
    W.win.mcBusy = false ∧ ({ W with win := { W.win with mcBusy := true } } : State).win.mcBusy = true := by decide +kernel

/-- A migration of the data page to a frame of the allotment in the LPDDR tier; to one that it does not own; and one in progress. -/
def migrating (st : Nat) (s : State) : State :=
  { entered 0x2000006 { owner := 1, st := BitVec.ofNat 2 st, key := 2, zero := false } s with win := { s.win with migvpn := 2, migal := 1 } }

theorem wit_WindowCommands_migration :
    (match (world id id (migrating 2)).migCheck 1 (2 * 65536) 0x2000006 with | .ok _ => true | .error _ => false) = true ∧
    (match (world id id (migrating 0)).migCheck 1 (2 * 65536) 0x2000006 with | .ok _ => false | .error _ => true) = true ∧
    (world id id (migrating 2)).windowUp = true ∧ (world id id (migrating 2)).win.mbusy = false ∧
    (let s := { world id id (migrating 2) with win := { W.win with mbusy := true, migvpn := 2, migal := 1, migdst := 0x2000006, migEa := 0x40008010 } }
     s.win.mbusy = true ∧ s.win.fbusy = false ∧ s.recFull = false ∧ s.badIn 0x5001 = []) ∧
    (0x5001 : Nat) ≠ 0x2000006 ∧ ((world id id (migrating 2)).frame 0x5001).zero = false ∧ (W.frame 0x2000006).zero = true ∧
    Memory.wf W.mem = true ∧ ({ W with errLines := [0x50010000 / 128] } : State).badIn 0x5001 = [0x50010000 / 128] := by decide +kernel

/-- The die full of records: a lost line waits for room. -/
theorem wit_ErrorEvents_full : (fullDie W).recFull = true := by
  show decide (256 ≤ (List.replicate 256 _).length) = true
  rw [List.length_replicate]
  rfl

/-- A control block in home memory, beside allotments. -/
def blocked (v : BitVec 1024) (l : List (Nat × Allot)) (s : State) : State :=
  { s with mem := Memory.write s.mem 0x40018000 128 v.toNat, allots := l, scenes := [] }

def idleQueues : Allot := { bootAllot with queues := Vector.replicate 64 {} }

/-- A repair of a core in progress. -/
def repairing (k : Nat) : State := { W with win := { W.win with crep := some k } }

theorem wit_AllotmentCommands : (world id id (blocked bootAcb [])).windowUp = true ∧ (world id id (blocked bootAcb [])).win.abusy = false ∧
    (world id id (blocked bootAcb [])).readAcb 0x40018020 = none ∧ (world id id (blocked bootAcb [])).readAcb 0x40018000 = some bootAcb ∧
    acbOwner bootAcb = 1 ∧ (world id id (blocked bootAcb [])).plotMap bootAcb = [0] ∧
    (world id id (blocked bootAcb [])).mapOk [0] = true ∧ (world id id (blocked bootAcb [])).sharesOk 1 bootAcb = true ∧
    (world id id (blocked bootAcb [(2, bootAllot)])).mapOk [0] = false ∧
    (∀ d ∈ [0, 1], (world id id (blocked (bootAcb + BitVec.ofNat 1024 (256 * 2 ^ 32)) [(2, { bootAllot with plots := [7], acb := bootAcb + BitVec.ofNat 1024 (d * 2 ^ 32) })])).sharesOk 1
      (bootAcb + BitVec.ofNat 1024 (256 * 2 ^ 32)) = (d == 0)) ∧
    ((bootAcb + 1#1024 <<< 16) &&& ~~~acbMutable) ≠ (bootAcb &&& ~~~acbMutable) ∧
    ((world id id (blocked bootAcb [(1, bootAllot)])).queue 1 0).ctxst ≠ 0 ∧
    (∀ q ∈ List.range 64, ((world id id (blocked bootAcb [(1, idleQueues)])).queue 1 q).ctxst = 0) ∧
    (world id id (blocked bootAcb [(1, idleQueues)])).scenes = [] ∧ W.win.crep = none ∧ 384 ≤ (384#9).toNat ∧
    0 < W.mg.spares.toList.getD ((383#9).toNat / 96) 0 ∧
    ({ W with mg := { W.mg with spares := Vector.replicate 4 0 } } : State).mg.spares.toList.getD ((383#9).toNat / 96) 0 = 0 := by decide +kernel

theorem wit_AllotmentCommands_repair : (∀ k ∈ [5, 383], (repairing k).win.crep = some k ∧ k < 384 ∧ (repairing k).repairCasts = []) ∧
    (5#9).toNat = 5 ∧ (6#9).toNat ≠ 5 ∧ W.windowUp = true ∧ W.win.abusy = false := by decide +kernel

/-! #### The host link, the fabric, the management island -/

def pair1 (w : List RdmaReq) : QPair := { al := 1, rkey := 0x1234, mtu := 1024, port := 1, prio := 3, err := false, wait := w }

def linked (s : State) : State := { s with ethOpen := true, qps := [(3, pair1 [])] }

theorem wit_HostLink : (world id id linked).ethOpen = true ∧ look (world id id linked).qps 3 = some (pair1 []) ∧
    (0x1235 : BitVec 32) ≠ 0x1234 ∧ (0x2007F#64).toNat < 2 ^ 48 ∧ (0x20078#64).toNat % 8 = 0 ∧ (0x2007F#64).toNat % 128 + 1 ≤ 128 ∧
    (match agentAccess (world id id linked) 1 0x2007F .write with | .ok _ => true | .error _ => false) = true ∧
    (match agentAccess (world id id linked) 1 0x20078 .read with | .ok _ => true | .error _ => false) = true ∧
    (match agentAccess (world id id linked) 1 0x30000 .read with | .error (.xlate _ _) => true | _ => false) = true ∧
    W.windowUp = true ∧ W.mg.stage = 6 ∧ W.ethOpen = false ∧ (1 : Nat) < 2 := by decide +kernel

/-- A request that waits, a page under migration, a paused priority, and a queue pair that may be created. -/
theorem wit_HostLink_waits : (pair1 [{ rk := 0x1234, va := 0x20000, op := .read 8 }]).wait ≠ [] ∧
    (let s := world id id (fun s => { linked s with mem := Memory.write s.mem 0x40008010 8 (bootLeaf 0x5001 + 2 ^ 13) })
     (match agentAccess s 1 0x20078 .read with | .error (.migrating _) => true | _ => false) = true ∧ look s.qps 3 = some (pair1 [])) ∧
    ((pair1 []).port, (pair1 []).prio) ∈ ({ W with pfc := [(1, 3)] } : State).pfc ∧ ((pair1 []).port, (pair1 []).prio) ∉ W.pfc ∧
    look W.qps 16383 = none ∧ W.qps.length < 16384 ∧ (pair1 []).mtu ∈ [1024, 2048, 4096] ∧ (look W.allots (pair1 []).al).isSome = true := by
  decide +kernel

/-- An allotment with a peer entry for allotment 9 of device 5. -/
def peered (s : State) : State :=
  { s with
    allots := [(1, { bootAllot with acb := bootAcb + BitVec.ofNat 1024 (0x50010000 * 2 ^ 384 + 2 ^ 448 - 0x40013000 * 2 ^ 384) })]
    mem := Memory.write s.mem 0x50010000 8 (5 + 2048 + 9 * 65536) }

def remoteOp (req : Nat) (op : FabricOp) : FabricRequest := { src := 5, peer := 1, reqa := BitVec.ofNat 12 req, addr := 0x20040, op := op }

/-- A message of an accepted flit, and a route of the requests' source by port 127. -/
def received (r : FabricRequest) (s : State) : State :=
  { peered s with rx := [(r.src, r.peer, r.reqa)], routes := [(5, 1#128 <<< 127)] }

theorem wit_FabricEvents : (∀ e ∈ [(9, true), (8, false)],
      (({ received (remoteOp e.1 (.load 4)) W with rx := [] } : State).accepts (remoteOp e.1 (.load 4)) = e.2 ∧
      ((5#11), (1#12), BitVec.ofNat 12 e.1) ∈ (received (remoteOp e.1 (.load 4)) W).rx ∧
      ((received (remoteOp e.1 (.load 4)) W).routePort 5 (0x20040 / 128)).isSome = true)) ∧
    (match classify W.devnum 0x20040 with | .glob va => va == 0x20040 | _ => false) = true ∧
    (match agentAccess (world id id peered) 1 0x20040 .read, agentAccess (world id id peered) 1 0x20040 .write with
      | .ok _, .ok _ => true
      | _, _ => false) = true ∧ W.windowUp = true ∧ W.rx = [] ∧
    (match agentAccess (world id id peered) 1 0x30000 .read with | .error (.xlate _ _) => true | _ => false) = true ∧
    (match agentAccess (world id id (fun s => peered { s with mem := Memory.write s.mem 0x40008010 8 (bootLeaf 0x5001 + 2 ^ 13) })) 1 0x20040 .read with
      | .error (.migrating _) => true
      | _ => false) = true := by decide +kernel

/-- A port that carries flits, one that retrains with a message that waits, lanes with a spare and without, and an arbiter. -/
def packet1 : Packet := { dest := 5, peer := 1, reqa := 2, line := 0, msg := .ack }

theorem wit_FabricEvents_links : W.portUp 127 = true ∧ (W.port 127).retrain = false ∧ (W.port 127).lseq = 0 ∧ (W.port 127).laneUp true = true ∧
    ((0 : BitVec 2048).extractLsb' 48 12) = (W.port 127).lseq ∧ ((1#2048 <<< 48).extractLsb' 48 12) ≠ (W.port 127).lseq ∧
    0 < W.spareLanes.toList.getD (127 / 16) 0 ∧
    ({ W with spareLanes := Vector.replicate 8 0 } : State).spareLanes.toList.getD (127 / 16) 0 = 0 ∧
    (let s := { W with routes := [(5, 1#128 <<< 3)], ports := [(3, { retrain := true, wait := [packet1] })] }
     (s.port 3).retrain = true ∧ s.routePort packet1.dest.toNat packet1.line = some 3 ∧ (s.port 3).wait = [packet1] ∧
       ((s.setPort 3 { s.port 3 with retrain := false, wait := [] }).routePort packet1.dest.toNat packet1.line).isSome = true) ∧
    ({ W with routes := [(5, 1#128 <<< 3)] } : State).routePort packet1.dest.toNat packet1.line = some 3 ∧ W.pend = [] ∧
    peerOf (world id id peered) 1 5 = some 9 ∧ peerOf W 1 5 = none ∧ W.routePort 5 (0x20040 / 128) = none ∧
    ({ W with oracle := [1] } : State).oracle.head? = some 1 ∧ W.oracle.head? ≠ some 1 ∧
    ({ W with pend := [(0, some 1, 9)] } : State).allots = [(1, bootAllot)] ∧ 1 < 4096 ∧ W.serves 0 = true ∧
    ({ W with ports := [(0, { lane0 := false, lane1 := false })] } : State).serves 0 = false ∧
    acbFcap bootAcb ≤ 256 ∧ acbMcap bootAcb ≤ 256 := by decide +kernel

theorem wit_ManagementRequests : W.oracle = [] ∧ W.windowUp = true ∧ (511#16).toNat < 512 ∧ 512 ≤ (512#16).toNat ∧ W.islandBusy 0 = true ∧
    W.islandBusy 383 = false ∧ W.mg.down = false ∧ 5 < (6#8).toNat ∧ 400 ≤ (400#16).toNat ∧ (2200#16).toNat ≤ 2200 ∧ 2200 < (2201#16).toNat ∧
    W.mg.events = [] ∧ (2097104#32).toNat + 48 ≤ 2097152 ∧ 2097152 < (2097105#32).toNat + 48 ∧
    (List.replicate 40 (0 : BitVec 8)).length = 40 ∧ (16777176#32).toNat + 40 ≤ 2 ^ 24 ∧ W.mg.running = some false ∧ (W.mg.slot false).st = 3 ∧ W.mg.layer = some {} ∧ W.win.mcBusy = false ∧
    ({ W with win := { W.win with mcBusy := true, mcOp := 9 } } : State).win.mcBusy = true ∧ ({ W.mg with running := none } : Mgmt).running = none ∧
    ({ W.mg with layer := none } : Mgmt).layer = none ∧ ({ W with oracle := [1, 2] } : State).oracle = (0 + 1) :: [2] ∧
    (let m := W.mg.onSlot false (fun _ => { st := 2, img := [(8, 1)] })
     m.running = some false ∧ m.fuses < max m.fuses (m.slot false).svn ∧ (m.slot false).st ≠ 3) ∧
    (({ W with mg := W.mg.onSlot false (fun x => { x with st := 2 }) } : State).mg.slot false).st ≠ 3 ∧ W.mg.report.length ≤ (0#32).toNat ∧
    (0#32).toNat < ({ W with mg := { W.mg with report := [7] } } : State).mg.report.length ∧
    (∀ e ∈ [({ seq := 4, bootn := 1, usec := 0, cls := 1, code := 1, isl := 0, data := 0 } : EventEnt)], e.seq = 4) := by decide +kernel

theorem wit_PackageEvents : 511 < 512 ∧ W.mg.down = false ∧ W.mg.stage ≠ 0 ∧ (919#16).toInt < 920 ∧ 920 ≤ (920#16).toInt ∧ 840 ≤ (840#16).toInt ∧
    (799#16).toInt < 800 ∧ 800 ≤ (800#16).toInt ∧ (({ W with mg := { W.mg with isl := [(3, { cool := 9 })] } } : State).island 3).cool = 9 ∧
    W.mg.saveA.gen ≤ W.mg.saveB.gen ∧ W.mg.saveB.gen < ({ W.mg with saveA := { gen := 1 } } : Mgmt).saveA.gen ∧
    ({ W.mg with stage := 0 } : Mgmt).stage = 0 ∧ W.oracle = [] ∧ W.mg.readMap = some [] ∧ W.mg.repairs = [] ∧ W.mg.cfgOk = true ∧
    ({ W.mg with cfgOk := false } : Mgmt).cfgOk = false ∧ W.mg.slotA.st = 3 ∧ W.mg.slotB.st = 0 ∧ W.mg.fuses ≤ W.mg.slotA.svn := by decide +kernel

/-! #### Steps, invariants -/

/-- The turn of the loaded thread, at an instruction, at its MEET address, and at a word that does not decode. -/
def turnOf (w : Nat) (f : Thread → Thread) : State :=
  { world id f (fun s => { s with mem := Memory.write s.mem 0x50000000 4 w }) with agenda := [.issue 0 0] }

theorem wit_StepRuns : (∀ e ∈ [(0x00000061, 0, true), (0x00000061, 0x10000, true), (0x6C000005, 0, false)],
      (let f := fun (t : Thread) => { t with meet := BitVec.ofNat 32 e.2.1 }
       let a : State := { turnOf e.1 f with agenda := [] }
       let s0 : State := { a.meetNote ⟨0, 0⟩ with cur := some ⟨0, 0⟩ }
       Fits s0 (ctx0 id f) ∧ a.issues (cast0 id f) = true ∧ (ctx0 id f).c.bad = false ∧ descDet (cast0 id f).desc ≠ 1 ∧ (ctx0 id f).t.atMeet = (e.2.1 != 0) ∧
       (ctx0 id f).t.pass = false ∧
       (match fetchInstr s0 (cast0 id f) 0x10000 with
        | .ok r => r.2 == e.1 && (match decodeNat r.2 with | .ok _ => e.2.2 | .error _ => !e.2.2)
        | .error _ => false) = true)) ∧
    ({ W with agenda := [.event .scrubComplete] } : State).agenda = .event .scrubComplete :: [] := by decide +kernel

/-- A cast with an uncorrectable error in its storage, whose thread reads the word. -/
def badStorage (c : Cast) : Cast := { c with bad := true }

theorem wit_StepRuns_bad : (let s : State := world badStorage id (fun s => { s with oracle := [1], agenda := [] })
      Fits { s.meetNote ⟨0, 0⟩ with cur := some ⟨0, 0⟩ } (ctx0 badStorage id) ∧ s.issues (cast0 badStorage id) = true ∧ (ctx0 badStorage id).c.bad = true ∧
      s.oracle = 1 :: []) := by decide +kernel

theorem wit_StepKeepsInv : W.Inv ∧ ∃ t, step { W with agenda := [.issue 0 0] } = .next t :=
  ⟨⟨by decide +kernel, by decide +kernel, by decide +kernel⟩, goes_of (o := step { W with agenda := [.issue 0 0] }) (by decide +kernel)⟩

/-! #### Where words complete -/

theorem wit_LaneWordsComplete : K.t.straight ∧ CanRun W K true [.x 4, .x 3] ∧ CanRun W K true [.x (evenReg 2), .x (oddReg 2)] ∧ CanRun W K true [] ∧
    (∀ n ∈ [0, 1, 2, 32, 65535], ((ctx0 id (regs [(4, BitVec.ofNat 32 n)])).t.getX 4).toNat = n) ∧
    CanRun (world id (regs [(4, 32)]) id) (ctx0 id (regs [(4, 32)])) true [] ∧ (ctx0 id (regs [(4, 32)])).t.straight ∧ K.t.dep.toNat < 8 ∧
    K.c.seeds = [] ∧ K.holds W = false ∧
    32 - 1 ≤ ((List.range (descSlots K.c.desc)).filter (fun i => (look K.c.threads i).isNone)).length ∧ 1 ≤ (1#6).toNat ∧ (3#6).toNat ≤ 3 := by
  refine ⟨⟨?_, ?_, ?_⟩, wit_run _ _, wit_run _ _, wit_run _ _, ?_, can (by decide +kernel) _ _, ⟨?_, ?_, ?_⟩, ?_⟩ <;>
    and_intros <;> decide +kernel

/-- A thread whose CMASK names its own lane. -/
abbrev alone (t : Thread) : Thread := { t with cmask := 1 }

theorem lone_of {s : State} {k : Ctx}
    (h1 : k.t.cmask = 1#32 <<< (k.r.t % 32) ∧ descDet k.c.desc ≠ 1 ∧ (k.t.lc[0]).getLsbD 31 = false ∧ (k.t.lc[1]).getLsbD 31 = false ∧
      (k.t.lc[2]).getLsbD 31 = false ∧ (∀ e ∈ k.c.threads, e.2.arrival = none) ∧ ∀ h ∈ (s.plot k.c.plot).oplog, h.cid ≠ k.r.c) : k.lone s := by
  obtain ⟨a, b, c, d, e, f, g⟩ := h1
  exact ⟨a, b, ⟨c, d, e⟩, fun i t hl _ => f _ (mem_of_look hl), g⟩

/-- A crew whose blocks saturate in every format. -/
def saturating (c : Cast) : Cast := { c with crews := [{ mode := 0xFFFFF }] }

theorem wit_CollectiveWordsComplete : CanRun (world id alone id) (ctx0 id alone) true ([.x 3, .x 4, .x 5, .k 1, .k 2] ++ pairDst 6) ∧
    (ctx0 id alone).lone (world id alone id) ∧ (2#2).toNat < 3 ∧ (10#4).toNat ≤ 10 ∧
    (ctx0 saturating alone).lone (world saturating alone id) ∧ (∀ n ∈ [8, 6, 4], modeDbSat (ctx0 saturating alone).crew.mode n = true) := by
  refine ⟨can (by decide +kernel) _ _, lone_of (by decide +kernel), ?_, ?_, lone_of (by decide +kernel), ?_⟩ <;> decide +kernel

/-- A ZERO command at the data page that MXC appends. -/
theorem wit_CollectiveWordsComplete_mxc : (ctx0 id alone).lone (world id alone zeroBlock) ∧
    (let s := world id alone zeroBlock
     let k := ctx0 id alone
     let t := k.gathered true s (.mxc true 1 4 5) [0x20000, 0, 0, 0] k.loneSet
     k.t.getX (pairLo 1) = 0x20000 ∧ k.t.getX (pairHi 1) = 0 ∧ (s.plot 0).script.length < 32 ∧ k.full .mx = false ∧
       (match t.ctxAt k.r with
        | some low => (match checkAcc t low.c .ctrl (k.t.getA 1) 64 0 with
          | .ok sp => (match access t 0 1 sp.va .read .plot with
            | .ok (t1, pa, z) =>
              let l := t1.readAt 0 .plot (.home pa) z 64
              let blk := blockOf (BitVec.ofNat 512 l.2)
              blockValid l.1 low.c blk 0 0 && decide (blk.nout ≤ 4096) && blk.fuse == 0 && blk.kind == 2 && goesOn (appendWrites l.1 low.c sp.va 0 0)
            | .error _ => false)
          | .error _ => false)
        | none => false) = true) :=
  ⟨lone_of (by decide +kernel), by decide +kernel⟩

theorem wit_EngineWordsComplete : K.t.straight ∧ CanRun (world id (regs [(4, 16383)]) id) (ctx0 id (regs [(4, 16383)])) true [.x 4, .x 6] ∧
    ((ctx0 id (regs [(4, 16383)])).t.getX 4).toNat < 2 ^ 14 ∧ (0#3).toNat < descAcnt K.c.desc ∧
    CanRun W K true (pairDst 1 ++ [.x (evenReg 4), .x (oddReg 4), .x 6]) ∧ K.holds W = false ∧ K.behind W (K.t.getA 1) 64 = [] ∧
    K.acquiring W = false ∧ W.migrating 1 = false := by
  refine ⟨⟨?_, ?_, ?_⟩, can (by decide +kernel) _ _, ?_, ?_, wit_run _ _, ?_⟩ <;> and_intros <;> decide +kernel

/-! #### The corners of their clauses -/

/-- Three results in flight, the first a thread's to return: what is left writes a register, or only x0 and k0. -/
theorem wit_CuePoint_rest : (let l : List Flight := [{ dst := [(.x 3, 7)] }, { dst := [(.x 0, 8)] }, { dst := [(.k 0, 1)], op := some 4, flags := 5, grp := some 2 }]
      WritesReg l ∧ ¬WritesReg (l.eraseIdx 0) ∧ WritesReg (l.eraseIdx 1) ∧ l[0]? = some { dst := [(.x 3, 7)] } ∧
      (∃ k, (world id (inFlight l .cueWait) id).ctxAt ⟨0, 0⟩ = some k ∧ (k.t.st == .cueWait && k.t.flights == l) = true) ∧
      (world id (inFlight l .cueWait) id).settleCells 0 = world id (inFlight l .cueWait) id) :=
  ⟨by decide, by decide, by decide, rfl, some_of (fun k : Ctx => k.t.st == .cueWait && k.t.flights == _) (by decide +kernel), by decide +kernel⟩

/-- Two levels that share the end of the body, 0x10010: the inner LOOP at 0x10008, of two halfwords, the outer one at 0x10000, of six. -/
theorem wit_LoopResults_4 : (let t : Thread := { K.t with ll := #v[6, 2, 0], lc := (Vector.replicate 3 0).set (1 : Fin 3) 0x80040002 }
      let u : Thread := { t with lc := ((Vector.replicate 3 0).set (0 : Fin 3) 0x80000002).set (1 : Fin 3) 0x80040002 }
      let start := lcHead 0x1000E 0x80040002 + 4
      let next : DWord := start + BitVec.ofNat 64 (2 * t.ll[(1 : Fin 3)].toNat)
      let outer := lcHead 0x1000E 0x80000002 + 4
      (0x80040002#32).getLsbD 31 = true ∧ (0x80000002#32).getLsbD 31 = true ∧ start.toNat < next.toNat ∧ (0 : Fin 3) < 1 ∧
      u.ll[(1 : Fin 3)] = t.ll[(1 : Fin 3)] ∧ next = outer + BitVec.ofNat 64 (2 * u.ll[(0 : Fin 3)].toNat) ∧ outer.toNat ≤ start.toNat ∧
      1 < bitsN (0x80040002#32) 0 16 ∧ bitsN (0x80040001#32) 0 16 ≤ 1 ∧ 1 < bitsN (0x80000002#32) 0 16 ∧ bitsN (0x80000001#32) 0 16 ≤ 1) := by
  decide +kernel

/-- Beside the thread that ends, one stalled at EMIT whose record is the next of the cast, and one above it; and a deferred thread below both. -/
def stalled (l : List SeedRec) (c : Cast) : Cast :=
  { c with seeds := l, threads := c.threads ++ [(1, { startThread 0x10040 0x20000 1 with st := .blocked .emit }),
      (2, { startThread 0x10040 0x20000 2 with st := .blocked .emit })] }

theorem wit_BecomeResults_ends : CanRun (world (stalled []) id id) (ctx0 (stalled []) id) true [] ∧ ((ctx0 (stalled []) id).t.getX 0).toNat = 0 ∧
    (∃ t, look (ctx0 (stalled []) id).c.threads 1 = some t ∧ t.st = .blocked .emit ∧ (ctx0 (stalled []) id).c.RecordLowest 0 t) ∧
    (∃ t, look (ctx0 (stalled []) id).c.threads 2 = some t ∧ t.st = .blocked .emit ∧ ¬(ctx0 (stalled []) id).c.RecordLowest 0 t) ∧
    look (ctx0 (stalled []) id).c.threads 31 = none := by
  refine ⟨can (by decide +kernel) _ _, by decide +kernel, ⟨_, rfl, rfl, by decide +kernel, by decide +kernel, by decide +kernel⟩, ⟨_, rfl, rfl, ?_⟩, rfl⟩
  rintro ⟨h, -⟩
  exact absurd (h _ (.tail _ (.head _)) (by decide)) (by decide +kernel)

/-- 64 copies of a cast of 32 slots, with all records of its seedbed free, and with none. -/
theorem wit_BecomeResults_defers : (let k := ctx0 id (regs [(4, 64)])
      CanRun (world id (regs [(4, 64)]) id) k true [] ∧ (k.t.getX 4).toNat = 64 ∧ k.t.dep.toNat ≠ 8 ∧ k.holds (world id (regs [(4, 64)]) id) = false ∧
      k.t.cellReads = [] ∧ ((List.range (descSlots k.c.desc)).filter (fun i => (look k.c.threads i).isNone)).length = 31 ∧
      (List.range (byteN k.c.desc 28 2)).filter (fun i => k.c.seeds.all (fun r => r.pos != i)) = List.range 16 ∧
      (match (world id (regs [(4, 64)]) id).choose.2.writeSeed k.c (deferral k.t 4 0 32 63) with | .ok _ => true | .error _ => false) = true) ∧
    (let fc := fun (c : Cast) => ({ c with seeds := (List.range 16).map (fun i => { seedRec 1 with pos := i }) } : Cast)
     let k := ctx0 fc (regs [(4, 2)])
     CanRun (world fc (regs [(4, 2)]) id) k true [] ∧ (k.t.getX 4).toNat = 2 ∧ k.c.seeds ≠ [] ∧
      (List.range (byteN k.c.desc 28 2)).filter (fun i => k.c.seeds.all (fun r => r.pos != i)) = []) :=
  ⟨⟨can (by decide +kernel) _ _, by and_intros <;> decide +kernel⟩, can (by decide +kernel) _ _, by and_intros <;> decide +kernel⟩

/-- A word of home memory that no device field holds, and a queue's HEAD. -/
theorem wit_LoadStoreResults_readBack : W.memWf = true ∧ 16 ≤ 16 ∧ 0x50010070 % 128 + 16 ≤ 128 ∧ (W.plot 0).hasCache = true ∧
    (∀ i ∈ List.range 16, W.roByte (0x50010070 + i) = false) ∧ 0x40010014 % 128 + 4 ≤ 128 ∧ (∀ i ∈ List.range 4, W.roByte (0x40010014 + i) = true) := by
  decide +kernel

/-- A line of the store's set, which is full: with five cache-role banks the set holds as many lines, and the store gives one of them up. -/
def fullSet (s : State) : State :=
  s.onPlot 0 (fun q => { q with cache := (List.range 64).map (fun i => { n := 0x50010000 / 128 + 256 * (i + 1), data := 0, dirty := 0, stamp := 0 }) })

theorem wit_StoreFrame_victim : (let s := world id id fullSet
      CanRun s K true (pairDst 1 ++ (dataRegs 2 4).map Dst.x) ∧ K.full .st = false ∧
      (∃ s1 sp l z, Reach s K .st (K.gAddr 1 2 0) (2 ^ (2#3).toNat) 0 .write .plot s1 sp l z ∧ (l == .home 0x50010000) = true) ∧
      (match exec (.st true 4 1 2 0) s with
        | .next t => (s.plot 0).cache.any (fun y => !(t.plot 0).cache.any (fun x => x.n == y.n))
        | _ => false) = true) :=
  ⟨can (by decide +kernel) _ _, by decide +kernel, reach_of (fun _ _ l _ => l == .home 0x50010000) (by decide +kernel) (by decide +kernel), by decide +kernel⟩

/-- NaNs of either kind, a number below an infinity, zeros of either sign, and a value twice. -/
theorem wit_FloatResults_minMax : (0x7E00 < 2 ^ (1 + fp16.eb + fp16.fb)) ∧ (fp16.read true 0x7E00).isNan = true ∧ (fp16.read true 0x7D00).isSig = true ∧
    (fp16.read true 0x3C00).isNan = false ∧ (fp16.read true 0x3C00).Below (fp16.read true 0x7C00) ∧ (fp16.read true 0xFC00).Below (fp16.read true 0x3C00) ∧
    (fp16.read false 0x8000).Below (fp16.read false 0x0000) ∧ ¬(fp16.read false 0x0000).Below (fp16.read false 0x0000) ∧ 0x8001 / 2 ^ fp16.fb % 2 ^ fp16.eb = 0 := by
  refine ⟨by decide, by decide, by decide, by decide, rfl, rfl, .inr (by decide), ?_, by decide⟩
  rintro (h | h)
  · exact absurd (h (-24) (by decide) (by decide)) (by decide)
  · exact absurd h.2.2.1 (by decide)

theorem wit_FloatResults_exact : (3 : Nat) ≠ 0 ∧ (-4 : Int) ≤ -3 ∧ (-4 : Int) + 2 ≤ -2 := by decide

/-- The bounds of EXP2's overflow row, in a mode that rounds down, one that saturates, and one that gives the infinity. -/
theorem wit_SpecialFunctionResults_overflow : 0x43000000 ≤ (0x43000000#32).toNat ∧ (0x7F7FFFFF#32).toNat < 0x7F800000 ∧
    (∃ m, (modeF32 m).rnd = 1) ∧ (∃ m, (modeF32 m).rnd = 0 ∧ (modeF32 m).sat = true) ∧ (modeF32 0).rnd = 0 ∧ (modeF32 0).sat = false :=
  ⟨by decide, by decide, ⟨1, by decide⟩, ⟨0xFFFFFFFC, by decide⟩, by decide, by decide⟩

/-- An ordered ATOM's operands; a set of one thread at one, in a cast of index 1, with no cast before it, one behind, and one ahead. -/
def second (n : Nat) (c : Cast) : Cast := { ordered c with ix := 1, steps := [(0x20000, n)] }

abbrev atAtom : Thread → Thread := arrivedAt (.atom true 6 1 4 3 0) [0x20000, 0, 7, 0]

def beforeIt (n plot : Nat) (st : CastState) (s : State) : State :=
  { s with casts := s.casts ++ [(1, { cast0 ordered id with steps := [(0x20000, n)], plot := plot, st := st })] }

theorem wit_AtomicResults_arrives : CanRun (world ordered id id) (ctx0 ordered id) true (pairDst 1 ++ [.x 4, .x (4 + 1), .x 6] ++ pairDst 3) ∧
    descDet (ctx0 ordered id).c.desc ≠ 0 ∧ (∃ sp, checkAcc (world ordered id id) (ctx0 ordered id).c .atom (K.t.getA 1) 4 3 = .ok sp ∧ (!sp.remote) = true) ∧
    (6#6) ≠ 0 ∧ (9#4) ≠ 10 ∧ (Instr.atom true 6 1 4 3 9).wf = true ∧ (Instr.atom true 6 1 4 3 10).wf = true ∧ (Instr.atomt true 6 1 3 3).wf = true :=
  ⟨can (by decide +kernel) _ _, by decide +kernel, ok_of _ (by decide +kernel), by and_intros <;> decide +kernel⟩

theorem wit_AtomicResults_performs : (let fx : FixedSet := { parts := [0], mode := 0, outl := 0, outlh := 0 }
      let s := world ordered atAtom id
      s.setWords 0 fx = [0x20000] ∧ stepWait s (ctx0 ordered atAtom).c 0x20000 = none ∧ s.stepLogged 0 0 (s.setWords 0 fx) = false ∧
      (∃ t, atomOne 0 s 0 = .ok t ∧ true = true) ∧ s.ctxAt ⟨0, 0⟩ = some (ctx0 ordered atAtom) ∧
      (∃ a, (ctx0 ordered atAtom).t.arrival = some a ∧ (a.ceil == 5) = true) ∧
      (∃ u, atomUpdate (.atom true 6 1 4 3 0) 7 0 = some u ∧ (u.1 == 3 && u.2.1 == 6) = true) ∧
      (∃ u, atomUpdate (.atom true 0 1 4 3 9) 7 0 = some u ∧ (u.2.1 == 0) = true) ∧
      (ctx0 ordered atAtom).full .ld = false ∧ (ctx0 ordered atAtom).busy s = false ∧
      (∃ r, resolve s (ctx0 ordered atAtom).c 0 (classify s.devnum 0x20000) .write .home = .ok r ∧ (r.2.1 == .home 0x50010000) = true)) :=
  ⟨by decide +kernel, by decide +kernel, by decide +kernel, ok_of _ (by decide +kernel), at_of (k := ctx0 ordered atAtom) (by decide +kernel),
    some_of (fun a : Arrival => a.ceil == 5) (by decide +kernel), some_of (fun u : BitVec 3 × BitVec 6 × Update => u.1 == 3 && u.2.1 == 6) (by decide +kernel),
    some_of (fun u : BitVec 3 × BitVec 6 × Update => u.2.1 == 0) (by decide +kernel), by decide +kernel, by decide +kernel, ok_of _ (by decide +kernel)⟩

theorem wit_AtomicResults_waits : (cast0 ordered id).ix = 0 ∧ (world (second 0) atAtom id).prevCast (cast0 (second 0) atAtom) = none ∧
    (∀ e ∈ [(0, 0, CastState.resident), (1, 0, .resident), (0, 1, .resident), (0, 0, .listWait)],
      (((world (second 0) atAtom (beforeIt e.1 e.2.1 e.2.2)).prevCast (cast0 (second 0) atAtom)).any (fun x =>
        x.1.stepsOn 0x20000 == e.1 && x.1.plot == e.2.1 && x.2 == (e.2.2 != .listWait)) = true)) ∧
    (cast0 (second 0) atAtom).stepsOn 0x20000 < 1 ∧ 0 ≤ (cast0 (second 0) atAtom).stepsOn 0x20000 := by decide +kernel

/-- The first and the last offset of each form, a device of its own and another; an address of no form. -/
theorem wit_AccessFaults_paths : 2047 < 2 ^ 11 ∧ 2 ^ 48 - 1 < 2 ^ 48 ∧ 2 ^ 28 - 1 < 2 ^ 28 ∧ 2 ^ 18 - 1 < 2 ^ 18 ∧ W.devnum.toNat = 0 ∧
    (classify W.devnum 0x20000 ≠ .bad) ∧ (classify W.devnum 0x5000000000000000 = .bad) := by decide +kernel

/-- The loaded machine with one eight-byte entry of its tables changed. -/
def entryAt (ea v : Nat) : State := world id id (fun s => { s with mem := Memory.write s.mem ea 8 v })

/-- An entry's place can be read by a walk, and holds `v`. -/
def soundAt (s : State) (ea v : Nat) : Bool :=
  populated ea && (s.frame (ea / 65536)).owner == 0 && !s.lineBad ea false && s.homeRead ea 8 == v

/-- The three entries of the data page's walk; one of level 1 and one of level 2 that are not valid; and entries of level 3 for every kind of
fault: not valid, a wrong L, a reserved bit, a tier of 2, no memory, the wrong tier, and M set. -/
theorem wit_AccessFaults_walk : acbRoot (W.acb 1) = 0x40000000 ∧ soundAt W 0x40000000 0x40004001 = true ∧ soundAt W 0x40004000 0x40008001 = true ∧
    soundAt W 0x40008010 (bootLeaf 0x5001) = true ∧ soundAt W 0x40000008 0 = true ∧ soundAt W 0x40004008 0 = true ∧ soundAt W 0x40008018 0 = true ∧
    (∀ v ∈ [bootLeaf 0x5001 - 2, bootLeaf 0x5001 + 16, bootLeaf 0x5001 + 2 ^ 44, bootLeaf 0x5001 + 2 ^ 15, bootLeaf 0x800000, bootLeaf 0x5001 + 2 ^ 14,
        bootLeaf 0x5001 + 2 ^ 13], soundAt (entryAt 0x40008010 v) 0x40008010 v = true) ∧
    bitsN (BitVec.ofNat 64 (bootLeaf 0x5001)) 14 2 = 0 ∧ populated 0x50010000 = true ∧ populated (2 ^ 39) = false ∧ 2 ^ 48 - 1 < 2 ^ 48 := by decide +kernel

/-- Table entries that name no memory and a frame that is not the system's; a block whose frame is aligned, and one whose is not; a table
entry with a reserved bit and one with L set at level 1. -/
theorem wit_AccessFaults_tables : (∀ v ∈ [2 ^ 39 + 1, 0x50010001, 0x40004003, 0x40004005, 2 ^ 44 + 0x40004001], soundAt (entryAt 0x40000000 v) 0x40000000 v = true) ∧
    populated (2 ^ 39) = false ∧ (W.frame 0x5001).owner ≠ 0 ∧
    (∀ v ∈ [bootLeaf 0x5000, bootLeaf 0x5001], soundAt (entryAt 0x40004000 v) 0x40004000 v = true) ∧ bitsN (BitVec.ofNat 64 (bootLeaf 0x5400)) 16 10 = 0 ∧
    bitsN (BitVec.ofNat 64 (bootLeaf 0x5001)) 16 10 ≠ 0 := by decide +kernel

/-- A frame of the allotment, of one of its groups that is shared, and free; a page that is not writable, one that is not executable, one of a
frame of another owner, and one that goes through with A, D and Z to change. -/
theorem wit_AccessFaults_access : tagOk W 1 1 2 true = true ∧ tagOk W 1 1 0 false = false ∧ W.tlb? 0 .plot 1 0x20000 = none ∧ W.memWf = true ∧
    0x40008010 % 8 = 0 ∧ tableFrame 0x4000 = false ∧ (W.frame 0x4000).zero = false ∧ ownOk W 1 0x40008010 true = false ∧
    (∀ i ∈ List.range 8, W.qcbAt (0x40008010 + i) = none ∧ W.acbRoByte (0x40008010 + i) = none) ∧
    (∀ v ∈ [0x50010003, 0x50010007, 0x50010407], let s := entryAt 0x40008010 v
      (match translate s 0 .plot 1 0x20000 with
        | .leaf l ea b => l == BitVec.ofNat 64 v && ea == 0x40008010 && !b && leafPa l b 0x20000 == 0x50010000
        | _ => false) = true ∧ s.lineBad 0x50010000 false = false ∧ s.slines.find? (fun x => x.n == 0x50010000 / 128) = none) ∧
    (0x50010003#64).getLsbD 2 = false ∧ (0x50010007#64).getLsbD 3 = false ∧ (0x50010407#64).getLsbD 10 = true ∧
    (match translate (entryAt 0x40008010 (bootLeaf 0x4000)) 0 .plot 1 0x20000 with | .leaf .. => true | _ => false) = true ∧
    tagOk W 1 (W.frame 0x4000).owner (W.frame 0x4000).st false = false ∧
    (match translate W 0 .plot 1 0x30000 with | .fail 1 => true | _ => false) = true ∧
    (match translate (entryAt 0x40008010 (bootLeaf 0x5001 + 2 ^ 13)) 0 .plot 1 0x20000 with | .migrating => true | _ => false) = true := by decide +kernel

/-- A WAIT of another count is blocked on a generation that no arrival has begun. -/
def otherCount (c : Cast) : Cast :=
  { c with threads := c.threads ++ [(1, { startThread 0x10040 0x20000 1 with st := .blocked (.barrier 15 0 3 true) })] }

theorem wit_BarrierResults_other : (let k := ctx0 otherCount (regs [(4, 2)])
      CanRun (world otherCount (regs [(4, 2)]) id) k true [.x 4] ∧ k.c.bars[15].cnt = 0 ∧ (k.t.getX 4).toNat = 2 ∧ (k.c.threads.map Prod.fst).Nodup ∧
      look k.c.threads 1 = some { startThread 0x10040 0x20000 1 with st := .blocked (.barrier 15 0 3 true) } ∧ k.acquiring (world otherCount (regs [(4, 2)]) id) = false ∧
      k.held (world otherCount (regs [(4, 2)]) id) = [] ∧ k.cellsOf (world otherCount (regs [(4, 2)]) id) = []) :=
  ⟨can (by decide +kernel) _ _, by and_intros <;> decide +kernel⟩

/-- A cell's read of the thread that has not returned, a cell's write of it that waits, and a fence that has kept its ceiling. -/
abbrev reading (t : Thread) : Thread := { t with flights := [{ dst := [(.x 3, 0)], src := .mxrn 0 129 }], pend := [] }

def cellLate (s : State) : State := { s.onPlot 0 (fun q => { q with mxws := [{ seq := 0, cid := 0, key := K.t.key, dep := K.t.dep, cell := 129, val := 7, after := [] }] }) with nextReq := 1 }

theorem wit_FenceResults_cells : (ctx0 id reading).t.cellReads ≠ [] ∧ (world id reading id).ctx = some (ctx0 id reading) ∧
    (∀ d : Dst, d ∉ (ctx0 id reading).t.pend) ∧ K.busy (world id id cellLate) = true ∧ K.busy W = false ∧ K.t.wceil = none ∧
    CanRun (world id id cellLate) K true [] ∧
    CanRun (world id (fun t => { t with wceil := some 1 }) lowCeiling) (ctx0 id (fun t => { t with wceil := some 1 })) true [] ∧
    ((ctx0 id (fun t => { t with wceil := some 1 })).t.wceil = some 1) :=
  ⟨by decide +kernel, ctx_of (by decide +kernel), by decide +kernel, by decide +kernel, by decide +kernel, rfl, can (by decide +kernel) _ _, can (by decide +kernel) _ _, rfl⟩

/-- A record that waits: behind a lower one, with room in the buffer and with 256 taken; one that commits; and a region on a page that the
tables do not map, and one that is under migration. -/
def filled (n : Nat) (c : Cast) : Cast := { emitting c with ebuf := List.replicate n { emitRec with key := 0, dep := 0 }, accepted := 1 }

def regionAt (va : Nat) (c : Cast) : Cast := { c with desc := (bootDesc &&& ~~~(0xFFFFFFFFFFFFFFFF#1024 <<< 384)) ||| (BitVec.ofNat 1024 va <<< 384) ||| (2#1024 <<< 448) }

def emitRec0 : EmitRec := { key := K.t.key, dep := K.t.dep, ord := 0, w0 := 0, w1 := 0, slot := 0, pc := 0x10000 }

theorem wit_EmitResults_waits : CanRun (world (filled 1) id id) (ctx0 (filled 1) id) true [.x 4, .x 5] ∧ (ctx0 (filled 1) id).c.accepted < byteN (ctx0 (filled 1) id).c.desc 56 4 ∧
    (∃ x ∈ (ctx0 (filled 1) id).c.ebuf, x.lt emitRec0 = true) ∧ (world (filled 1) id id).emitUsed 0 = 1 ∧
    CanRun (world (filled 256) id id) (ctx0 (filled 256) id) true [.x 4, .x 5] ∧ 256 ≤ (world (filled 256) id id).emitUsed 0 ∧
    (ctx0 emitting id).c.lowerLives K.t.key K.t.dep.toNat = false ∧ (ctx0 emitting id).c.ebuf = [] ∧ (world emitting id id).commitHeld 0 (ctx0 emitting id).c = false := by
  refine ⟨can (by decide +kernel) _ _, by decide +kernel, by decide +kernel, by decide +kernel, can (by decide +kernel) _ _, by decide +kernel, by decide +kernel, by decide +kernel, by decide +kernel⟩

theorem wit_EmitResults_stops : (let k := ctx0 (regionAt 0x30000) id
      let s := world (regionAt 0x30000) id id
      CanRun s k true [.x 4, .x 5] ∧ k.c.accepted < byteN k.c.desc 56 4 ∧ k.c.lowerLives k.t.key k.t.dep.toNat = false ∧ k.c.ebuf = [] ∧ s.commitHeld 0 k.c = false ∧
      (match s.commit 0 k.c emitRec0 with | .error (.xlate 1 va, x) => va == 0x30008 && x == 0x30008 | _ => false) = true ∧ (s.plot 0).logged < 64 ∧ s.faultQ.length < 256) ∧
    (let k := ctx0 emitting id
     let s := world emitting id (fun s => { s with mem := Memory.write s.mem 0x40008010 8 (bootLeaf 0x5001 + 2 ^ 13) })
     CanRun s k true [.x 4, .x 5] ∧ (match s.commit 0 k.c emitRec0 with | .error (.migrating _, _) => true | _ => false) = true) :=
  ⟨⟨can (by decide +kernel) _ _, by and_intros <;> decide +kernel⟩, can (by decide +kernel) _ _, by decide +kernel⟩

/-- The two writes of a commit go through: the record's words and the count. -/
theorem wit_EmitResults_writes :
    (match access (world emitting id id) 0 1 0x2A008 .write .plot with
      | .ok (s1, pa, _) => (match access (s1.putHome 0 .plot pa 8 0) 0 1 0x2A000 .write .plot with
        | .ok (_, pb, _) => pa == 0x5001A008 && pb == 0x5001A000
        | .error _ => false)
      | .error _ => false) = true ∧
    bitsN (BitVec.ofNat 64 (byteN (cast0 emitting id).desc 48 8 + (cast0 emitting id).ix * byteN (cast0 emitting id).desc 36 4 + 8 + 8 * 0)) 0 48 = 0x2A008 ∧
    (cast0 emitting id).committed = 0 := by decide +kernel

/-- An acquire that is not performed; a read of the same cell that has not returned, and a command that writes the tile. -/
theorem wit_CellResults_waits : CanRun (world id (regs [(5, 129)]) (waitsFor (.lds [.x 3]))) (ctx0 id (regs [(5, 129)])) true [.x 5, .x 6] ∧
    (ctx0 id (regs [(5, 129)])).acquiring (world id (regs [(5, 129)]) (waitsFor (.lds [.x 3]))) = true ∧ (ctx0 id (regs [(5, 129)])).acquiring W = false ∧
    (129 : Word).toNat % 128 * 128 + (129 : Word).toNat / 128 = 129 ∧
    (∀ w ∈ K.cellWrites (world id id cellLate), w.cell = 129) ∧ K.cellWrites (world id id cellLate) ≠ [] ∧
    ({ scripted (cmd1 (zeroCmd 1) false) W with nextReq := 1 } : State).writers 0 0 = [0] ∧ K.c.tiles.getD 0 8 = 0 ∧
    (∀ e ∈ K.c.threads, e.2.cellReads = []) :=
  ⟨can (by decide +kernel) _ _, by and_intros <;> decide +kernel⟩

/-- A reel that serves at once, one that a lower slot waits for, and one that is empty; the plot's engines hold nothing. -/
def waitsBelow (c : Cast) : Cast :=
  { withReel (reel1 1 1 []) c with threads := [(0, { startThread 0x10040 0x20000 0 with st := .blocked (.rtake false 0 4) })] ++ c.threads.map (fun e => (1, e.2)) }

theorem wit_ReelResults_serves : (let s := world (withReel (reel1 1 1 [])) id id
      let k := ctx0 (withReel (reel1 1 1 [])) id
      CanRun s k true (pairDst 4 ++ pairDst 8) ∧ k.c.reels[(0 : Fin 4)].isSome = true ∧ k.acquiring s = false ∧ (s.plot 0).copies = [] ∧ (s.plot 0).script = [] ∧
      (∀ res ∈ [true, false], ((look (s.engineFirst res 0 0).casts 0).any (fun c => c.reels[(0 : Fin 4)] == some (reel1 1 1 []))) = true) ∧
      (∀ e ∈ k.c.threads, ¬e.1 < k.r.t) ∧ k.busy s = false) ∧
    (∃ e ∈ (cast0 waitsBelow id).threads, e.1 < 1 ∧ e.2.st = .blocked (.rtake false 0 4)) :=
  ⟨⟨can (by decide +kernel) _ _, by and_intros <;> decide +kernel⟩, by decide +kernel⟩

theorem wit_WaitEvents_between : (world buffered id id).midStep (cast0 buffered id) = false ∧ (world buffered id id).readsBad (cast0 buffered id) = (0, world buffered id id) ∧
    ((world arrived id id).plot 0).mxws = [] ∧ (∀ e ∈ (cast0 arrived id).threads, e.2.cellReads = []) ∧
    (∀ m ∈ (world (withReel (reel1 1 1 [])) id id).casts, m.1 = 0) ∧ (world (withReel (reel1 1 1 [])) id id).midStep (cast0 (withReel (reel1 1 1 [])) id) = false ∧
    (∀ res ∈ [true, false], (look ((world (withReel (reel1 1 1 [])) id id).engineFirst res 0 0).casts 0) = some (cast0 (withReel (reel1 1 1 [])) id)) := by decide +kernel

theorem wit_GraphWords_busy : K.busy (world id id (graphs none 0)) = false ∧ (world id id (graphs (some .bound) 0)).migrating 1 = false ∧
    K.behind (world id id (graphs (some .bound) 0)) (K.t.getA 1) 64 = [] := by decide +kernel

/-- The storage of the cast is good; a result of x0 is in flight where a thread is to be displaced. -/
theorem wit_SeedEvents_good : (cast0 (slotsFull 32 K.t [seedRec 1]) id).bad = false ∧ WritesReg [{ dst := [(.x 3, 7)] }] ∧ ¬WritesReg [{ dst := [(.x 0, 7)] }] ∧
    1 ≤ (1#4).toNat ∧ (8#4).toNat ≤ 8 := by decide

/-- A lease that leaves out the bucket of the path, whose rate has come to be nonzero; a cast that no repair touches. -/
theorem wit_CastEvents_lease : (let fc := fun (c : Cast) => ({ c with lease := 9 } : Cast)
      let s := world fc id (bucket 1024)
      s.leaseShort (cast0 fc id) = true ∧ (cast0 fc id).st ≠ .listWait ∧
      (match (((s.payOwed 1).returnLease (cast0 fc id)).onCast 0 (fun k => { k with lease := 0, leased := [] })).balances 1 [0x20000] with
        | .ok r => r.2 == [((0x20000 : DWord), 1024)]
        | .error _ => false) = true) ∧ W.repairing K.c = false := by decide +kernel

/-- A context of the plot that is being saved, and one that is not; the thread of an ACQP that waits; an earlier copy that has begun. -/
theorem wit_PlotEvents_saving : (world id id (fun s => promoting (atQueue 0 { ctxst := 1, saving := true } [] 0 s))).plotSaving 0 1 = true ∧
    (world id id promoting).plotSaving 0 1 = false ∧ (cast0 counted id).bad = false ∧
    (let ft := fun (t : Thread) => ({ t with flights := [{ dst := [(.x 3, 0)], op := some 0, src := .held }] } : Thread)
     let s := (world id ft promoting).serveProm 0 request5
     (match s.heldCtx acquires5 with
       | some k => k.t.flights.any (fun f => f.src == .held && f.op == acquires5.op)
       | none => false) = true) ∧
    (let s := world counted id copying
     (s.plot 0).copies = (List.range 7).map (fun i => copy1 i true) ++ copy1 7 false :: [] ∧
     ((List.range 7).map (fun i => copy1 i true)).all (fun x => !(x.cid == 0 && x.op == 7) && x.begun && x.started) = true) := by decide +kernel

theorem wit_MatrixEvents_shown : (∀ raw ∈ [zeroCmd 1, zeroCmd 128, wloadCmd], (world counted id (scripted (cmd1 raw true))).behindShown (cast0 counted id) (cmd1 raw true) = false) ∧
    (cast0 counted id).bad = false := by decide +kernel

/-- MMAs of each class, with and without ACCUM; blocks of finite elements, and of one that is not finite; outliers of row 0 and of row 1. -/
theorem wit_MatrixEvents_sums : mxClass 2 = some 0 ∧ mxClass 4 = some 2 ∧ mxClass 6 = some 3 ∧ (cmd1 (1 + 4 * 2 ^ 16 + 2 ^ 80) true).b.fmt = 4 ∧
    (FpVal.inf false).isFin = false ∧ (0 : Nat) < fmtK 4 / 32 ∧
    (∀ i ∈ List.range 32, (fun _ : Nat => FpVal.fin false 3 (-4)) (32 * 0 + i) = .fin false 3 (-4)) ∧ (-512 : Int) ≤ -4 + -4 ∧
    (let k := cmd1 mmaCmd true
     let s := world counted id (fun s => (scripted k s).onPlot 0 (fun q => { q with wfmt := 8, wrows := List.replicate 128 0 }))
     k.b.kind = 1 ∧ k.b.fuse = 0 ∧ k.b.nout = 0 ∧ cmdFits (cast0 counted id) k = true ∧ mxClass (s.plot 0).wfmt.toNat = mxClass k.b.fmt) := by
  decide +kernel

/-- A scene of one cast to place on an empty plot. -/
theorem wit_SceneEvents_placed : (let s := world id id (placing bootDesc false)
      look s.scenes 0 = some { bootScene with nextC := 0 } ∧ s.canTake 0 0 bootDesc = true ∧ 0 < descStart bootDesc ∧ descStart bootDesc ≤ 31 ∧
      0 < descCrews bootDesc ∧ s.allowsPlot { bootScene with nextC := 0 } 0 = true) := by decide +kernel

/-- Two stages and a channel between them of 2 and 3 records; a third stage that nothing joins; a second channel that no counts balance. -/
def chan1 (p c init : Nat) : Chan :=
  { src := 0, dst := 1, p := p, c := c, init := init, rsz := 4, buf := 0x20400, cap := 8, req := init, claimed := 0, made := init, used := false }

theorem wit_GraphEvents_repetition : repetition 2 [chan1 2 3 0] = .ok [3, 2] ∧ repetition 3 [chan1 2 3 0] = .error (.stage 2) ∧
    repetition 2 [chan1 2 3 0, chan1 1 1 0] = .error (.chan 1) ∧ (∀ c ∈ [chan1 2 3 0, chan1 1 1 0], c.src < 2 ∧ c.dst < 2 ∧ 1 ≤ c.p ∧ 1 ≤ c.c) ∧
    limits [3, 2] = .ok () ∧ limits [65535, 65536] = .error (.stage 1) ∧ limits [65535, 2] = .error .none := by decide +kernel

theorem wit_GraphEvents_period : (let p0 : Period := { tok := [0], req := [0], left := [3, 2], table := [] }
      p0.next [chan1 2 3 0] = some 0 ∧ (0 < p0.left.getD 0 0 ∧ ∀ i c, [chan1 2 3 0][i]? = some c → c.dst = 0 → c.c ≤ p0.tok.getD i 0) ∧
      (match p0.run [chan1 2 3 0] 5 with | .ok p => p.table == [(0, 3), (1, 2)] | .error _ => false) = true ∧
      (match p0.run [{ chan1 2 3 0 with src := 1, dst := 0 }] 5 with | .ok _ => false | .error p => p.tok == [1]) = true) := by
  refine ⟨by decide +kernel, ⟨by decide, ?_⟩, by decide +kernel, by decide +kernel⟩
  rintro (_ | i) c h hd
  · cases h; cases hd
  · cases h

/-- The engine reads a graph, and one whose header is not good. -/
theorem wit_GraphEvents_read : (match readGraph (world id id (graphed (graph1 .binding) 1 1)) 1 0x20000 with
      | (_, .ok r) => r.head.nstg == 1 && r.head.nch == 1 && r.chans.length == 1
      | _ => false) = true ∧
    (match readGraph (world id id (unmapped (graph1 .binding))) 1 0x20000 with | (_, .error (_, .none)) => true | _ => false) = true := by decide +kernel

/-- A second candidate, of queue 1, whose slice has ended too; a paged-out context with casts. -/
theorem wit_ContextEvents_together : (let s := world id id (fun s => { sliced 1 true s with
        allots := [(1, { bootAllot with queues := (bootAllot.queues.set 0 { ctxst := 1 }).set 1 { ctxst := 1 } })]
        casts := s.casts ++ [(1, { cast0 id id with qn := 1, scene := 2 })]
        scenes := [(0, { bootScene with slice := 1, drain := 1 }), (2, { bootScene with qn := 1, slice := 1 })] })
      (s.topScene 1 1).any (fun y => y.slice == 1) = true ∧ (s.queue 1 1).since + 1024 * 1 ≤ s.dieClk.toNat ∧ 1 < 64) ∧
    (saved0 (some ([1, 2], 7))).casts ≠ [] := by decide +kernel

/-- A context that is being saved, whose one cast keeps nothing in progress, with a save area; and one whose copy is still in progress. -/
def areaAt (x : QState) (s : State) : State := { atQueue 0 x [] 0 s with mem := Memory.write s.mem 0x40010030 8 0x50010000 }

theorem wit_ContextEvents_save : (let s := world id id (areaAt { ctxst := 1, saving := true })
      (s.queue 1 0).saving = true ∧ K.c.al = 1 ∧ K.c.qn = 0 ∧ s.placedIds 1 0 = [0] ∧ s.draining 0 = false ∧ s.draining 0 (fun h => !s.waitsSave 1 h) = false ∧
      badArea (s.savea 1 0) = false ∧ look s.casts 0 = some K.c ∧ K.c.st ≠ .listWait ∧ (look s.allots 1).isSome = true) ∧
    (let s := world counted id (fun s => copying (areaAt { ctxst := 1, saving := true } s))
     s.draining 0 (fun h => !s.waitsSave 1 h) = true) := by decide +kernel

/-- The seventh copy waits for a reel entry, with one behind it of its own cast and one of another's. -/
theorem wit_ContextEvents_withdraw : (let s := (world counted id id).onPlot 0 (fun q => { q with copies := [copy1 0 true] ++ copy1 7 false :: [copy1 8 false, { copy1 9 false with cid := 5 }] })
      (s.plot 0).copies = [copy1 0 true] ++ copy1 7 false :: [copy1 8 false, { copy1 9 false with cid := 5 }] ∧ look s.casts 0 = some (cast0 counted id) ∧
      ((s.plot 0).copies.map (fun x => (x.cid, x.op))).Nodup ∧ 0 < (cast0 counted id).crews.length) := by decide +kernel

/-- An image that does not match, with room for its record, in front of others. -/
theorem wit_ContextEvents_image : (let s := world id id (fun s => { s with mem := Memory.write s.mem 0x50010060 8 1 })
      s.imageOk 0x50010000 { savedCast0 with isize := 128 } = false ∧ s.recFull = false) ∧
    (∃ t, look savedCast0.cast.threads 0 = some t ∧ (t.st == .ready) = true) :=
  ⟨by decide +kernel, some_of (fun t : Thread => t.st == .ready) (by decide +kernel)⟩

/-- A core under repair with the cast's plot, its casts to wait for a save or not; an answer whose cast is saved, and no longer placed. -/
theorem wit_FaultEvents_repair : (repairing 0).repairing K.c = true ∧ (repairing 0).repairWaits = false ∧ W.repairing K.c = false ∧ W.repairWaits = false ∧
    look W.casts 0 = some K.c ∧
    (let x : Resolv := { seq := 9, al := 1, plot := 0, vpn := 2, cid := 7 }
     x ∈ ({ W with resolv := [x] } : State).resolv ∧ look ({ W with resolv := [x] } : State).casts x.cid = none) := by decide +kernel

/-- A clean line of a slice, and one in the READONLY and in the instruction copies of a plot. -/
theorem wit_ErrorEvents_clean : (∃ x ∈ ({ W with slines := [{ n := 5, owner := 1, st := 2 }] } : State).slines, x.n = 5 ∧ x.dirty = false) ∧
    (let s := world id id (fun s => s.onPlot 0 (fun q => { q with roc := [{ n := 6, data := 0, dirty := 0, stamp := 0 }], ic := [{ n := 7, data := 0, dirty := 0, stamp := 0 }] }))
     (∃ x ∈ (s.plot 0).roc, x.n = 6) ∧ (∃ x ∈ (s.plot 0).ic, x.n = 7)) ∧ memIsland 0 < 512 ∧ 2 ^ 32 - 1 < 2 ^ 32 := by decide +kernel

/-- A translation that the migration engine keeps; a migration that has copied and has lines to report, one and none, with room and without. -/
theorem wit_WindowCommands_engine : ((world id id (migrating 2)).migKeep 1 (2 * 65536)).mtlb.length = 1 ∧ (world id id (migrating 2)).migCheck 1 (3 * 65536) 0x2000006 = .error 1 ∧
    (∀ l ∈ [[], [0x50010000 / 128]], let s := { world id id (migrating 2) with win := { W.win with mbusy := true, migvpn := 2, migal := 1, migdst := 0x2000006, migLeft := some l } }
      s.win.migLeft = some l ∧ s.win.mbusy = true ∧ s.recFull = false ∧ (s.migCopy 1 0x5001 0x2000006).2 = true ∧ s.win.fbusy = false) ∧
    Memory.wf W.mem = true := by
  decide +kernel

/-- A request that ends at 2^48, and ones that run past it; a pair of IPv6. -/
theorem wit_HostLink_bounds : (0xFFFFFFFFFFF8#64).toNat + 8 ≤ 2 ^ 48 ∧ 2 ^ 48 < (0xFFFFFFFFFFF8#64).toNat + 9 ∧ ((pair1 []).ip6 = false) ∧ ({ pair1 [] with ip6 := true } : QPair).ip6 = true ∧
    (pair1 []).rkey = 0x1234 ∧ 8 ≤ (pair1 []).mtu := by decide

/-- An ATOMT that arrives, and one whose page goes through; a port that does not retrain. -/
theorem wit_FabricEvents_atomt : (remoteOp 9 (.atomt 1 2)).op = .atomt 1 2 ∧
    ({ received (remoteOp 9 (.atomt 1 2)) W with rx := [] } : State).accepts (remoteOp 9 (.atomt 1 2)) = true ∧
    (let s := { W with routes := [(5, 1#128 <<< 3)] }
     s.routePort packet1.dest.toNat packet1.line = some 3 ∧ (s.port 3).retrain = false ∧ s.portUp 3 = true) ∧ 5 < 2048 := by decide +kernel

theorem wit_ManagementRequests_failed : W.mg.failed = false ∧ ({ W.mg with failed := true } : Mgmt).failed = true ∧
    ({ W with win := { W.win with mcBusy := true, mcOp := 9 } } : State).win.mcOp.toNat = 9 := by decide +kernel

theorem wit_LaneWordsComplete_cells : K.t.cellReads = [] ∧ K.busy W = false ∧ K.crewN < K.c.crews.length := by decide +kernel

/-! ### Steps and events

Each test takes one turn or one event from a small state; the expected values are worked by hand from the rules named. -/

/-- R40, R120: the state of `withFetchWord` runs the word in its next step. -/
theorem test_step_addi : (match step (State.reset.withFetchWord 32 0xFFF04309) with
    | .next s => (s.thread? ⟨0, 0⟩).any (fun t => t.getX 3 == 0xFFFFFFFF && t.pc == 0x10004 && t.retired == 1)
    | _ => false) = true := by decide +kernel

/-- R131: a word that nothing decodes raises ILL, whose record has code and class. -/
theorem test_step_ill : (match step (State.reset.withFetchWord 32 0x6C000005) with
    | .next s => s.faultQ.map (fun r => (r.code, r.cls)) == [(.ill, 0)] && s.casts.isEmpty
    | _ => false) = true := by decide +kernel

/-- An event goes on to a state that satisfies `p`. -/
def event (i : Instr) (s : State) (p : State → Bool) : Bool :=
  match exec i s with
  | .next u => p u
  | _ => false

/-- R39, R383: a cast that has ended leaves its plot and counts. -/
theorem test_event_castEnd : event (.castEnd 0) (world (fun c => { c with threads := [] }) id id) (fun u => u.casts.isEmpty && (u.plot 0).rseq == 1 &&
    (u.plot 0).rr == [] && look u.scenes 0 == some { bootScene with nEnd := 1, digests := [(0, 0)] }) = true := by decide +kernel

/-- R228, R229: a request writes back up to its cut-off and empties the log up to it. -/
theorem test_event_promotionRequest : event (.promotionRequest 0) (world id id promoting) (fun u => (u.plot 0).preqs == [] && (u.plot 0).proms == 1 &&
    (u.plot 0).log == [10] && Memory.read u.mem 0x50010000 4 == 7) = true := by decide +kernel

/-- R73: the first write-back to an all-zero frame clears the rest of it. -/
theorem test_event_allZeroWriteback : event (.allZeroWriteback 0 (0x50010000 / 128)) { world id id zeroFrame with
      mem := Memory.write (zeroFrame W).mem 0x50010100 4 0x77 } (fun u => !(u.frame 0x5001).zero && Memory.read u.mem 0x50010100 4 == 0 &&
        Memory.read u.mem 0x50010000 4 == 7) = true := by decide +kernel

/-- R371, R370: SQLOG 17 stops a queue with ERR; a good one takes the descriptor, and HEAD rises. -/
theorem test_event_sceneAccept : event (.sceneAccept 1) (world id id (queued 63 badWord 1 0)) (fun u => u.qword 1 63 == 0x30211 && (u.queue 1 63).err) = true ∧
    event (.sceneAccept 1) (world id id (queued 1 goodWord 1 bootDesc.toNat)) (fun u => u.qcb 1 1 20 4 == 1 &&
      (look u.scenes 1).any (fun x => x.reason == 0 && x.phase == .running && x.qn == 1)) = true := by decide +kernel

/-- R384: the first slot of a record: SUBN 0, STATUS 0, no failures, one cast ended; CQTAIL passes it. -/
theorem test_event_completionRecordWrite : event (.completionRecordWrite 1 0) (world id id (ending .settled bootDesc 0)) (fun u => u.scenes.isEmpty &&
    u.qcb 1 0 36 4 == 1 && Memory.read u.mem (u.qcb 1 0 8 8 + 16) 4 == 1) = true := by decide +kernel

/-- R393: a save area of two bytes goes to the namespace, and CTXST is 3. -/
theorem test_event_pageOut : event (.pageOut 1 63) (world id id (fun s => { atQueue 63 { ctxst := 2 } [{ saved0 none with qn := 63 }] 0 s with
      mem := Memory.write (Memory.write s.mem 0x40010FF0 8 0x50010000) 0x50010000 2 0x1234 })) (fun u => (u.queue 1 63).ctxst == 3 &&
    (look u.allots 1).any (fun b => b.saved.map Saved.nvme == [some ([0x34, 0x12], W.slotKey 1)])) = true := by decide +kernel

/-- R386: the record names no thread. -/
theorem test_event_wdog : event (.wdog 0) (world (fun c => { c with wdog := 1024 }) id (limited 1 [])) (fun u =>
    u.faultQ.map (fun r => (r.code, r.cls, r.slot)) == [(.wdog, 1, 0xFFFF)] && u.casts.isEmpty) = true := by decide +kernel

/-- R407: ASSIGN of a free and of an assigned frame and of no frame; FREE starts a scrub; R408: the scrub leaves the frame free. -/
theorem test_event_frames : event (.assign 0x6000 5 6) W (fun u => (u.frame 0x6000).owner == 5 && (u.frame 0x6000).st == 2 && u.win.fresult == 0) = true ∧
    event (.assign 0x5001 5 6) W (fun u => u.win.fresult == 1) = true ∧ event (.assign 0x800000 5 6) W (fun u => u.win.fresult == 2) = true ∧
    event (.free 0x5001) W (fun u => (u.frame 0x5001).st == 1 && u.win.fbusy) = true ∧
    event .scrubComplete { promoting W with win := { W.win with fbusy := true, scrub := some 0x5001 } } (fun u =>
      u.frame 0x5001 == { owner := 0xFFF, st := 0, key := 0, zero := true } && !u.win.fbusy && (u.plot 0).cache == []) = true := by decide +kernel

/-- R445: the sixteenth correction of a macro within 24 hours adds its row to the repair map. -/
theorem test_event_correctedError : (∀ n ∈ [14, 15], event (.correctedError 511 7 3) { W with mg := { W.mg with recent := List.replicate n (14, 0) } }
    (fun u => ((look u.mg.life.isl 511).getD {}).cec == 1 && u.mg.repairs.length == n - 14) = true) := by decide +kernel

/-- R438, R439: a flit that cannot be corrected is refused; a lane that goes takes a spare and retrains. -/
theorem test_event_lanes : event (.flitReceive 127 0 false) W (fun u => u.sent == [.linkRetry 127 0]) = true ∧
    event (.laneRetire 127 true) W (fun u => (u.port 127).retrain && u.spareLanes.toList.getD 7 0 == W.spareLanes.toList.getD 7 0 - 1) = true := by
  decide +kernel

/-- R395, R411, R424, R443: what the windows read at reset, and of a core that holds the loaded cast. -/
theorem test_windows : (List.range 48).map (State.reset.coreWindow 5) = (List.range 48).map (fun o =>
      if o = 8 ∨ o = 16 ∨ o = 24 ∨ o = 32 then 0xFFF * 2 ^ 28 else if o = 40 then 5 else 0) ∧
    (List.range 0x350).all (fun o => State.reset.windowRead o == if o = 0x210 then 0x8888 else 0) = true ∧
    W.coreWindow 0 0 = 0x25 ∧ W.coreWindow 0 8 = 32 + 1 * 2 ^ 10 + 1 * 2 ^ 14 + 1 * 2 ^ 22 + 1 * 2 ^ 28 := by decide +kernel

/-- R425: ACMD with OP 3 at an address that holds no control block. -/
theorem test_event_acmdReserved : event (.registerWrite .acmdReserved 1) W (fun u => u.win.aresult == 1) = true := by decide +kernel

/-- R214: a load that the device puts off leaves its destination pending and its access in the plot's list. -/
theorem test_step_late : (match step { turnOf 0x002046AD id with agenda := [.issueLate 0 0] } with
    | .next s => (s.thread? ⟨0, 0⟩).any (fun t => t.pend == [.x 6] && t.pc == 0x10004 && t.flights.map Flight.src == [.held]) &&
      (s.plot 0).oplog.map (fun h => (h.late, h.va)) == [(true, 0x20000)]
    | _ => false) = true := by decide +kernel

/-- R214: a store that was put off is performed. -/
theorem test_step_perform : (match step { world id id (withHeld true) with agenda := [.perform 0 0] } with
    | .next s => s.peek 0 (.home 0x50010000) == 9 && (s.plot 0).oplog.isEmpty
    | _ => false) = true := by decide +kernel

/-- R118: EXP2 of an integer far below the range is not exact, and one of a power of two in range is; R91: FCVT to an integer reads a subnormal as it is. -/
theorem test_flags_below : sfuExact .exp2 (-400 * (fxOne : Int)) 0 0 = false ∧ sfuExact .exp2 (-3 * (fxOne : Int)) (fxExp2 (-3 * (fxOne : Int))) (fxExp2 (-3 * (fxOne : Int))) = true ∧
    (fcvt 0x400000 12 1 1).2 = 0x10 := by decide +kernel

end Sys2Proof.Tests
end

section
/-!
PROOFS. What bring-up hands over at reset (spec/20 R456; O60).
-/

namespace Sys2Proof.Machine

open Sys2Proof

/-- The memories are empty, and there is no cast and no allotment whose regions could break the invariant. -/
theorem State.reset_inv : State.reset.Inv :=
  ⟨by decide, fun _ he => absurd he List.not_mem_nil, fun _ he => absurd he List.not_mem_nil⟩

/-- No plot, island or frame has left its reset value. -/
@[simp] theorem State.reset_plot (p : Nat) : State.reset.plot p = {} := rfl

/-- A plot that is no allotment's and holds no cast (R395). -/
@[simp] theorem State.reset_plotWindow (p : Nat) : State.reset.plotWindow p = 0xFFF * 2 ^ 28 := by
  have hc : State.reset.onPlotCasts p = [] := rfl
  have ha : State.reset.plotAllot p = none := rfl
  simp [State.plotWindow, hc, ha, bitSet]

/-- Every bank has the cache role (R66). -/
@[simp] theorem State.reset_bankRole (c : Nat) : State.reset.bankRole c = 0 := by
  simp only [State.bankRole, State.reset_plot]
  decide

theorem State.reset_frame {f : Nat} (h : tableFrame f = false) :
    State.reset.frame f = { owner := 0xFFF, st := 0, key := 0, zero := true } := by
  simp [State.frame, State.reset, h]

/-- Behind a core number stands the core of its place among the 104 of its die (R395). -/
theorem State.reset_physOf (c : Nat) : State.reset.physOf c = c + c / 96 * 8 := by
  show 104 * (c / 96) + c % 96 = _
  omega

theorem State.reset_windowRead (off : Nat) : State.reset.windowRead off = if off = 0x210 then 0x8888 else 0 := by
  unfold State.windowRead
  split
  case h_16 => simp_all [State.reset]
  all_goals rfl

theorem State.reset_coreWindow (c off : Nat) : State.reset.coreWindow c off =
    if off = 0x008 ∨ off = 0x010 ∨ off = 0x018 ∨ off = 0x020 then 0xFFF * 2 ^ 28 else if off = 0x028 then c + c / 96 * 8 else 0 := by
  unfold State.coreWindow
  split
  case h_6 => exact State.reset_physOf c
  case h_7 => simp_all
  all_goals simp

/-- Settles O60: `State.reset` lists nothing, so what is read of it is each part's reset value. -/
theorem resetState : Obligations.ResetState :=
  ⟨State.reset_inv, fun _ => ⟨rfl, rfl, rfl⟩, rfl, rfl, rfl, rfl, rfl, rfl, fun _ => State.reset_frame, State.reset_windowRead,
    fun c off _ => State.reset_coreWindow c off, rfl, rfl, rfl, rfl, fun _ => ⟨rfl, rfl, rfl⟩, rfl, rfl, fun _ => ⟨rfl, rfl, rfl, rfl⟩,
    rfl, rfl⟩

end Sys2Proof.Machine
end

section
/-!
PROOFS. The memory-system window (spec/18 R402, R407 to R414, R420, R421): frame commands and scrubs, key slots, invalidations and
plain registers, and page migration (O47). First what each operation of the window does, then the claims.
-/

namespace Sys2Proof.Machine

open Sys2Proof

/-! ### Commands and ownership entries -/

/-- A command that is not busy acts, once the window can be reached (R411). -/
theorem State.command_idle {s : State} {b : Bool} (up : s.windowUp = true) (h : b = false) (f : State → State) :
    s.command b f = f s := by
  simp [State.command, up, h]

theorem State.command_busy (s : State) {b : Bool} (h : b = true) (f : State → State) : s.command b f = s := by
  simp [State.command, h]

@[simp] theorem State.frame_setFrame_same (s : State) (f : Nat) (e : FrameEnt) : (s.setFrame f e).frame f = e := by
  simp [State.frame, State.setFrame]

@[simp] theorem State.frame_setFrame_ne (s : State) {f g : Nat} (e : FrameEnt) (h : g ≠ f) : (s.setFrame f e).frame g = s.frame g := by
  simp [State.frame, State.setFrame, h]

section FrameCmd
variable {s : State} {f : Nat} {act : FrameEnt → Option FrameEnt}

/-- A frame command that its frame's entry allows: RESULT 0, and the entry after it stands in the table and in FSTAT (R407). -/
theorem State.frameCmd_allowed (up : s.windowUp = true) (idle : s.win.fbusy = false) (ok : frameOk f = true) {v : FrameEnt}
    (h : act (s.frame f) = some v) : ∃ s', Host.Outcome.next (s.frameCmd f act) = (.next s' : Out) ∧ s'.frame f = v ∧
      (∀ g, g ≠ f → s'.frame g = s.frame g) ∧ s'.win = { s.win with fresult := 0, fentry := v.bits } ∧ s'.mem = s.mem := by
  have e : s.frameCmd f act = (s.setFrame f v).frameResult 0 f := by
    simp [State.frameCmd, State.command_idle up idle, ok, h]
  refine ⟨_, congrArg _ e, s.frame_setFrame_same f v, fun g hg => s.frame_setFrame_ne v hg, ?_, rfl⟩
  simp only [State.frameResult, State.frame_setFrame_same]
  rfl

/-- One that the entry does not allow: RESULT 1 (R407). -/
theorem State.frameCmd_refused (up : s.windowUp = true) (idle : s.win.fbusy = false) (ok : frameOk f = true)
    (h : act (s.frame f) = none) :
    ∃ s', Host.Outcome.next (s.frameCmd f act) = (.next s' : Out) ∧ s'.win.fresult = 1 ∧ s'.frames = s.frames := by
  have e : s.frameCmd f act = s.frameResult 1 f := by simp [State.frameCmd, State.command_idle up idle, ok, h]
  exact ⟨_, congrArg _ e, rfl, rfl⟩

/-- One for a frame that is not populated or holds ownership entries: RESULT 2 (R407). -/
theorem State.frameCmd_badFrame (up : s.windowUp = true) (idle : s.win.fbusy = false) (bad : frameOk f = false) :
    ∃ s', Host.Outcome.next (s.frameCmd f act) = (.next s' : Out) ∧ s'.win.fresult = 2 ∧ s'.frames = s.frames := by
  have e : s.frameCmd f act = { s with win := { s.win with fresult := 2 } } := by
    simp [State.frameCmd, State.command_idle up idle, bad]
  exact ⟨_, congrArg _ e, rfl, rfl⟩

/-- While FSTAT is busy a frame command waits (R411). -/
theorem State.frameCmd_busy (busy : s.win.fbusy = true) : Host.Outcome.next (s.frameCmd f act) = (.next s : Out) :=
  congrArg _ (s.command_busy busy _)

end FrameCmd

/-- A share group's identifiers are 0x800 to 0xFFE (R404). -/
theorem isGroup_iff (o : BitVec 12) : isGroup o = true ↔ 0x800 ≤ o.toNat ∧ o.toNat ≤ 0xFFE := by
  simp [isGroup]

/-! ### Scrubs (R408) -/

/-- FREE of a frame that is owned or shared starts its scrub. -/
theorem execFree_scrubs {s : State} {f : BitVec 28} (up : s.windowUp = true) (idle : s.win.fbusy = false)
    (ok : frameOk f.toNat = true) (h : 2 ≤ (s.frame f.toNat).st.toNat) : execFree f s = .next (s.startScrub f.toNat) := by
  simp [execFree, State.command_idle up idle, ok, h]

theorem execFree_refused {s : State} {f : BitVec 28} (up : s.windowUp = true) (idle : s.win.fbusy = false)
    (ok : frameOk f.toNat = true) (h : (s.frame f.toNat).st.toNat < 2) : execFree f s = .next (s.frameResult 1 f.toNat) := by
  simp [execFree, State.command_idle up idle, ok, Nat.not_le.2 h]

theorem execFree_badFrame {s : State} {f : BitVec 28} (up : s.windowUp = true) (idle : s.win.fbusy = false)
    (bad : frameOk f.toNat = false) : execFree f s = .next { s with win := { s.win with fresult := 2 } } := by
  simp [execFree, State.command_idle up idle, bad]

theorem execFree_busy {s : State} {f : BitVec 28} (busy : s.win.fbusy = true) : execFree f s = .next s :=
  congrArg _ (s.command_busy busy _)

theorem State.startScrub_frame_same (s : State) (f : Nat) : (s.startScrub f).frame f = { s.frame f with st := 1, zero := true } := by
  unfold State.startScrub
  split <;> exact State.frame_setFrame_same ..

theorem State.startScrub_frame_ne (s : State) {f g : Nat} (h : g ≠ f) : (s.startScrub f).frame g = s.frame g := by
  unfold State.startScrub
  split <;> exact State.frame_setFrame_ne _ _ h

theorem State.startScrub_win (s : State) (f : Nat) :
    (s.startScrub f).win.fbusy = true ∧ (s.startScrub f).win.scrub = some f ∧ (s.startScrub f).win.fresult = 0 :=
  ⟨rfl, rfl, rfl⟩

/-- What a change of every listed plot does to a plot, where it leaves a plot at its reset value as it is. -/
theorem State.plot_map (s : State) {g : Plot → Plot} (hg : g {} = {}) (p : Nat) :
    (({ s with plots := s.plots.map (fun e => (e.1, g e.2)) } : State)).plot p = g (s.plot p) := by
  simp only [State.plot, look_map s.plots (fun _ => g) p]
  cases look s.plots p with
  | none => exact hg.symm
  | some v => rfl

/-- The end of a scrub drops the frame's lines from every plot. -/
theorem State.finishScrub_plot (s : State) (f p : Nat) : (s.finishScrub f).plot p = (s.plot p).dropFrame f :=
  s.plot_map (g := Plot.dropFrame f) rfl p

theorem Plot.dropFrame_lines (q : Plot) (f : Nat) {l : Line}
    (h : l ∈ (q.dropFrame f).cache ++ (q.dropFrame f).roc ++ (q.dropFrame f).ic) : l.n / 512 ≠ f := by
  simp only [Plot.dropFrame, List.mem_append, List.mem_filter, bne_iff_ne] at h
  obtain (⟨-, h⟩ | ⟨-, h⟩) | ⟨-, h⟩ := h <;> exact h

/-- What the slices, the lost lines and the stores' owners hold of the frame goes with its scrub. -/
theorem State.finishScrub_slines (s : State) (f : Nat) : ∀ l ∈ (s.finishScrub f).slines, l.n / 512 ≠ f :=
  fun _ h => bne_iff_ne.1 (List.mem_filter.1 h).2

theorem State.finishScrub_lostLines (s : State) (f : Nat) : ∀ l ∈ (s.finishScrub f).lostLines, l / 512 ≠ f :=
  fun _ h => bne_iff_ne.1 (List.mem_filter.1 h).2

theorem State.finishScrub_owns (s : State) (f : Nat) : ∀ o ∈ (s.finishScrub f).owns, o.pa / 65536 ≠ f :=
  fun _ h => bne_iff_ne.1 (List.mem_filter.1 h).2

theorem execScrubComplete_next {s : State} {f : Nat} (h : s.win.scrub = some f) : execScrubComplete s =
    .next { s.finishScrub f with
      win := { s.win with fentry := ((s.finishScrub f).frame f).bits, fbusy := false, scrub := none } } := by
  simp only [execScrubComplete, h]
  rfl

/-! ### Key slots (R412) -/

theorem State.keyUsed_iff (s : State) (k : BitVec 12) : s.keyUsed k = true ↔ ∃ x ∈ s.frames, x.2.key = k := by
  simp [State.keyUsed]

section Kgen
variable {s : State} {k : BitVec 12} (up : s.windowUp = true) (idle : s.win.kbusy = false)
include up idle

/-- A slot that no frame names takes a fresh key. -/
theorem execKgen_fresh (h2 : 2 ≤ k.toNat) (free : ∀ x ∈ s.frames, x.2.key ≠ k) : execKgen k s =
    .next { s with keys := put s.keys k.toNat s.nextKey, nextKey := s.nextKey + 1, win := { s.win with kresult := 0 } } := by
  have hu : ¬s.keyUsed k = true := fun h => by
    obtain ⟨x, hx, e⟩ := (s.keyUsed_iff k).1 h
    exact free x hx e
  simp [execKgen, State.command_idle up idle, Nat.not_lt.2 h2, hu]

/-- A slot that a frame names keeps its key. -/
theorem execKgen_used (h2 : 2 ≤ k.toNat) (used : ∃ x ∈ s.frames, x.2.key = k) :
    execKgen k s = .next { s with win := { s.win with kresult := 1 } } := by
  simp [execKgen, State.command_idle up idle, Nat.not_lt.2 h2, (s.keyUsed_iff k).2 used]

/-- Slots 0 and 1 are not software's. -/
theorem execKgen_badSlot (h2 : k.toNat < 2) : execKgen k s = .next { s with win := { s.win with kresult := 2 } } := by
  simp [execKgen, State.command_idle up idle, h2]

end Kgen

/-! ### The frame and key commands -/

theorem frameCommands : Claims.FrameCommands := by
  intro s f o k up e becomes result
  refine ⟨fun idle ok => ⟨?assign, ?noAssign, ?share, ?noShare, ?free, ?noFree, ?query⟩, fun idle bad => ?badFrame, fun busy => ?busy,
    fun g hg => ?scrub, fun idle => ⟨fun h2 unused => ?fresh, execKgen_used up idle, execKgen_badSlot up idle⟩⟩
  case assign => exact fun st own => State.frameCmd_allowed up idle ok (if_pos ⟨st, own⟩)
  case noAssign => exact fun no => State.frameCmd_refused up idle ok (if_neg no)
  case share => exact fun st lo hi => State.frameCmd_allowed up idle ok (if_pos ⟨st, (isGroup_iff o).2 ⟨lo, hi⟩⟩)
  case noShare => exact fun no => State.frameCmd_refused up idle ok (if_neg fun h => no ⟨h.1, (isGroup_iff o).1 h.2⟩)
  case free =>
    exact fun st => ⟨_, execFree_scrubs up idle ok st, s.startScrub_frame_same _, fun g hg => s.startScrub_frame_ne hg,
      s.startScrub_win _⟩
  case noFree => exact fun st => ⟨_, execFree_refused up idle ok st, rfl, rfl⟩
  case query => exact State.frameCmd_allowed up idle ok rfl
  case badFrame =>
    exact ⟨State.frameCmd_badFrame up idle bad, State.frameCmd_badFrame up idle bad, ⟨_, execFree_badFrame up idle bad, rfl, rfl⟩,
      State.frameCmd_badFrame up idle bad⟩
  case busy =>
    exact ⟨State.frameCmd_busy busy, State.frameCmd_busy busy, execFree_busy busy, State.frameCmd_busy busy⟩
  case scrub =>
    refine ⟨_, execScrubComplete_next hg, State.frame_setFrame_same .., fun h ne => State.frame_setFrame_ne _ _ ne, rfl, rfl, rfl,
      s.finishScrub_slines g, s.finishScrub_lostLines g, s.finishScrub_owns g, fun p l hl => ?_⟩
    exact Plot.dropFrame_lines (s.plot p) g (by rwa [← s.finishScrub_plot g p])
  case fresh =>
    exact ⟨_, execKgen_fresh up idle h2 unused, look_put_same .., rfl, rfl, fun j hj => look_put_ne _ _ _ _ hj⟩

/-! ### Invalidation of translations (R410) -/

/-- The translations that the invalidation of a page keeps, in any cache. -/
theorem mem_filter_page {l : List Tlb} {al vpn : Nat} {t : Tlb} :
    t ∈ l.filter (fun t => t.al != al || !(decide (vpn ≤ t.vpn) && decide (t.vpn < vpn + 1))) ↔
      t ∈ l ∧ ¬(t.al = al ∧ t.vpn = vpn) := by
  have page : vpn ≤ t.vpn ∧ t.vpn < vpn + 1 ↔ t.vpn = vpn := by omega
  simp [List.mem_filter, ← page, ← imp_iff_not_or]

theorem State.mem_dropTlb_mtlb (s : State) (al vpn : Nat) (t : Tlb) :
    t ∈ (s.dropTlb al vpn).mtlb ↔ t ∈ s.mtlb ∧ ¬(t.al = al ∧ t.vpn = vpn) := mem_filter_page

theorem State.mem_dropTlb_tlb (s : State) (al vpn p : Nat) (t : Tlb) :
    t ∈ ((s.dropTlb al vpn).plot p).tlb ↔ t ∈ (s.plot p).tlb ∧ ¬(t.al = al ∧ t.vpn = vpn) := by
  rw [← mem_filter_page]
  exact iff_of_eq (congrArg (t ∈ ·.tlb) (s.plot_map (g := fun q => { q with tlb := q.tlb.filter _ }) rfl p))

theorem State.mem_dropAllTlb_mtlb (s : State) (al : Nat) (t : Tlb) : t ∈ (s.dropAllTlb al).mtlb ↔ t ∈ s.mtlb ∧ t.al ≠ al := by
  simp [State.dropAllTlb]

theorem State.mem_dropAllTlb_tlb (s : State) (al p : Nat) (t : Tlb) :
    t ∈ ((s.dropAllTlb al).plot p).tlb ↔ t ∈ (s.plot p).tlb ∧ t.al ≠ al := by
  have e : (s.dropAllTlb al).plot p = { s.plot p with tlb := (s.plot p).tlb.filter (fun t => t.al != al) } :=
    s.plot_map (g := fun q => { q with tlb := q.tlb.filter (fun t => t.al != al) }) rfl p
  simp [e]

/-- Waiters that register again change no translation cache. -/
theorem State.rouse_mtlb (s : State) (al : Nat) (f : Nat → Bool) : (s.rouse al f).mtlb = s.mtlb := rfl
theorem State.rouse_plot (s : State) (al : Nat) (f : Nat → Bool) (p : Nat) : (s.rouse al f).plot p = s.plot p := rfl

/-- The end of an invalidation: of one page, and of an allotment. -/
theorem execXinvComplete_page {s : State} {al vpn : Nat} (h : s.win.xinv = some (al, some vpn)) : execXinvComplete s =
    .next ((({ s with win := { s.win with xbusy := false, xinv := none } } : State).dropTlb al vpn).rouse al (fun n => n == vpn)) := by
  simp only [execXinvComplete, h]

theorem execXinvComplete_allotment {s : State} {al : Nat} (h : s.win.xinv = some (al, none)) : execXinvComplete s =
    .next ((({ s with win := { s.win with xbusy := false, xinv := none } } : State).dropAllTlb al).rouse al (fun _ => true)) := by
  simp only [execXinvComplete, h]

/-! ### Plain registers (R9, R455) -/

section Registers
variable {s : State} (up : s.windowUp = true) (v : BitVec 64)
include up

/-- A register that no command of its own makes busy. -/
theorem execRegisterWrite_sfrBase : execRegisterWrite .sfrBase v s =
    .next { s with win := { s.win with sfrbase := BitVec.ofNat 44 (bitsN v 6 38 * 64) } } :=
  congrArg _ (State.command_idle up rfl _)

theorem execRegisterWrite_sfrHead : execRegisterWrite .sfrHead v s =
    .next { s with win := { s.win with sfrhead := BitVec.ofNat 32 (bitsN v 0 32) } } :=
  congrArg _ (State.command_idle up rfl _)

theorem execRegisterWrite_migva (idle : s.win.mbusy = false) : execRegisterWrite .migva v s =
    .next { s with win := { s.win with migvpn := BitVec.ofNat 32 (bitsN v 0 32), migal := BitVec.ofNat 12 (bitsN v 32 12) } } :=
  congrArg _ (State.command_idle up idle _)

theorem execRegisterWrite_mcmd (idle : s.win.mcBusy = false) : execRegisterWrite .mcmd v s = .next (s.mailbox v) :=
  congrArg _ (State.command_idle up idle _)

theorem execRegisterWrite_mdata {i : Nat} (hi : i < 7) : execRegisterWrite (.mdata i) v s =
    .next { s with win := { s.win with mdata := ((s.win.mdata ++ List.replicate 7 0).take 7).set i v } } :=
  congrArg _ ((State.command_idle up rfl _).trans (if_pos hi))

theorem execRegisterWrite_wpmask {d i : Nat} (hd : d < 4) (hi : i < 8) : execRegisterWrite (.wpmask d i) v s =
    .next { s with wpmask := put s.wpmask (8 * d + i) (BitVec.ofNat 16 (bitsN v 0 16)) } :=
  congrArg _ ((State.command_idle up rfl _).trans (if_pos ⟨hd, hi⟩))

end Registers

/-- A register whose command is in progress waits (R411). -/
theorem execRegisterWrite_busy {s : State} {r : WindowReg} (busy : s.win.waits r = true) (v : BitVec 64) :
    execRegisterWrite r v s = .next s :=
  congrArg _ (s.command_busy busy _)

/-- The bits of a register's field, as a bit vector. -/
theorem ofNat_bitsN {w : Nat} (v : BitVec w) (lo n : Nat) : BitVec.ofNat n (bitsN v lo n) = v.extractLsb' lo n := by
  apply BitVec.eq_of_toNat_eq
  simp [bitsN, Nat.shiftRight_eq_div_pow]

theorem ofNat_bitsN_zero {w : Nat} (v : BitVec w) (n : Nat) : BitVec.ofNat n (bitsN v 0 n) = v.setWidth n := by
  apply BitVec.eq_of_toNat_eq
  simp [bitsN]

/-- A request of R455 that MCMD's OP names, and one that it does not. -/
theorem State.mailbox_request (s : State) {v : BitVec 64} (h : 1 ≤ v.toNat % 256 ∧ v.toNat % 256 ≤ 11) : s.mailbox v =
    { s with win := { s.win with mcBusy := true, mcOp := BitVec.ofNat 8 (v.toNat % 256), mcNew := v.extractLsb' 16 16 } } := by
  have o : bitsN v 0 8 = v.toNat % 256 := by simp [bitsN]
  simp [State.mailbox, ofNat_bitsN, o, h]

theorem State.mailbox_badOp (s : State) {v : BitVec 64} (h : ¬(1 ≤ v.toNat % 256 ∧ v.toNat % 256 ≤ 11)) : s.mailbox v =
    { s with win := { s.win with mcResult := 1, mcTag := v.extractLsb' 16 16 } } := by
  have o : bitsN v 0 8 = v.toNat % 256 := by simp [bitsN]
  simp only [State.mailbox, ofNat_bitsN, o, if_neg h]

/-! ### The invalidation and register commands -/

theorem windowRegisterCommands : Claims.WindowCommands := by
  intro s al vpn v up
  refine ⟨fun idle => ⟨congrArg _ (State.command_idle up idle _), congrArg _ (State.command_idle up idle _)⟩, fun a n h => ?complete,
    ?base, ?head, fun idle => ?migva, fun busy => execRegisterWrite_busy (r := .migva) busy v,
    fun busy => execRegisterWrite_busy (r := .mcmd) busy v, fun idle => ⟨fun op => ?request, fun op => ?badOp⟩, fun i hi => ?mdata,
    fun d i hd hi => ?wpmask⟩
  case complete =>
    cases n with
    | some m =>
      refine ⟨_, execXinvComplete_page h, rfl, rfl, rfl, fun t => ?_, fun p t => ?_⟩
      · rw [State.rouse_mtlb, State.mem_dropTlb_mtlb]; simp
      · rw [State.rouse_plot, State.mem_dropTlb_tlb]; simp [State.plot]
    | none =>
      refine ⟨_, execXinvComplete_allotment h, rfl, rfl, rfl, fun t => ?_, fun p t => ?_⟩
      · rw [State.rouse_mtlb, State.mem_dropAllTlb_mtlb]; simp
      · rw [State.rouse_plot, State.mem_dropAllTlb_tlb]; simp [State.plot]
  case base =>
    refine ⟨_, execRegisterWrite_sfrBase up v, ?_⟩
    simp only [BitVec.toNat_ofNat, bitsN]
    omega
  case head => exact ⟨_, execRegisterWrite_sfrHead up v, ofNat_bitsN_zero v 32⟩
  case migva =>
    refine ⟨_, execRegisterWrite_migva up v idle, ofNat_bitsN_zero v 32, (ofNat_bitsN v 32 12).trans ?_⟩
    exact (BitVec.setWidth_ushiftRight_eq_extractLsb ..).symm
  case request => exact (execRegisterWrite_mcmd up v idle).trans (congrArg _ (s.mailbox_request op))
  case badOp => exact (execRegisterWrite_mcmd up v idle).trans (congrArg _ (s.mailbox_badOp op))
  case mdata => exact ⟨_, execRegisterWrite_mdata up v hi, List.getElem?_set_self (by simp; omega)⟩
  case wpmask =>
    exact ⟨_, execRegisterWrite_wpmask up v hd hi, (look_put_same ..).trans (congrArg some (ofNat_bitsN_zero v 16))⟩

/-! ### Memory under lists of stores -/

/-- Stores of one byte each, in the order of a list. -/
theorem Memory.foldl_setByte_wf {α : Type} (place : α → Nat) (v : α → Byte) (l : List α) {m : List Host.Cell} (h : Memory.wf m = true) :
    Memory.wf (l.foldl (fun m x => Memory.setByte m (place x) (v x)) m) = true := by
  induction l generalizing m with
  | nil => exact h
  | cons x l ih => exact ih (Memory.setByte_wf _ _ h)

theorem Memory.byte_foldl_setByte_out {α : Type} (place : α → Nat) (v : α → Byte) (l : List α) (m : List Host.Cell) {b : Nat}
    (h : ∀ x ∈ l, place x ≠ b) : Memory.byte (l.foldl (fun m x => Memory.setByte m (place x) (v x)) m) b = Memory.byte m b := by
  induction l generalizing m with
  | nil => rfl
  | cons x l ih =>
    rw [List.foldl_cons, ih _ fun y hy => h y (List.mem_cons_of_mem _ hy),
      Memory.byte_setByte_ne _ _ (h x List.mem_cons_self).symm]

/-- Bytes stored one after another. -/
theorem Memory.byte_foldl_range {m : List Host.Cell} (h : Memory.wf m = true) (a n b : Nat) (v : Nat → Byte) :
    Memory.byte ((List.range n).foldl (fun m i => Memory.setByte m (a + i) (v i)) m) b =
      if a ≤ b ∧ b < a + n then v (b - a) else Memory.byte m b := by
  induction n with
  | zero => rw [if_neg (by omega)]; rfl
  | succ n ih =>
    rw [List.range_succ, List.foldl_append, List.foldl_cons, List.foldl_nil]
    by_cases e : b = a + n
    · have w := Memory.foldl_setByte_wf (fun i => a + i) v (List.range n) h
      rw [e, Memory.byte_setByte_same (v n) w, if_pos (by omega), Nat.add_sub_cancel_left]
    · rw [Memory.byte_setByte_ne _ _ e, ih]
      exact if_congr (by omega) rfl rfl

/-- What is kept of a memory by address. -/
theorem Memory.byte_filter (m : List Host.Cell) (f : Nat → Bool) (a : Nat) :
    Memory.byte (m.filter (fun c => f c.1)) a = if f a then Memory.byte m a else 0 := by
  induction m with
  | nil => simp [Memory.byte]
  | cons c r ih =>
    obtain ⟨b, w⟩ := c
    by_cases hb : b = a
    · subst hb
      by_cases hf : f b <;> simp [hf, Memory.byte, ih]
    · by_cases hf : f b <;> simp [hf, Memory.byte, hb, ih]

theorem Memory.byte_clear (m : List Host.Cell) (a n b : Nat) :
    Memory.byte (Memory.clear m a n) b = if a ≤ b ∧ b < a + n then 0 else Memory.byte m b := by
  rw [Memory.clear, Memory.byte_filter m (fun c => decide (c < a) || decide (a + n ≤ c)) b]
  by_cases h : a ≤ b ∧ b < a + n
  · rw [if_pos h, if_neg (by simp; omega)]
  · rw [if_neg h, if_pos (by simp; omega)]

/-- A memory in canonical form that lists no byte below an address. -/
theorem Memory.wfFrom_above {m : List Host.Cell} {lo hi : Nat} (h : Memory.wfFrom lo m = true) (above : ∀ c ∈ m, hi ≤ c.1) :
    Memory.wfFrom hi m = true := by
  cases m with
  | nil => rfl
  | cons c r => exact (Memory.wfFrom_cons ..).2 ⟨above c List.mem_cons_self, ((Memory.wfFrom_cons ..).1 h).2⟩

/-- The bytes of a memory from `sb` on, stored again from `db` on: where one is listed it stands at its new place, elsewhere there is
what was there. -/
theorem Memory.byte_foldl_move {l : List Host.Cell} {lo sb : Nat} (hl : Memory.wfFrom lo l = true) (le : sb ≤ lo) (db o : Nat)
    {m : List Host.Cell} (hm : Memory.wf m = true) :
    Memory.byte (l.foldl (fun m c => Memory.setByte m (c.1 - sb + db) c.2) m) (db + o) =
      if Memory.byte l (sb + o) = 0 then Memory.byte m (db + o) else Memory.byte l (sb + o) := by
  induction l generalizing lo m with
  | nil => rfl
  | cons c r ih =>
    obtain ⟨b, w⟩ := c
    obtain ⟨hb, hw, hr⟩ := (Memory.wfFrom_cons ..).1 hl
    rw [List.foldl_cons, ih hr (by omega) (Memory.setByte_wf _ _ hm)]
    by_cases e : b = sb + o
    · have place : b - sb + db = db + o := by omega
      have here : Memory.byte ((b, w) :: r) (sb + o) = w := if_pos e
      rw [Memory.byte_low hr (by omega), if_pos rfl, place, Memory.byte_setByte_same w hm, here, if_neg hw]
    · rw [Memory.byte_setByte_ne _ _ (by omega)]
      simp [Memory.byte, e]

/-! ### The copy of a frame (R414) -/

/-- The bytes that a memory lists of a frame. -/
def Memory.frameBytes (m : List Host.Cell) (f : Nat) : List Host.Cell :=
  m.filter (fun c => decide (f * 65536 ≤ c.1) && decide (c.1 < (f + 1) * 65536))

theorem Memory.mem_frameBytes {m : List Host.Cell} {f : Nat} {c : Host.Cell} (h : c ∈ Memory.frameBytes m f) :
    f * 65536 ≤ c.1 ∧ c.1 < (f + 1) * 65536 := by
  simp only [Memory.frameBytes, List.mem_filter, Bool.and_eq_true, decide_eq_true_eq] at h
  exact h.2

theorem Memory.frameBytes_wfFrom {m : List Host.Cell} (f : Nat) (h : Memory.wf m = true) :
    Memory.wfFrom (f * 65536) (Memory.frameBytes m f) = true :=
  Memory.wfFrom_above (Memory.filter_wfFrom _ h) fun _ hc => (Memory.mem_frameBytes hc).1

theorem Memory.byte_frameBytes (m : List Host.Cell) (f : Nat) {o : Nat} (ho : o < 65536) :
    Memory.byte (Memory.frameBytes m f) (f * 65536 + o) = Memory.byte m (f * 65536 + o) :=
  (Memory.byte_filter m (fun a => decide (f * 65536 ≤ a) && decide (a < (f + 1) * 65536)) _).trans (if_pos (by simp; omega))

/-- A frame that is not all-zero: its listed bytes are stored at the destination, which is cleared first and is all-zero no more. -/
theorem State.copyFrame_mem {s : State} {sf : Nat} (al df : Nat) (h : (s.frame sf).zero = false) : (s.copyFrame al sf df).mem =
    (Memory.frameBytes s.mem sf).foldl (fun m c => Memory.setByte m (c.1 - sf * 65536 + df * 65536) c.2)
      (Memory.clear s.mem (df * 65536) 65536) := by
  simp only [State.copyFrame, h]
  rfl

theorem State.copyFrame_errLines {s : State} {sf : Nat} (al df : Nat) (h : (s.frame sf).zero = false) :
    (s.copyFrame al sf df).errLines = s.errLines.filter (fun l => l / 512 != df) := by
  simp only [State.copyFrame, h]
  rfl

theorem State.copyFrame_frame {s : State} {sf : Nat} (al df : Nat) (h : (s.frame sf).zero = false) :
    (s.copyFrame al sf df).frame df = { s.frame df with zero := false } := by
  have e : (s.copyFrame al sf df).frame df = (s.setFrame df { s.frame df with zero := false }).frame df := by
    simp only [State.copyFrame, h]
    rfl
  rw [e, State.frame_setFrame_same]

theorem State.copyFrame_zero {s : State} {sf : Nat} (al df : Nat) (h : (s.frame sf).zero = true) : s.copyFrame al sf df = s := by
  simp [State.copyFrame, h]

theorem State.copyFrame_win (s : State) (al sf df : Nat) : (s.copyFrame al sf df).win = s.win := by
  unfold State.copyFrame
  split <;> rfl

/-- Every byte of the source stands at its place of the destination. -/
theorem State.copyFrame_byte_in {s : State} (al : Nat) {sf df o : Nat} (wf : Memory.wf s.mem = true) (ho : o < 65536)
    (h : (s.frame sf).zero = false) :
    Memory.byte (s.copyFrame al sf df).mem (df * 65536 + o) = Memory.byte s.mem (sf * 65536 + o) := by
  have cleared : Memory.byte (Memory.clear s.mem (df * 65536) 65536) (df * 65536 + o) = 0 :=
    (Memory.byte_clear ..).trans (if_pos ⟨Nat.le_add_right _ _, Nat.add_lt_add_left ho _⟩)
  rw [State.copyFrame_mem al df h,
    Memory.byte_foldl_move (Memory.frameBytes_wfFrom sf wf) (Nat.le_refl _) _ _ (Memory.clear_wf _ _ wf),
    Memory.byte_frameBytes s.mem sf ho, cleared]
  split
  · rename_i unlisted; exact unlisted.symm
  · rfl

/-- Outside the destination memory is as it was. -/
theorem State.copyFrame_byte_out {s : State} (al : Nat) {sf df a : Nat} (h : (s.frame sf).zero = false) (ha : a / 65536 ≠ df) :
    Memory.byte (s.copyFrame al sf df).mem a = Memory.byte s.mem a := by
  rw [State.copyFrame_mem al df h, Memory.byte_foldl_setByte_out (fun c => c.1 - sf * 65536 + df * 65536) Prod.snd, Memory.byte_clear,
    if_neg (by omega)]
  intro c hc e
  have := Memory.mem_frameBytes hc
  omega

/-! ### Lines that the migration cannot read (R420, R421) -/

theorem State.migLost_win (s : State) (al df l : Nat) : (s.migLost al df l).win = s.win := by
  simp only [State.migLost, State.record_win]

/-- The line of the destination takes free values, and nothing else changes. -/
theorem State.migLost_byte {s : State} (al df l : Nat) (wf : Memory.wf s.mem = true) (a : Nat) :
    Memory.byte (s.migLost al df l).mem a =
      if a / 128 = df * 512 + l % 512 then BitVec.ofNat 8 (Config.freeValue (s.freeCtr + a % 128)) else Memory.byte s.mem a := by
  have e := Memory.byte_foldl_range wf (df * 65536 + l % 512 * 128) 128 a
    (fun i => BitVec.ofNat 8 (Config.freeValue (s.freeCtr + i)))
  rw [State.migLost, State.record_mem, e]
  by_cases h : a / 128 = df * 512 + l % 512
  · rw [if_pos h, if_pos (by omega), show a - (df * 65536 + l % 512 * 128) = a % 128 by omega]
  · rw [if_neg h, if_neg (by omega)]

theorem State.migLost_faultQ (s : State) (al df l : Nat) : (s.migLost al df l).faultQ =
    s.faultQ ++ [{ migRec al with seq := s.faultSeq, time := s.dieClk.setWidth 32 }] := by
  simp only [State.migLost, State.record]

theorem State.migReport_full {s : State} (al df l : Nat) (r : List Nat) (h : s.recFull = true) :
    s.migReport al df (l :: r) = (s, l :: r) := by
  simp [State.migReport, h]

theorem State.migReport_room {s : State} (al df l : Nat) (r : List Nat) (h : s.recFull = false) :
    s.migReport al df (l :: r) = (s.migLost al df l).migReport al df r := by
  simp [State.migReport, h]

theorem State.migReport_win (s : State) (al df : Nat) (l : List Nat) : (s.migReport al df l).1.win = s.win := by
  induction l generalizing s with
  | nil => rfl
  | cons l r ih =>
    cases h : s.recFull with
    | true => rw [State.migReport_full al df l r h]
    | false => rw [State.migReport_room al df l r h, ih, State.migLost_win]

/-- The report goes on where the copy is made already, and follows the copy where it is not. -/
theorem State.migCopy_copied {s : State} (al sf df : Nat) {l : List Nat} (h : s.win.migLeft = some l) :
    let r := s.migReport al df l
    s.migCopy al sf df = ({ r.1 with win := { r.1.win with migLeft := some r.2 } }, r.2.isEmpty) := by
  simp only [State.migCopy, h]

theorem State.migCopy_first {s : State} (al sf df : Nat) (h : s.win.migLeft = none) :
    let r := ((s.copyFrame al sf df).moveOwns sf df).migReport al df (if (s.frame sf).zero then [] else s.badIn sf)
    s.migCopy al sf df = ({ r.1 with win := { r.1.win with migLeft := some r.2 } }, r.2.isEmpty) := by
  simp only [State.migCopy, h]

/-- The copy and the report of the migration in progress: the state, and whether they are over. -/
def State.migNow (s : State) : State × Bool := s.migCopy s.win.migal.toNat s.win.migSrc s.win.migdst.toNat

/-- The copy starts no scrub and ends none. -/
theorem State.migCopy_fbusy (s : State) (al sf df : Nat) : (s.migCopy al sf df).1.win.fbusy = s.win.fbusy := by
  cases h : s.win.migLeft with
  | some l =>
    rw [State.migCopy_copied al sf df h]
    show (s.migReport al df l).1.win.fbusy = _
    rw [State.migReport_win]
  | none =>
    rw [State.migCopy_first al sf df h]
    show (((s.copyFrame al sf df).moveOwns sf df).migReport al df _).1.win.fbusy = _
    rw [State.migReport_win]
    exact congrArg Window.fbusy (s.copyFrame_win al sf df)

theorem State.migNow_fbusy (s : State) : s.migNow.1.win.fbusy = s.win.fbusy := s.migCopy_fbusy ..

/-! ### The start and the end of a migration (R413, R414) -/

/-- A bit that is not 1 is 0. -/
theorem bitsN_eq_zero {w lo : Nat} {v : BitVec w} (h : bitsN v lo 1 ≠ 1) : bitsN v lo 1 = 0 :=
  (Nat.mod_two_eq_zero_or_one _).resolve_right h

/-- Where the engine caches no translation of the page, it is mapped as the tables say (R402). -/
theorem migLeaf_uncached {s : State} {al va : Nat} (h : s.mtlb.any (fun t => t.al == al && t.vpn == va / 65536) = false) :
    migLeaf s al va = migWalk s al va := by
  have none : s.mtlb.find? (fun t => t.al == al && t.vpn == va / 65536) = none := by
    simpa only [List.find?_eq_none, List.any_eq_false] using h
  simp only [migLeaf, none]

/-- The engine keeps a translation besides its own only of the page, as the tables map it, and not under migration (R402). -/
theorem State.migKeep_cases (s : State) (al va : Nat) : s.migKeep al va = s ∨ ∃ t : Tlb, t.al = al ∧ t.vpn = va / 65536 ∧
    bitsN t.leaf 13 1 = 0 ∧ migWalk s al va = .ok (t.leaf, t.ea) ∧ s.migKeep al va = { s with mtlb := t :: s.mtlb } := by
  unfold State.migKeep
  split
  case isTrue => exact .inl rfl
  case isFalse =>
    split
    case h_1 => exact .inl rfl
    case h_2 l ea mapped =>
      split
      case isTrue => exact .inl rfl
      case isFalse keep =>
        obtain ⟨still, uncached⟩ := not_or.1 keep
        rw [migLeaf_uncached (eq_false_of_ne_true uncached)] at mapped
        exact .inr ⟨_, rfl, rfl, bitsN_eq_zero still, mapped, rfl⟩

theorem State.migKeep_frame (s : State) (al va : Nat) : s.migKeep al va = { s with mtlb := (s.migKeep al va).mtlb } := by
  obtain e | ⟨t, -, -, -, -, e⟩ := s.migKeep_cases al va <;> rw [e]

theorem State.mem_migKeep {s : State} {al vpn : Nat} {t : Tlb} (h : t ∈ (s.migKeep al (vpn * 65536)).mtlb) :
    t ∈ s.mtlb ∨ (t.al = al ∧ t.vpn = vpn ∧ bitsN t.leaf 13 1 = 0 ∧ migWalk s al (vpn * 65536) = .ok (t.leaf, t.ea)) := by
  obtain e | ⟨u, hal, hvpn, hm, hw, e⟩ := s.migKeep_cases al (vpn * 65536)
  · exact .inl (by rwa [e] at h)
  · rw [e] at h
    rw [Nat.mul_div_cancel _ (by decide)] at hvpn
    obtain rfl | h := List.mem_cons.1 h
    · exact .inr ⟨hal, hvpn, hm, hw⟩
    · exact .inl h

section Migdst
variable {s : State} {f : BitVec 28} (up : s.windowUp = true) (idle : s.win.mbusy = false)
include up idle

/-- A check that fails gives its code. -/
theorem execMigdst_refused {r : Nat} (h : s.migCheck s.win.migal.toNat (s.win.migvpn.toNat * 65536) f.toNat = .error r) :
    execMigdst f s = .next { s.migKeep s.win.migal.toNat (s.win.migvpn.toNat * 65536) with
      win := { s.win with migdst := f, mresult := BitVec.ofNat 4 r } } := by
  simp only [execMigdst, State.command_idle up idle, h]

/-- Where all pass, the migration begins. -/
theorem execMigdst_starts {l : DWord} {ea : Nat}
    (h : s.migCheck s.win.migal.toNat (s.win.migvpn.toNat * 65536) f.toNat = .ok (l, ea)) :
    let s1 := ((s.leafStep ea leafM).dropTlb s.win.migal.toNat s.win.migvpn.toNat).flushFrame (bitsN l 16 28)
    execMigdst f s = .next { s1 with win := { s1.win with
      migdst := f, mresult := 0, mbusy := true, migEa := ea, migSrc := bitsN l 16 28, migLeft := none } } := by
  simp only [execMigdst, State.command_idle up idle, h, Nat.mul_div_cancel _ (show 0 < 65536 by decide)]

end Migdst

theorem execMigrationComplete_idle {s : State} (h : s.win.mbusy = false) : execMigrationComplete s = .next s := by
  simp [execMigrationComplete, h]

/-- Lines are left to report, or FSTAT is busy: the migration waits. -/
theorem execMigrationComplete_waits {s : State} (busy : s.win.mbusy = true) (h : s.migNow.2 = false ∨ s.win.fbusy = true) :
    execMigrationComplete s = .next s.migNow.1 := by
  have c : (!s.migNow.2 || s.migNow.1.win.fbusy) = true := by simpa [s.migNow_fbusy] using h
  exact congrArg Host.Outcome.next ((if_neg (by simp [busy])).trans (if_pos c))

/-- The copy and its report are over and FSTAT is free: the migration ends. -/
theorem execMigrationComplete_ends {s : State} (busy : s.win.mbusy = true) (done : s.migNow.2 = true)
    (free : s.win.fbusy = false) :
    let al := s.win.migal.toNat
    let vpn := s.win.migvpn.toNat
    let s1 := ((s.migNow.1.leafStep s.win.migEa (fun l => migratedLeaf l s.win.migdst.toNat)).startScrub s.win.migSrc).rouse al
      (fun n => n == vpn)
    let s2 : State := { s1 with win := { s1.win with mbusy := false, migLeft := none } }
    let s3 := s2.plots.foldl (fun r e => r.replayPage al e.1 vpn) s2
    execMigrationComplete s = .next ((s3.payOwed al).afterFirings al).retryAll := by
  have c : ¬(!s.migNow.2 || s.migNow.1.win.fbusy) = true := by simp [s.migNow_fbusy, done, free]
  exact congrArg Host.Outcome.next ((if_neg (by simp [busy])).trans (if_neg c))

/-! ### The leaf after a migration (R398, R414) -/

/-- FRAME and TIER are the destination's, M is clear, and the rest is as it was. -/
theorem migratedLeaf_toNat (l : DWord) {df : Nat} (h : df < 2 ^ 28) : (migratedLeaf l df).toNat =
    l.toNat % 2 ^ 13 + 2 ^ 14 * (if df < 2 ^ 23 then 0 else 1) + 2 ^ 16 * df + 2 ^ 44 * (l.toNat / 2 ^ 44) := by
  have := l.isLt
  unfold migratedLeaf
  simp only [BitVec.toNat_ofNat, bitsN]
  split <;> omega

/-- The fields of the leaf after a migration. -/
theorem migratedLeaf_frame (l : DWord) (df : BitVec 28) : (migratedLeaf l df.toNat).extractLsb' 16 28 = df := by
  apply BitVec.eq_of_toNat_eq
  rw [BitVec.extractLsb'_toNat, migratedLeaf_toNat l df.isLt, Nat.shiftRight_eq_div_pow]
  have := df.isLt
  split <;> omega

section Fields
variable (l : DWord) {df : Nat} (h : df < 2 ^ 28)
include h

theorem migratedLeaf_m : (migratedLeaf l df).getLsbD 13 = false := by
  rw [BitVec.getLsbD, migratedLeaf_toNat l h, Nat.testBit_eq_decide_div_mod_eq, decide_eq_false_iff_not]
  split <;> omega

theorem migratedLeaf_tier : (migratedLeaf l df).extractLsb' 14 2 = if df < 2 ^ 23 then 0 else 1 := by
  apply BitVec.eq_of_toNat_eq
  rw [BitVec.extractLsb'_toNat, migratedLeaf_toNat l h, Nat.shiftRight_eq_div_pow]
  split
  · show _ = 0; omega
  · show _ = 1; omega

theorem migratedLeaf_low : (migratedLeaf l df).extractLsb' 0 13 = l.extractLsb' 0 13 := by
  apply BitVec.eq_of_toNat_eq
  rw [BitVec.extractLsb'_toNat, BitVec.extractLsb'_toNat, migratedLeaf_toNat l h, Nat.shiftRight_eq_div_pow, Nat.shiftRight_eq_div_pow]
  split <;> omega

theorem migratedLeaf_high : (migratedLeaf l df).extractLsb' 44 20 = l.extractLsb' 44 20 := by
  apply BitVec.eq_of_toNat_eq
  rw [BitVec.extractLsb'_toNat, BitVec.extractLsb'_toNat, migratedLeaf_toNat l h, Nat.shiftRight_eq_div_pow, Nat.shiftRight_eq_div_pow]
  split <;> omega

end Fields

/-! ### The claims -/

theorem migrationEvents : Claims.MigrationEvents := by
  refine ⟨fun s f up idle => ⟨fun r h => ?refused, fun l ea h => execMigdst_starts up idle h⟩,
    fun s busy => ⟨execMigrationComplete_waits busy, execMigrationComplete_ends busy⟩, fun s => execMigrationComplete_idle,
    fun s al sf df => ⟨fun l h => State.migCopy_copied al sf df h, fun h => State.migCopy_first al sf df h, rfl, fun l r =>
      ⟨State.migReport_full al df l r, fun h => ?lost⟩⟩,
    fun s al sf df o wf _ ho h => ?copy, fun s al sf df => State.copyFrame_zero al df, fun l df => ?leaf⟩
  case refused => exact ⟨execMigdst_refused up idle h, s.migKeep_frame _ _, fun t => State.mem_migKeep⟩
  case lost => exact ⟨State.migReport_room al df l r h, ⟨_, rfl, rfl, s.migLost_faultQ al df l⟩, State.migLost_byte al df l⟩
  case copy =>
    refine ⟨State.copyFrame_byte_in al wf ho h, fun a => State.copyFrame_byte_out al h, fun l hl => ?_, ?_⟩
    · rw [State.copyFrame_errLines al df h] at hl
      exact bne_iff_ne.1 (List.mem_filter.1 hl).2
    · rw [State.copyFrame_frame al df h]
  case leaf =>
    exact ⟨migratedLeaf_frame l df, migratedLeaf_m l df.isLt, migratedLeaf_tier l df.isLt, migratedLeaf_low l df.isLt,
      migratedLeaf_high l df.isLt⟩

/-- Settles O47: each command of the window by the rules above. -/
theorem windowCommands : Obligations.WindowCommands := ⟨frameCommands, windowRegisterCommands, migrationEvents⟩

end Sys2Proof.Machine
end

section
/-!
PROOFS. Rounding to a format (spec/03 R86, R90, R104, R105): the encodings of a format by their fields, the neighbour that `quantise`
takes, and what `Fmt.round` forms of it (O12).
-/

namespace Sys2Proof.Machine

open Sys2Proof

/-! ### The neighbour that a rounding code names (R104) -/

theorem roundUp_exact (code : Nat) (neg odd : Bool) (sh : Nat) : roundUp code neg odd 0 sh = false := by
  have h := (Nat.two_pow_pos sh).ne
  unfold roundUp
  split <;> simp [h]

theorem roundUp_nearest (neg odd : Bool) (rem sh : Nat) :
    roundUp 0 neg odd rem sh = true ↔ 2 ^ sh < 2 * rem ∨ (2 * rem = 2 ^ sh ∧ odd = true) := by
  simp [roundUp]

theorem roundUp_down {neg odd : Bool} {rem sh : Nat} (h : rem ≠ 0) : roundUp 2 neg odd rem sh = neg := by
  simp [roundUp, h]

theorem roundUp_up {neg odd : Bool} {rem sh : Nat} (h : rem ≠ 0) : roundUp 3 neg odd rem sh = !neg := by
  simp [roundUp, h]

/-- A value whose unit is at or above the place is a whole count of it. -/
theorem quantise_above {code : Nat} {neg : Bool} {m : Nat} {e qe : Int} (h : qe ≤ e) :
    quantise code neg m e qe = (m * 2 ^ (e - qe).toNat, false) := if_pos h

/-- Below the place the count is cut off, and rises by one where the code rounds up. -/
theorem quantise_below {code : Nat} {neg : Bool} {m : Nat} {e qe : Int} (h : e < qe) :
    quantise code neg m e qe = (m / 2 ^ (qe - e).toNat +
      (roundUp code neg (m / 2 ^ (qe - e).toNat % 2 == 1) (m % 2 ^ (qe - e).toNat) (qe - e).toNat).toNat, m % 2 ^ (qe - e).toNat != 0) := by
  rw [quantise, if_neg (Int.not_le.2 h)]
  simp only
  cases roundUp code neg (m / 2 ^ (qe - e).toNat % 2 == 1) (m % 2 ^ (qe - e).toNat) (qe - e).toNat <;> rfl

/-- A whole count of the place below the value's unit is exact. -/
theorem quantise_scaled (code : Nat) (neg : Bool) (m k : Nat) (e : Int) : quantise code neg (m * 2 ^ k) (e - k) e = (m, false) := by
  obtain rfl | hk := Nat.eq_zero_or_pos k
  · simp [quantise]
  · rw [quantise_below (by omega), show (e - (e - (k : Int))).toNat = k by omega, Nat.mul_mod_left, roundUp_exact,
      Nat.mul_div_cancel _ (Nat.two_pow_pos k)]
    rfl

/-- What a rounding code makes of a count of `d` whole units and a part `r` of the unit `ulp` = 2^sh, where the count becomes `q`. -/
theorem roundUp_neighbour {code : Nat} (neg : Bool) {d r sh ulp : Nat} (hc : code < 4) (hu : ulp = 2 ^ sh) (hr : r < ulp) (h0 : r ≠ 0) :
    let q := d + (roundUp code neg (d % 2 == 1) r sh).toNat
    q * ulp < d * ulp + r + ulp ∧ d * ulp + r < q * ulp + ulp ∧
      (code = 0 → 2 * (d * ulp + r) ≤ 2 * (q * ulp) + ulp ∧ 2 * (q * ulp) ≤ 2 * (d * ulp + r) + ulp ∧ (2 * r = ulp → q % 2 = 0)) ∧
      (code = 1 → q * ulp < d * ulp + r) ∧ (code = 2 → (q * ulp < d * ulp + r ↔ neg = false)) ∧
      (code = 3 → (q * ulp < d * ulp + r ↔ neg = true)) := by
  have up : (d + 1) * ulp = d * ulp + ulp := Nat.succ_mul d ulp
  match code, hc with
  | 0, _ =>
    have hn := roundUp_nearest neg (d % 2 == 1) r sh
    rw [← hu] at hn
    cases h : roundUp 0 neg (d % 2 == 1) r sh <;> simp [h] at hn ⊢ <;> omega
  | 1, _ => simp [roundUp]; omega
  | 2, _ => rw [roundUp_down h0]; cases neg <;> simp <;> omega
  | 3, _ => rw [roundUp_up h0]; cases neg <;> simp <;> omega

/-- The count is cut off or the one after it. -/
theorem quantise_cases {code : Nat} {neg : Bool} {m : Nat} {e qe : Int} (h : e < qe) :
    m / 2 ^ (qe - e).toNat ≤ (quantise code neg m e qe).1 ∧ (quantise code neg m e qe).1 ≤ m / 2 ^ (qe - e).toNat + 1 := by
  rw [quantise_below h]
  exact ⟨Nat.le_add_right _ _, Nat.add_le_add_left (Bool.toNat_le _) _⟩

/-- The count of a value of `b` bits above the place is one of `b` + 1 bits, or the power of two above them. -/
theorem quantise_le {code : Nat} {neg : Bool} {m b : Nat} {e qe : Int} (h : e + Nat.log2 m ≤ qe + b) :
    (quantise code neg m e qe).1 ≤ 2 ^ (b + 1) := by
  have hm : m < 2 ^ (Nat.log2 m + 1) := Nat.lt_log2_self
  obtain hq | hq := Int.lt_or_le e qe
  · have hd : m / 2 ^ (qe - e).toNat < 2 ^ (b + 1) := by
      refine Nat.div_lt_of_lt_mul (hm.trans_le ?_)
      rw [← Nat.pow_add]
      exact Nat.pow_le_pow_right (by decide) (by omega)
    exact (quantise_cases hq).2.trans hd
  · rw [quantise_above hq]
    refine (Nat.mul_le_mul_right _ hm.le).trans ?_
    rw [← Nat.pow_add]
    exact Nat.pow_le_pow_right (by decide) (by omega)

theorem quantise_ge {code : Nat} {neg : Bool} {m b : Nat} {e qe : Int} (h0 : m ≠ 0) (h : qe + b ≤ e + Nat.log2 m) :
    2 ^ b ≤ (quantise code neg m e qe).1 := by
  have hm : 2 ^ Nat.log2 m ≤ m := Nat.log2_self_le h0
  obtain hq | hq := Int.lt_or_le e qe
  · refine le_trans ?_ (quantise_cases hq).1
    rw [Nat.le_div_iff_mul_le (Nat.two_pow_pos _), ← Nat.pow_add]
    exact (Nat.pow_le_pow_right (by decide) (by omega)).trans hm
  · rw [quantise_above hq]
    refine le_trans ?_ (Nat.mul_le_mul_right _ hm)
    rw [← Nat.pow_add]
    exact Nat.pow_le_pow_right (by decide) (by omega)

/-! ### Encodings by their fields (R86) -/

/-- What the lemmas on encodings need of a format. -/
theorem Fmt.wide_of_named {f : Fmt} (h : f = fp32 ∨ f = fp16 ∨ f = bf16 ∨ f = fp64) : 2 ≤ f.eb ∧ 1 ≤ f.fb := by
  obtain rfl | rfl | rfl | rfl := h <;> decide

/-- The encoding with a sign, an exponent field and a fraction field. -/
def Fmt.bits (f : Fmt) (neg : Bool) (ex fr : Nat) : Nat := f.zero neg + ex * 2 ^ f.fb + fr

theorem Fmt.bits_zero (f : Fmt) (neg : Bool) : f.bits neg 0 0 = f.zero neg := by simp [Fmt.bits]

theorem Fmt.bits_inf (f : Fmt) (neg : Bool) : f.bits neg (2 ^ f.eb - 1) 0 = f.inf neg := by simp [Fmt.bits, Fmt.inf, Fmt.zero]

/-- The largest finite magnitude has the highest exponent field of a finite value and a full fraction (R86). -/
theorem Fmt.bits_maxFin {f : Fmt} (hf : 2 ≤ f.eb) (neg : Bool) : f.bits neg (2 ^ f.eb - 2) (2 ^ f.fb - 1) = f.maxFin neg := by
  have h4 : 2 ^ 2 ≤ 2 ^ f.eb := Nat.pow_le_pow_right (by decide) hf
  have hp := Nat.two_pow_pos f.fb
  have hs : (2 ^ f.eb - 1) * 2 ^ f.fb = (2 ^ f.eb - 2) * 2 ^ f.fb + 2 ^ f.fb := by
    rw [show 2 ^ f.eb - 1 = 2 ^ f.eb - 2 + 1 by omega, Nat.succ_mul]
  simp only [Fmt.bits, Fmt.maxFin, Fmt.inf, Fmt.zero, hs]
  omega

theorem Fmt.bits_eq (f : Fmt) (neg : Bool) (ex fr : Nat) : f.bits neg ex fr = (neg.toNat * 2 ^ f.eb + ex) * 2 ^ f.fb + fr := by
  cases neg <;> simp [Fmt.bits, Fmt.zero, Nat.pow_add, Nat.add_mul]

section Fields
variable {f : Fmt} (neg : Bool) {ex fr : Nat} (hfr : fr < 2 ^ f.fb)
include hfr

theorem Fmt.bits_fraction : f.bits neg ex fr % 2 ^ f.fb = fr := by
  rw [f.bits_eq, Nat.mul_add_mod_of_lt hfr]

theorem Fmt.bits_div : f.bits neg ex fr / 2 ^ f.fb = neg.toNat * 2 ^ f.eb + ex := by
  rw [f.bits_eq, Nat.mul_comm, Nat.mul_add_div (Nat.two_pow_pos _), Nat.div_eq_of_lt hfr, Nat.add_zero]

variable (hex : ex < 2 ^ f.eb)
include hex

theorem Fmt.bits_exponent : f.bits neg ex fr / 2 ^ f.fb % 2 ^ f.eb = ex := by
  rw [Fmt.bits_div neg hfr, Nat.mul_add_mod_of_lt hex]

theorem Fmt.bits_sign : f.bits neg ex fr / 2 ^ (f.eb + f.fb) % 2 = neg.toNat := by
  rw [Nat.add_comm, Nat.pow_add, ← Nat.div_div_eq_div_mul, Fmt.bits_div neg hfr, Nat.mul_comm,
    Nat.mul_add_div (Nat.two_pow_pos _), Nat.div_eq_of_lt hex]
  cases neg <;> rfl

/-- Reading an encoding by its fields (R86, R91). -/
theorem Fmt.read_bits (subn : Bool) : f.read subn (f.bits neg ex fr) =
    if ex = 2 ^ f.eb - 1 then (if fr = 0 then .inf neg else .nan (fr / 2 ^ (f.fb - 1) == 0))
    else if ex = 0 then .fin neg (if subn then 0 else fr) (1 - f.bias - f.fb) else .fin neg (2 ^ f.fb + fr) (ex - f.bias - f.fb) := by
  simp only [Fmt.read, Fmt.bits_sign neg hfr hex, Fmt.bits_exponent neg hfr hex, Fmt.bits_fraction neg hfr]
  cases neg <;> rfl

end Fields

/-- The fields of a number make up its low bits. -/
theorem Fmt.bits_fields (f : Fmt) (w : Nat) :
    f.bits (w / 2 ^ (f.eb + f.fb) % 2 == 1) (w / 2 ^ f.fb % 2 ^ f.eb) (w % 2 ^ f.fb) = w % 2 ^ (1 + f.eb + f.fb) := by
  have hs : (w / 2 ^ (f.eb + f.fb) % 2 == 1).toNat = w / 2 ^ f.fb / 2 ^ f.eb % 2 := by
    rw [Nat.div_div_eq_div_mul, ← Nat.pow_add, Nat.add_comm f.fb]
    obtain h | h := Nat.mod_two_eq_zero_or_one (w / 2 ^ (f.eb + f.fb)) <;> simp [h]
  rw [f.bits_eq, hs, show 2 ^ (1 + f.eb + f.fb) = 2 ^ f.fb * (2 ^ f.eb * 2) by rw [Nat.pow_add, Nat.pow_add]; ring, Nat.mod_mul,
    Nat.mod_mul]
  ring

/-- A format reads the bits that it has. -/
theorem Fmt.read_mod (f : Fmt) (subn : Bool) (w : Nat) : f.read subn (w % 2 ^ (1 + f.eb + f.fb)) = f.read subn w := by
  rw [← f.bits_fields w, Fmt.read_bits _ (Nat.mod_lt _ (Nat.two_pow_pos _)) (Nat.mod_lt _ (Nat.two_pow_pos _))]
  rfl

section Finite
variable {f : Fmt} (hf : 2 ≤ f.eb)
include hf

theorem Fmt.two_pow_eb : 2 ^ f.eb = 2 * f.bias + 2 ∧ 1 ≤ f.bias := by
  have h2 : 2 ^ 1 ≤ 2 ^ (f.eb - 1) := Nat.pow_le_pow_right (by decide) (by omega)
  have hs : 2 ^ f.eb = 2 ^ (f.eb - 1) * 2 := by rw [← Nat.pow_succ]; congr 1; omega
  simp only [Fmt.bias]
  omega

theorem Fmt.read_subnormal (neg : Bool) {fr : Nat} (hfr : fr < 2 ^ f.fb) :
    f.read false (f.bits neg 0 fr) = .fin neg fr (1 - f.bias - f.fb) := by
  have hb := Fmt.two_pow_eb hf
  rw [Fmt.read_bits neg hfr (by omega), if_neg (by omega), if_pos rfl]
  rfl

omit hf in
theorem Fmt.read_normal (neg : Bool) {ex fr : Nat} (h0 : 0 < ex) (h1 : ex < 2 ^ f.eb - 1) (hfr : fr < 2 ^ f.fb) :
    f.read false (f.bits neg ex fr) = .fin neg (2 ^ f.fb + fr) (ex - f.bias - f.fb) := by
  rw [Fmt.read_bits neg hfr (by omega), if_neg (by omega), if_neg (by omega)]

/-- A finite value of a format: its encoding, and its magnitude in units of its last place. -/
theorem Fmt.fin_of_read {w m : Nat} {n : Bool} {e : Int} (h : f.read false w = .fin n m e) : ∃ ex fr,
    w % 2 ^ (1 + f.eb + f.fb) = f.bits n ex fr ∧ ex < 2 ^ f.eb - 1 ∧ fr < 2 ^ f.fb ∧
      ((ex = 0 ∧ m = fr ∧ e = 1 - f.bias - f.fb) ∨ (0 < ex ∧ m = 2 ^ f.fb + fr ∧ e = ex - f.bias - f.fb)) := by
  have hb := Fmt.two_pow_eb hf
  have hex : w / 2 ^ f.fb % 2 ^ f.eb < 2 ^ f.eb := Nat.mod_lt _ (Nat.two_pow_pos _)
  have hfr : w % 2 ^ f.fb < 2 ^ f.fb := Nat.mod_lt _ (Nat.two_pow_pos _)
  rw [← f.read_mod, ← f.bits_fields w, Fmt.read_bits _ hfr hex] at h
  split at h
  · split at h <;> cases h
  · rename_i top
    split at h <;> cases h
    · exact ⟨_, _, (f.bits_fields w).symm, by omega, hfr, .inl ⟨‹_›, rfl, rfl⟩⟩
    · exact ⟨_, _, (f.bits_fields w).symm, by omega, hfr, .inr ⟨by omega, rfl, rfl⟩⟩

end Finite

/-! ### What a rounding forms (R90, R105) -/

/-- The exponent of the last place that a value rounds to in a format. -/
def Fmt.place (f : Fmt) (m : Nat) (e : Int) : Int := max (e + Nat.log2 m - f.fb) (1 - f.bias - f.fb)

/-- The rounded count and the exponent of its place: a count that carries to 2^(fb+1) is half of it at the next place. -/
def Fmt.count (f : Fmt) (r : Rnd) (neg : Bool) (m : Nat) (e : Int) : Nat × Int :=
  let q := (quantise r.rnd neg m e (f.place m e)).1
  if q = 2 ^ (f.fb + 1) then (2 ^ f.fb, f.place m e + 1) else (q, f.place m e)

/-- The flags of a rounding that neither overflows nor flushes: NX, and UF where the result is tiny too (R90). -/
def Fmt.inexact (f : Fmt) (r : Rnd) (neg : Bool) (m : Nat) (e : Int) : Word :=
  let big : Int := e + Nat.log2 m
  let emin : Int := 1 - f.bias
  let tiny := decide (big < emin) && decide ((quantise r.rnd neg m e (big - f.fb)).1 ≠ 2 ^ (f.fb + 1) ∨ big + 1 < emin)
  let nx := (quantise r.rnd neg m e (f.place m e)).2
  flagIf nx fNX ||| flagIf (tiny && nx) fUF

/-- What an overflow gives (R105). -/
def Fmt.overflow (f : Fmt) (r : Rnd) (neg : Bool) : Nat × Word :=
  if r.rnd = 0 ∨ (r.rnd = 2 ∧ neg = true) ∨ (r.rnd ≠ 0 ∧ r.rnd ≠ 1 ∧ r.rnd ≠ 2 ∧ neg = false) then
    (if r.sat then (f.inf neg - 1, fOF ||| fNX ||| fSAT) else (f.inf neg, fOF ||| fNX))
  else (f.inf neg - 1, fOF ||| fNX)

theorem Fmt.round_zero (f : Fmt) (r : Rnd) (neg : Bool) (e : Int) : f.round r neg 0 e = (f.zero neg, 0) := rfl

theorem Fmt.inexact_of_exact {f : Fmt} {r : Rnd} {neg : Bool} {m q : Nat} {e : Int}
    (h : quantise r.rnd neg m e (f.place m e) = (q, false)) : f.inexact r neg m e = 0 := by
  simp [Fmt.inexact, h, flagIf]

/-- The result of rounding a nonzero value, by its rounded count (R90, R91, R105). -/
theorem Fmt.round_eq (f : Fmt) (r : Rnd) (neg : Bool) {m : Nat} (e : Int) (h0 : m ≠ 0) : f.round r neg m e =
    (let (q, qe) := f.count r neg m e
    if 2 ^ f.fb ≤ q ∧ (f.bias : Int) < qe + f.fb then f.overflow r neg
    else if q < 2 ^ f.fb then
      if r.subn && q != 0 then (f.zero neg, fUF ||| fNX) else (f.bits neg 0 q, f.inexact r neg m e)
    else (f.bits neg (qe - (1 - f.bias - f.fb) + 1).toNat (q - 2 ^ f.fb), f.inexact r neg m e)) := by
  have ho : (let infinite := match r.rnd with
        | 0 => true
        | 1 => false
        | 2 => neg
        | _ => !neg
      if infinite then (if r.sat then (f.maxFin neg, fOF ||| fNX ||| fSAT) else (f.inf neg, fOF ||| fNX))
      else (f.maxFin neg, fOF ||| fNX)) = f.overflow r neg := by
    unfold Fmt.overflow Fmt.maxFin
    split <;> simp_all
  rw [Fmt.round, if_neg h0, ← ho]
  simp only [Fmt.bits, Nat.zero_mul, Nat.add_zero]
  rfl

theorem Fmt.count_of_lt {f : Fmt} {r : Rnd} {neg : Bool} {m : Nat} {e : Int}
    (h : (quantise r.rnd neg m e (f.place m e)).1 < 2 ^ (f.fb + 1)) :
    f.count r neg m e = ((quantise r.rnd neg m e (f.place m e)).1, f.place m e) := if_neg h.ne

section Round
variable (f : Fmt) (r : Rnd) (neg : Bool) {m : Nat} (e : Int)

theorem Fmt.count_lt : (f.count r neg m e).1 < 2 ^ (f.fb + 1) := by
  have hq : (quantise r.rnd neg m e (f.place m e)).1 ≤ 2 ^ (f.fb + 1) := quantise_le (by simp only [Fmt.place]; omega)
  have hp : 2 ^ f.fb < 2 ^ (f.fb + 1) := Nat.pow_lt_pow_right (by decide) (Nat.lt_succ_self _)
  rw [Fmt.count]
  split <;> dsimp only <;> omega

theorem Fmt.count_place : 1 - f.bias - f.fb ≤ (f.count r neg m e).2 := by
  have hp : 1 - (f.bias : Int) - f.fb ≤ f.place m e := le_max_right _ _
  rw [Fmt.count]
  split <;> dsimp only <;> omega

/-- A count below 2^fb stands at the lowest place of the format. -/
theorem Fmt.place_of_small (h0 : m ≠ 0) (h : (quantise r.rnd neg m e (f.place m e)).1 < 2 ^ f.fb) : f.place m e = 1 - f.bias - f.fb := by
  by_contra hne
  refine Nat.not_lt.2 (quantise_ge (b := f.fb) h0 ?_) h
  simp only [Fmt.place] at hne ⊢
  omega

end Round

/-- What `Fmt.round` reads back as where the count is not too large (R90): the count, at its place. -/
theorem Fmt.read_round {f : Fmt} (hf : 2 ≤ f.eb) {r : Rnd} (hs : r.subn = false) (neg : Bool) {m : Nat} (e : Int) (h0 : m ≠ 0)
    (hq : (quantise r.rnd neg m e (f.place m e)).1 < 2 ^ (f.fb + 1)) (hp : f.place m e + f.fb ≤ f.bias) :
    f.read false (f.round r neg m e).1 = .fin neg (quantise r.rnd neg m e (f.place m e)).1 (f.place m e) := by
  have hb := Fmt.two_pow_eb hf
  have hl : 1 - (f.bias : Int) - f.fb ≤ f.place m e := le_max_right _ _
  rw [Fmt.round_eq f r neg e h0, Fmt.count_of_lt hq]
  simp only [hs, Bool.false_and]
  rw [if_neg (by omega)]
  split
  · rename_i small
    rw [if_neg (by decide), Fmt.read_subnormal hf neg small, f.place_of_small r neg e h0 small]
  · rename_i large
    have hfr : (quantise r.rnd neg m e (f.place m e)).1 - 2 ^ f.fb < 2 ^ f.fb := by rw [Nat.pow_succ] at hq; omega
    rw [Fmt.read_normal neg (by omega) (by omega) hfr]
    congr 1 <;> omega

/-- The place of a value whose magnitude a format holds is the value's own, however the value is counted. -/
theorem Fmt.place_scaled (f : Fmt) {m : Nat} (k : Nat) (e : Int) (h0 : m ≠ 0) : f.place (m * 2 ^ k) (e - k) = f.place m e := by
  have hl : Nat.log2 (m * 2 ^ k) = Nat.log2 m + k := by
    rw [Nat.log2_eq_iff (Nat.mul_ne_zero h0 (Nat.two_pow_pos k).ne')]
    constructor
    · rw [Nat.pow_add]; exact Nat.mul_le_mul_right _ (Nat.log2_self_le h0)
    · rw [Nat.add_right_comm, Nat.pow_add]; exact Nat.mul_lt_mul_of_pos_right Nat.lt_log2_self (Nat.two_pow_pos k)
  simp only [Fmt.place, hl]
  omega

/-- Rounding a value that a format holds, however it is counted, gives back its encoding with no flag (R86, R90). -/
theorem Fmt.round_exact {f : Fmt} (hf : 2 ≤ f.eb) (r : Rnd) (hs : r.subn = false) {w m : Nat} {n : Bool} {e : Int} (k : Nat)
    (h : f.read false w = .fin n m e) : f.round r n (m * 2 ^ k) (e - k) = (w % 2 ^ (1 + f.eb + f.fb), 0) := by
  have hb := Fmt.two_pow_eb hf
  obtain ⟨ex, fr, hw, hex, hfr, hv⟩ := Fmt.fin_of_read hf h
  obtain rfl | h0 := Nat.eq_zero_or_pos m
  · obtain ⟨rfl, rfl, -⟩ | ⟨-, hm, -⟩ := hv
    · rw [Nat.zero_mul, Fmt.round_zero, hw, Fmt.bits_zero]
    · have := Nat.two_pow_pos f.fb
      omega
  · have hn : m * 2 ^ k ≠ 0 := Nat.mul_ne_zero h0.ne' (Nat.two_pow_pos k).ne'
    have hm : m < 2 ^ (f.fb + 1) := by rw [Nat.pow_succ]; omega
    have hp : f.place m e = e := by
      obtain ⟨-, rfl, rfl⟩ | ⟨hx, rfl, rfl⟩ := hv
      · have := (Nat.log2_lt h0.ne').2 hfr
        simp only [Fmt.place]
        omega
      · have : Nat.log2 (2 ^ f.fb + fr) = f.fb := (Nat.log2_eq_iff h0.ne').2 ⟨by omega, by rw [Nat.pow_succ]; omega⟩
        simp only [Fmt.place, this]
        omega
    have hq : quantise r.rnd n (m * 2 ^ k) (e - k) (f.place (m * 2 ^ k) (e - k)) = (m, false) := by
      rw [f.place_scaled k e h0.ne', hp, quantise_scaled]
    rw [f.round_eq r n _ hn, Fmt.count_of_lt (by rw [hq]; exact hm), Fmt.inexact_of_exact hq, hq, f.place_scaled k e h0.ne', hp, hw]
    simp only [hs, Bool.false_and]
    obtain ⟨rfl, rfl, rfl⟩ | ⟨hx, rfl, rfl⟩ := hv
    · rw [if_neg (by omega), if_pos hfr, if_neg (by decide)]
    · rw [if_neg (by omega), if_neg (by omega)]
      congr 2 <;> omega

/-! ### The claims -/

theorem roundExact : Claims.RoundExact := by
  intro f named r w hw hs n m e h
  have hx := Fmt.round_exact (Fmt.wide_of_named named).1 r hs 0 h
  rwa [Nat.pow_zero, Nat.mul_one, Int.natCast_zero, Int.sub_zero, Nat.mod_eq_of_lt hw] at hx

theorem roundResult : Claims.RoundResult := by
  refine ⟨fun code neg m e qe hc h => ⟨fun h0 => ?whole, fun h0 => ?part⟩, fun f named r neg m e hs hr h0 => ⟨fun hq hp => ?held, ?large⟩⟩
  case whole => rw [quantise_below h, h0, roundUp_exact]; rfl
  case part =>
    have hn := roundUp_neighbour neg (d := m / 2 ^ (qe - e).toNat) hc rfl (Nat.mod_lt m (Nat.two_pow_pos (qe - e).toNat)) h0
    rw [Nat.div_add_mod'] at hn
    rw [quantise_below h]
    exact ⟨by simpa using h0, hn⟩
  case held => exact Fmt.read_round (Fmt.wide_of_named named).1 hs neg e h0 hq hp
  case large =>
    intro hl hq hp
    rw [f.round_eq r neg e h0, Fmt.count_of_lt hq]
    refine (if_pos ⟨hl, hp⟩).trans ?_
    unfold Fmt.overflow
    refine if_congr ?_ rfl rfl
    obtain ⟨rnd, sat, subn⟩ := r
    interval_cases rnd <;> simp

/-- Settles O12: the neighbour by the code, the encoding by its fields, and the overflow. -/
theorem rounding : Obligations.Rounding := ⟨roundExact, roundResult⟩

end Sys2Proof.Machine
end

section
/-!
PROOFS. Exact arithmetic on floating-point values (spec/03 R89, R91, spec/06 R186 to R188): sums and products counted in any unit, the
invalid operations, and the order of FMIN and FMAX.
-/

namespace Sys2Proof.Machine

open Sys2Proof

/-! ### Values as counts of a unit -/

theorem scaled_eq_unitsAt (n : Bool) (m : Nat) (e e0 : Int) : scaled n m e e0 = unitsAt n m e e0 := by
  cases n <;> simp [scaled, unitsAt]

@[simp] theorem unitsAt_zero (n : Bool) (e e0 : Int) : unitsAt n 0 e e0 = 0 := by simp [unitsAt]

theorem unitsAt_eq_zero {n : Bool} {m : Nat} {e e0 : Int} : unitsAt n m e e0 = 0 ↔ m = 0 := by
  cases n <;> simp [unitsAt]

/-- A smaller unit is counted a power of two more often. -/
theorem unitsAt_lower (n : Bool) (m : Nat) {e e1 e0 : Int} (h1 : e1 ≤ e) (h0 : e0 ≤ e1) :
    unitsAt n m e e0 = unitsAt n m e e1 * 2 ^ (e1 - e0).toNat := by
  rw [unitsAt, unitsAt, show (e - e0).toNat = (e - e1).toNat + (e1 - e0).toNat by omega, Int.pow_add, Int.mul_assoc, Int.mul_assoc,
    Int.mul_assoc]

/-- An integer as a signed magnitude. -/
theorem unitsAt_natAbs (v : Int) (e e0 : Int) : unitsAt (decide (v < 0)) v.natAbs e e0 = v * 2 ^ (e - e0).toNat := by
  unfold unitsAt
  by_cases h : v < 0
  · rw [decide_eq_true h, Int.ofNat_natAbs_of_nonpos (by omega)]
    simp
  · rw [decide_eq_false h, Int.natAbs_of_nonneg (by omega)]
    simp

theorem unitsAt_neg_add (n : Bool) (m : Nat) (e e0 : Int) : unitsAt n m e e0 + unitsAt (!n) m e e0 = 0 := by
  cases n <;> simp [unitsAt]

theorem unitsAt_mul (n1 n2 : Bool) (m1 m2 : Nat) {e1 e2 a b : Int} (ha : a ≤ e1) (hb : b ≤ e2) :
    unitsAt (n1 != n2) (m1 * m2) (e1 + e2) (a + b) = unitsAt n1 m1 e1 a * unitsAt n2 m2 e2 b := by
  rw [unitsAt, unitsAt, unitsAt, show (e1 + e2 - (a + b)).toNat = (e1 - a).toNat + (e2 - b).toNat by omega, Int.pow_add]
  cases n1 <;> cases n2 <;> simp <;> ring

/-! ### Sums, products and the fused operation (R186, R188) -/

theorem addFin_units (r : Nat) (n1 n2 : Bool) (m1 m2 : Nat) (e1 e2 : Int) : ∃ n m, addFin r n1 m1 e1 n2 m2 e2 = .fin n m (min e1 e2) ∧
    (m1 = 0 → m2 = 0 → n1 = n2 → n = n1) ∧
    ∀ e0, e0 ≤ e1 → e0 ≤ e2 → unitsAt n m (min e1 e2) e0 = unitsAt n1 m1 e1 e0 + unitsAt n2 m2 e2 e0 := by
  have total (e0 : Int) (h1 : e0 ≤ e1) (h2 : e0 ≤ e2) : (unitsAt n1 m1 e1 (min e1 e2) + unitsAt n2 m2 e2 (min e1 e2)) *
      2 ^ (min e1 e2 - e0).toNat = unitsAt n1 m1 e1 e0 + unitsAt n2 m2 e2 e0 := by
    rw [Int.add_mul, ← unitsAt_lower n1 m1 (min_le_left _ _) (le_min h1 h2), ← unitsAt_lower n2 m2 (min_le_right _ _) (le_min h1 h2)]
  simp only [addFin, scaled_eq_unitsAt]
  split
  · rename_i cancel
    refine ⟨_, 0, rfl, fun h1 h2 hn => if_pos ⟨h1, h2, hn⟩, fun e0 h1 h2 => ?_⟩
    rw [unitsAt_zero, ← total e0 h1 h2, cancel, Int.zero_mul]
  · rename_i left
    refine ⟨_, _, rfl, fun h1 h2 _ => absurd ?_ left, fun e0 h1 h2 => ?_⟩
    · rw [h1, h2, unitsAt_zero, unitsAt_zero, Int.add_zero]
    · rw [unitsAt_natAbs, total e0 h1 h2]

theorem exactArithmetic : Claims.ExactArithmetic := by
  intro r n1 n2 n3 m1 m2 m3 e1 e2 e3
  refine ⟨?sum, ⟨_, _, rfl, fun a b ha hb _ => unitsAt_mul n1 n2 m1 m2 ha hb⟩, ?fused, rfl, rfl, ?_, rfl, fun h => ?_⟩
  case sum =>
    obtain ⟨n, m, h, hn, hu⟩ := addFin_units r n1 n2 m1 m2 e1 e2
    exact ⟨n, m, _, congrArg Exact.val h, hn, fun e0 _ => hu e0⟩
  case fused =>
    obtain ⟨n, m, h, -, hu⟩ := addFin_units r (n1 != n2) n3 (m1 * m2) m3 (e1 + e2) e3
    refine ⟨n, m, _, congrArg Exact.val h, fun a b ha hb _ h3 => ?_⟩
    rw [hu (a + b) (by omega) h3, unitsAt_mul n1 n2 m1 m2 ha hb]
  · simp [FpVal.add]
  · simp [FpVal.mul, h]

/-- Two values of equal magnitude and opposite sign cancel, with the sign of R186. -/
theorem addFin_cancel (r : Nat) (n : Bool) (m : Nat) (e : Int) : addFin r n m e (!n) m e = .fin (r == 2) 0 e := by
  simp only [addFin, scaled_eq_unitsAt, Int.min_self, unitsAt_neg_add, if_true]
  cases n <;> simp

theorem FpVal.sig_add (r : Nat) (x : FpVal) : (FpVal.nan true).add r x = .invalid ∧ x.add r (.nan true) = .invalid := by
  cases x <;> simp [FpVal.add]

theorem FpVal.sig_mul (x : FpVal) : (FpVal.nan true).mul x = .invalid ∧ x.mul (.nan true) = .invalid := by
  cases x <;> simp [FpVal.mul]

theorem FpVal.quiet_add (r : Nat) {x : FpVal} (h : x.isSig = false) :
    (FpVal.nan false).add r x = .val (.nan false) ∧ x.mul (.nan false) = .val (.nan false) := by
  cases x <;> simp_all [FpVal.add, FpVal.mul, FpVal.isSig]

theorem invalidOperations : Claims.InvalidOperations := by
  intro f r n e x
  have zeroInf : (FpVal.fin n 0 e).mul (.inf n) = .invalid := by simp [FpVal.mul]
  have infZero : (FpVal.inf n).mul (.fin n 0 e) = .invalid := by simp [FpVal.mul]
  have infInf : (FpVal.inf n).add r.rnd (.inf !n) = .invalid := by cases n <;> rfl
  refine ⟨by rw [infInf]; rfl, by rw [zeroInf]; rfl, by rw [infZero]; rfl, by rw [FpVal.fma, zeroInf]; rfl, by rw [FpVal.fma, infZero]; rfl,
    by rw [(FpVal.sig_add _ x).1]; rfl, by rw [(FpVal.sig_add _ x).2]; rfl, by rw [(FpVal.sig_mul x).1]; rfl,
    by rw [(FpVal.sig_mul x).2]; rfl, fun h => ?_, fun m => ?_⟩
  · rw [(FpVal.quiet_add r.rnd h).1, (FpVal.quiet_add r.rnd h).2]
    exact ⟨rfl, rfl⟩
  · show f.finish r (.val (addFin r.rnd n m e (!n) m e)) = _
    rw [addFin_cancel]
    rfl

/-! ### The order of FMIN and FMAX (R89) -/

/-- The order of two finite values shows in any unit. -/
theorem unitsAt_lt_iff (n n' : Bool) (m m' : Nat) (e e' : Int) :
    (∀ e0, e0 ≤ e → e0 ≤ e' → unitsAt n m e e0 < unitsAt n' m' e' e0) ↔ unitsAt n m e (min e e') < unitsAt n' m' e' (min e e') := by
  refine ⟨fun h => h _ (min_le_left _ _) (min_le_right _ _), fun h e0 h1 h2 => ?_⟩
  rw [unitsAt_lower n m (min_le_left e e') (le_min h1 h2), unitsAt_lower n' m' (min_le_right e e') (le_min h1 h2)]
  exact Int.mul_lt_mul_of_pos_right h (Int.pow_pos (by decide))

theorem FpVal.lt_iff_below {x y : FpVal} (hx : x.isNan = false) (hy : y.isNan = false) : x.lt true y = true ↔ x.Below y := by
  match x, y with
  | .nan _, _ => cases hx
  | .inf _, .nan _ => cases hy
  | .fin .., .nan _ => cases hy
  | .inf a, .inf b => simp [FpVal.lt, FpVal.Below]
  | .inf a, .fin .. => rfl
  | .fin .., .inf b => simp [FpVal.lt, FpVal.Below]
  | .fin n m e, .fin n' m' e' =>
    simp only [FpVal.lt, FpVal.Below, scaled_eq_unitsAt, unitsAt_lt_iff, unitsAt_eq_zero]
    simp [and_assoc]

/-- An operand as FMIN and FMAX return it, by its fields: with SUBN, a subnormal is the zero of its sign (R91). -/
theorem Fmt.flush_bits {f : Fmt} (hf : 2 ≤ f.eb) (subn neg : Bool) {ex fr : Nat} (hex : ex < 2 ^ f.eb) (hfr : fr < 2 ^ f.fb) :
    f.flush subn (f.bits neg ex fr) = if subn = true ∧ ex = 0 then f.zero neg else f.bits neg ex fr := by
  have hb := Fmt.two_pow_eb hf
  have hp := Nat.two_pow_pos f.fb
  rw [Fmt.flush, Fmt.read_bits neg hfr hex]
  by_cases top : ex = 2 ^ f.eb - 1
  · rw [if_pos top, if_neg (show ¬(subn = true ∧ ex = 0) by omega)]
    by_cases h : fr = 0
    · rw [if_pos h]
    · rw [if_neg h]
  rw [if_neg top]
  by_cases low : ex = 0
  · subst low
    rw [if_pos rfl]
    cases subn with
    | true => simp
    | false => cases fr <;> simp [Fmt.bits_zero]
  · obtain ⟨k, hk⟩ : ∃ k, 2 ^ f.fb + fr = k + 1 := ⟨_, (Nat.sub_add_cancel (by omega)).symm⟩
    rw [if_neg low, if_neg (by simp [low]), hk]
    rfl

theorem Fmt.flush_eq {f : Fmt} (hf : 2 ≤ f.eb) (subn : Bool) {w : Nat} (hw : w < 2 ^ (1 + f.eb + f.fb)) : f.flush subn w =
    if subn = true ∧ w / 2 ^ f.fb % 2 ^ f.eb = 0 then w / 2 ^ (f.eb + f.fb) * 2 ^ (f.eb + f.fb) else w := by
  have hs : w / 2 ^ (f.eb + f.fb) < 2 :=
    Nat.div_lt_of_lt_mul (by rwa [Nat.mul_comm, ← Nat.pow_succ', Nat.succ_eq_add_one, Nat.add_comm, ← Nat.add_assoc])
  have hz : f.zero (w / 2 ^ (f.eb + f.fb) % 2 == 1) = w / 2 ^ (f.eb + f.fb) * 2 ^ (f.eb + f.fb) := by
    interval_cases w / 2 ^ (f.eb + f.fb) <;> simp [Fmt.zero]
  have hfl := Fmt.flush_bits hf subn (w / 2 ^ (f.eb + f.fb) % 2 == 1) (Nat.mod_lt (w / 2 ^ f.fb) (Nat.two_pow_pos f.eb))
    (Nat.mod_lt w (Nat.two_pow_pos f.fb))
  rwa [f.bits_fields, Nat.mod_eq_of_lt hw, hz] at hfl

/-- FMIN and FMAX of two operands that are no NaN: the lower and the higher one, and the first of two equal ones. -/
theorem Fmt.minMax_ordered (f : Fmt) (subn mx : Bool) {a b : Nat} (ha : (f.read subn a).isNan = false) (hb : (f.read subn b).isNan = false) :
    f.minMax subn mx a b =
      (f.flush subn (if (if mx then (f.read subn a).lt true (f.read subn b) else (f.read subn b).lt true (f.read subn a)) then b else a),
        flagIf ((f.read subn a).isSig || (f.read subn b).isSig) fNV) := by
  simp only [Fmt.minMax, ha, hb]
  cases mx <;> cases (f.read subn a).lt true (f.read subn b) <;> cases (f.read subn b).lt true (f.read subn a) <;> rfl

/-- No value stands below one that stands below it. -/
theorem FpVal.lt_asymm {x y : FpVal} (h : x.lt true y = true) : y.lt true x = false := by
  match x, y with
  | .nan _, y => cases h
  | .inf _, .nan _ => cases h
  | .fin .., .nan _ => cases h
  | .inf a, .inf b => simp_all [FpVal.lt]
  | .inf a, .fin .. => simp_all [FpVal.lt]
  | .fin .., .inf b => simp_all [FpVal.lt]
  | .fin n m e, .fin n' m' e' =>
    simp only [FpVal.lt, min_comm e' e] at h ⊢
    grind

theorem minimumMaximum : Claims.MinimumMaximum := by
  intro f named subn a b ha hb
  have hf := (Fmt.wide_of_named named).1
  have hfa := Fmt.flush_eq hf subn ha
  have hfb := Fmt.flush_eq hf subn hb
  refine ⟨fun hx hy => ?_, fun hx hy => ?_, fun hx hy => ?_, fun hx hy => ⟨fun hl => ?_, fun hl => ?_, fun h1 h2 => ?_⟩⟩
  · simp [Fmt.minMax, hx, hy, flagIf]
  · simp [Fmt.minMax, hx, hy, flagIf, hfb]
  · simp [Fmt.minMax, hx, hy, flagIf, hfa]
  · rw [← FpVal.lt_iff_below hx hy] at hl
    simp [Fmt.minMax_ordered f subn _ hx hy, hl, FpVal.lt_asymm hl, flagIf, hfa, hfb]
  · rw [← FpVal.lt_iff_below hy hx] at hl
    simp [Fmt.minMax_ordered f subn _ hx hy, hl, FpVal.lt_asymm hl, flagIf, hfa, hfb]
  · rw [← FpVal.lt_iff_below hx hy, Bool.not_eq_true] at h1
    rw [← FpVal.lt_iff_below hy hx, Bool.not_eq_true] at h2
    simp [Fmt.minMax_ordered f subn _ hx hy, h1, h2, flagIf, hfa]

end Sys2Proof.Machine
end

section
/-!
PROOFS. The lane operations on floating-point values (spec/04 R128, spec/06 R186 to R190): what an instruction completes with, by the
exact result of its operands (O7), and the packed pairs.
-/

namespace Sys2Proof.Machine

open Sys2Proof

/-! ### How a lane operation completes -/

/-- A floating-point word completes with the value and the flags of its operation, where the registers that it reads and writes are
among those that are free. -/
theorem fpOp_completes {i : Instr} {s : State} {k : Ctx} {q : Bool} {regs : List Dst} {len : Nat} {rd : List (BitVec 6)} {d : BitVec 6}
    {f : Word → Thread → Word × Word} {v fl : Word} (hi : exec i s = fpOp len q rd d f s) (h : CanRun s k q regs)
    (sub : ∀ x ∈ rd.map Dst.x ++ [.x d], x ∈ regs) (hf : f k.crew.mode (k.cued q).t = (v, fl)) :
    CompletesFlags i s k ((k.cued q).t.setX d v) len fl := by
  rw [CompletesFlags, hi, fpOp_run (h.sub sub), hf]

/-- A word that writes one general register and sets no flag completes. -/
theorem aluOp_completes {i : Instr} {s : State} {k : Ctx} {q : Bool} {regs : List Dst} {len : Nat} {rd : List (BitVec 6)} {d : BitVec 6}
    {f : Thread → Word} {v : Word} (hi : exec i s = aluOp len q rd d f s) (h : CanRun s k q regs)
    (sub : ∀ x ∈ rd.map Dst.x ++ [.x d], x ∈ regs) (hf : f (k.cued q).t = v) : Completes i s k ((k.cued q).t.setX d v) len := by
  rw [Completes, hi, aluOp_run (h.sub sub), hf]

/-! ### Bits of a word -/

/-- The sign bit cleared leaves the magnitude. -/
theorem and_magnitude (v : Word) : v &&& 0x7FFFFFFF = BitVec.ofNat 32 (v.toNat % 2 ^ 31) := by
  apply BitVec.eq_of_toNat_eq
  rw [BitVec.toNat_and, BitVec.toNat_ofNat, Nat.mod_eq_of_lt (by omega)]
  exact Nat.and_two_pow_sub_one_eq_mod v.toNat 31

theorem and_sign_toNat (v : Word) : (v &&& 0x80000000).toNat = v.toNat / 2 ^ 31 * 2 ^ 31 := by
  have h : v.toNat / 2 ^ 31 < 2 := by omega
  rw [BitVec.toNat_and]
  refine (Nat.and_two_pow v.toNat 31).trans ?_
  rw [Nat.testBit_eq_decide_div_mod_eq]
  interval_cases v.toNat / 2 ^ 31 <;> rfl

/-- The magnitude of one word with the sign of another. -/
theorem magnitude_or_sign (v w : Word) :
    v &&& 0x7FFFFFFF ||| w &&& 0x80000000 = BitVec.ofNat 32 (v.toNat % 2 ^ 31 + w.toNat / 2 ^ 31 * 2 ^ 31) := by
  have hm : v.toNat % 2 ^ 31 < 2 ^ 31 := Nat.mod_lt _ (by decide)
  have hs : v.toNat % 2 ^ 31 + w.toNat / 2 ^ 31 * 2 ^ 31 < 2 ^ 32 := by omega
  apply BitVec.eq_of_toNat_eq
  rw [BitVec.toNat_or, and_sign_toNat, and_magnitude, BitVec.toNat_ofNat, BitVec.toNat_ofNat,
    Nat.mod_eq_of_lt (hm.trans (by decide : 2 ^ 31 < 2 ^ 32)), Nat.mod_eq_of_lt hs, Nat.or_comm, Nat.mul_comm,
    ← Nat.two_pow_add_eq_or_of_lt hm, Nat.add_comm]

/-! ### FALU, the narrow forms and the fused operations -/

theorem floatResults_lane : Claims.FloatResults := by
  intro q d a b c n m s k h r v bits w
  refine ⟨fpOp_completes (exec_fadd ..) h (by simp) ?_, fpOp_completes (exec_fsub ..) h (by simp) ?_,
    fpOp_completes (exec_fmul ..) h (by simp) ?_, fpOp_completes (exec_fmin ..) h (by simp) ?_,
    fpOp_completes (exec_fmax ..) h (by simp) ?_, fpOp_completes (exec_ffma ..) h (by simp) ?_,
    fpOp_completes (exec_ffms ..) h (by simp) ?_, fpOp_completes (exec_fnma ..) h (by simp) ?_,
    aluOp_completes (exec_fabs ..) h (by simp) ?fabs, aluOp_completes (exec_fneg ..) h (by simp) ?fneg,
    aluOp_completes (exec_fsgnj ..) h (by simp) ?fsgnj, fun hn => ⟨fpOp_completes (q := false) (exec_faddN ..) hn (by simp) rfl,
      fpOp_completes (q := false) (exec_fsubN ..) hn (by simp) rfl, fpOp_completes (q := false) (exec_fmulN ..) hn (by simp) rfl,
      fpOp_completes (q := false) (exec_fminN ..) hn (by simp) rfl, fpOp_completes (q := false) (exec_fmaxN ..) hn (by simp) rfl⟩⟩
  case fabs => rw [Ctx.cued_getX, and_magnitude]
  case fneg => rw [Ctx.cued_getX]
  case fsgnj => rw [Ctx.cued_getX, Ctx.cued_getX, magnitude_or_sign]
  all_goals
    simp only [Ctx.cued_getX]
    rfl

/-- Settles O7, from the lane operations and the laws of exact arithmetic. -/
theorem floatResults : Obligations.FloatResults := ⟨floatResults_lane, invalidOperations, exactArithmetic, minimumMaximum⟩

end Sys2Proof.Machine
end

section
/-!
PROOFS. Packed pairs, integer dot products and random numbers (spec/03 R87, R92, R93, R113, spec/06 R189, R190, R197, R202; O8).
-/

namespace Sys2Proof.Machine

open Sys2Proof

/-! ### Packed pairs -/

@[simp] theorem half_zero (v : Word) : half v 0 = v.toNat % 65536 := by simp [half, bitsN]

@[simp] theorem half_one (v : Word) : half v 1 = v.toNat / 65536 := by
  have := v.isLt
  simp only [half, bitsN]
  omega

section Packed
variable {i : Instr} {s : State} {k : Ctx} {q : Bool} {regs : List Dst} (h : CanRun s k q regs) {d a b c : BitVec 6}
include h

theorem packed2_completes {f : Word → Nat → Nat → Nat × Word} {lo hi : Nat × Word} (he : exec i s = packed2 q d a b f s)
    (sub : ∀ x ∈ [a, b].map Dst.x ++ [.x d], x ∈ regs)
    (hl : f k.crew.mode ((k.t.getX a).toNat % 65536) ((k.t.getX b).toNat % 65536) = lo)
    (hh : f k.crew.mode ((k.t.getX a).toNat / 65536) ((k.t.getX b).toNat / 65536) = hi) :
    CompletesFlags i s k ((k.cued q).t.setX d (BitVec.ofNat 32 (lo.1 + 65536 * hi.1))) 4 (lo.2 ||| hi.2) :=
  fpOp_completes he h sub (by simp only [Ctx.cued_getX, half_zero, half_one, pack2, hl, hh])

theorem packed3_completes {f : Word → Nat → Nat → Nat → Nat × Word} {lo hi : Nat × Word} (he : exec i s = packed3 q d a b c f s)
    (sub : ∀ x ∈ [a, b, c].map Dst.x ++ [.x d], x ∈ regs)
    (hl : f k.crew.mode ((k.t.getX a).toNat % 65536) ((k.t.getX b).toNat % 65536) ((k.t.getX c).toNat % 65536) = lo)
    (hh : f k.crew.mode ((k.t.getX a).toNat / 65536) ((k.t.getX b).toNat / 65536) ((k.t.getX c).toNat / 65536) = hi) :
    CompletesFlags i s k ((k.cued q).t.setX d (BitVec.ofNat 32 (lo.1 + 65536 * hi.1))) 4 (lo.2 ||| hi.2) :=
  fpOp_completes he h sub (by simp only [Ctx.cued_getX, half_zero, half_one, pack2, hl, hh])

end Packed

theorem packedResults_pairs : Claims.PackedResults := by
  intro q d a b c s k h lo hi w fh fg sum dif prod fused
  exact ⟨packed2_completes h (exec_hadd2 ..) (by simp) rfl rfl, packed2_completes h (exec_hsub2 ..) (by simp) rfl rfl,
    packed2_completes h (exec_hmul2 ..) (by simp) rfl rfl, packed2_completes h (exec_hmin2 ..) (by simp) rfl rfl,
    packed2_completes h (exec_hmax2 ..) (by simp) rfl rfl, packed3_completes h (exec_hfma2 ..) (by simp) rfl rfl,
    packed2_completes h (exec_badd2 ..) (by simp) rfl rfl, packed2_completes h (exec_bsub2 ..) (by simp) rfl rfl,
    packed2_completes h (exec_bmul2 ..) (by simp) rfl rfl, packed2_completes h (exec_bmin2 ..) (by simp) rfl rfl,
    packed2_completes h (exec_bmax2 ..) (by simp) rfl rfl, packed3_completes h (exec_bfma2 ..) (by simp) rfl rfl⟩

/-! ### Integers narrowed once (R93) -/

theorem intLo_le_intHi (sg : Bool) (w : Nat) : intLo sg w ≤ intHi sg w := by
  have h1 : 1 ≤ 2 ^ (w - 1) := Nat.one_le_two_pow
  have h2 : 1 ≤ 2 ^ w := Nat.one_le_two_pow
  unfold intLo intHi
  split <;> omega

theorem two_pow_pred {w : Nat} (hw : 0 < w) : 2 ^ w = 2 * 2 ^ (w - 1) := by
  rw [← Nat.pow_succ']
  congr 1
  omega

/-- Under INTSAT an integer is clamped to the range, with SAT where it lies outside. -/
theorem narrow_sat (sg : Bool) (w : Nat) (v : Int) : narrow true sg w v =
    (max (intLo sg w) (min (intHi sg w) v), if v < intLo sg w ∨ intHi sg w < v then fSAT else 0) := by
  have := intLo_le_intHi sg w
  unfold narrow
  rw [if_pos rfl]
  split
  · rw [if_pos (by omega)]; congr 1; omega
  · split
    · rw [if_pos (by omega)]; congr 1; omega
    · rw [if_neg (by omega)]; congr 1; omega

/-- Without it the result is the integer of the range that is congruent to it. -/
theorem narrow_wrap (sg : Bool) {w : Nat} (hw : 0 < w) (v : Int) : (narrow false sg w v).2 = 0 ∧
    intLo sg w ≤ (narrow false sg w v).1 ∧ (narrow false sg w v).1 ≤ intHi sg w ∧ (narrow false sg w v).1 % 2 ^ w = v % 2 ^ w := by
  have hs := two_pow_pred hw
  have h0 : 0 ≤ v % ((2 ^ w : Nat) : Int) := Int.emod_nonneg _ (by positivity)
  have h1 : v % ((2 ^ w : Nat) : Int) < (2 ^ w : Nat) := Int.emod_lt_of_pos _ (by positivity)
  have hc : ((2 : Int) ^ w) = ((2 ^ w : Nat) : Int) := by simp
  simp only [narrow, Bool.false_eq_true, if_false, intLo, intHi, true_and, hc]
  generalize 2 ^ w = P at *
  cases sg with
  | false => exact ⟨h0, Int.le_sub_one_of_lt h1, Int.emod_emod _ _⟩
  | true =>
    simp only [Bool.true_and, if_true]
    by_cases hu : ((2 ^ (w - 1) : Nat) : Int) ≤ v % P
    · rw [if_pos (decide_eq_true hu)]
      refine ⟨by omega, by omega, ?_⟩
      rw [Int.sub_emod, Int.emod_self, Int.sub_zero, Int.emod_emod, Int.emod_emod]
    · rw [if_neg (by simpa using hu)]
      exact ⟨by omega, by omega, Int.emod_emod _ _⟩

/-- The low 32 bits depend on the integer modulo 2^32. -/
theorem intWord_narrow_wrap (sg : Bool) (v : Int) : intWord (narrow false sg 32 v).1 = BitVec.ofInt 32 v := by
  apply BitVec.eq_of_toNat_eq
  rw [intWord, BitVec.toNat_ofInt, BitVec.toNat_ofInt]
  exact congrArg Int.toNat (narrow_wrap sg (by decide) v).2.2.2

/-! ### Dot products (R92, R197) -/

theorem elem_unsigned (w : Nat) (v : Word) (i : Nat) : elem false w v i = ((v.extractLsb' (w * i) w).toNat : Int) := by
  simp [elem, bitsN, BitVec.extractLsb'_toNat, Nat.shiftRight_eq_div_pow]

theorem elem_signed {w : Nat} (hw : 0 < w) (v : Word) (i : Nat) : elem true w v i = (v.extractLsb' (w * i) w).toInt := by
  have hs := two_pow_pred hw
  have hu : (v.extractLsb' (w * i) w).toNat = bitsN v (w * i) w := by
    rw [bitsN, BitVec.extractLsb'_toNat, Nat.shiftRight_eq_div_pow]
  rw [BitVec.toInt_eq_toNat_cond, hu, elem]
  by_cases h : 2 ^ (w - 1) ≤ bitsN v (w * i) w
  · simp only [h, decide_true, Bool.and_self, if_true]
    rw [if_neg (by omega)]
  · simp only [h, decide_false, Bool.and_false, Bool.false_eq_true, if_false]
    rw [if_pos (by omega)]

theorem elem_word (v : Word) : elem false 32 v 0 = v.toNat ∧ elem true 32 v 0 = v.toInt := by
  have : v.extractLsb' 0 32 = v := by simp
  rw [elem_unsigned, elem_signed (by decide), this]
  exact ⟨rfl, rfl⟩

/-- The exact sum of a dot product. -/
def dotSum (sa sb ds : Bool) (w n : Nat) (d a b : Word) : Int :=
  elem ds 32 d 0 + ((List.range n).map (fun i => elem sa w a i * elem sb w b i)).sum

/-- A dot product completes with its exact sum, narrowed once. -/
theorem dotOp_completes {i : Instr} {s : State} {k : Ctx} {q : Bool} {d a b : BitVec 6} {sa sb ds : Bool} {w n : Nat}
    (hi : exec i s = dotOp q d a b sa sb ds w n s) (h : CanRun s k q [.x d, .x a, .x b]) {t lo up : Int}
    (hl : intLo ds 32 = lo) (hu : intHi ds 32 = up) (ht : dotSum sa sb ds w n (k.t.getX d) (k.t.getX a) (k.t.getX b) = t) :
    (modeIntSat k.crew.mode = true → CompletesFlags i s k
      ((k.cued q).t.setX d (BitVec.ofInt 32 (max lo (min up t)))) 4 (if t < lo ∨ up < t then fSAT else 0)) ∧
    (modeIntSat k.crew.mode = false → CompletesFlags i s k ((k.cued q).t.setX d (BitVec.ofInt 32 t)) 4 0) := by
  subst hl hu ht
  refine ⟨fun hs => fpOp_completes hi h (by simp) ?_, fun hs => fpOp_completes hi h (by simp) ?_⟩
  · simp only [Ctx.cued_getX, dot, hs, narrow_sat]
    rfl
  · simp only [Ctx.cued_getX, dot, hs, intWord_narrow_wrap, (narrow_wrap ds (show 0 < 32 by decide) _).1]
    rfl

theorem sum_range_two (f : Nat → Int) : ((List.range 2).map f).sum = f 0 + f 1 := by
  simp [List.range_succ]

theorem sum_range_four (f : Nat → Int) : ((List.range 4).map f).sum = f 0 + f 1 + f 2 + f 3 := by
  simp [List.range_succ, Int.add_assoc]

theorem dotResults : Claims.DotResults := by
  intro q d a b s k h sat x y z sb ub sh w
  have lo : intLo true 32 = -2 ^ 31 := by norm_num [intLo]
  have up : intHi true 32 = 2 ^ 31 - 1 := by norm_num [intHi]
  have upU : intHi false 32 = 2 ^ 32 - 1 := by norm_num [intHi]
  refine ⟨dotOp_completes (exec_dot4 ..) h lo up ?_, dotOp_completes (exec_dot4u ..) h rfl upU ?_,
    dotOp_completes (exec_dot4su ..) h lo up ?_, dotOp_completes (exec_dot2h ..) h lo up ?_⟩
  · rw [dotSum, (elem_word _).2, sum_range_four]
    simp only [elem_signed (show 0 < 8 by decide)]
    rfl
  · rw [dotSum, (elem_word _).1, sum_range_four]
    simp only [elem_unsigned]
    rfl
  · rw [dotSum, (elem_word _).2, sum_range_four]
    simp only [elem_signed (show 0 < 8 by decide), elem_unsigned]
    rfl
  · rw [dotSum, (elem_word _).2, sum_range_two]
    simp only [elem_signed (show 0 < 16 by decide)]
    rfl

/-! ### Random numbers (R202) -/

theorem pendOp_completes {i : Instr} {s : State} {k : Ctx} {q : Bool} {regs rd wr : List Dst} {f : Ctx → Flight} {v : Flight}
    (hi : exec i s = pendOp q rd wr f s) (h : CanRun s k q regs) (sub : ∀ x ∈ rd ++ wr, x ∈ regs) (hf : f (k.cued q) = v) :
    Completes i s k ((k.cued q).t.pending v) 4 := by
  rw [Completes, hi, pendOp_run (h.sub sub), hf]

theorem randomResults : Claims.RandomResults := by
  refine ⟨fun q d e a b n s k h => ⟨pendOp_completes (exec_rndm ..) h (by simp) ?_, pendOp_completes (exec_rndm4 ..) h ?_ ?_⟩,
    fun c k0 k1 n => ⟨rfl, rfl⟩⟩
  · have hn := n.isLt
    simp only [Ctx.cued_getX, Ctx.cued_crew, rndm]
    interval_cases n.toNat <;> rfl
  · simp [quadRegs]
  · simp only [Ctx.cued_getX, Ctx.cued_crew, rndm, quadRegs]
    rfl

/-- Settles O8: each half, each sum and each round by the laws above. -/
theorem packedResults : Obligations.PackedResults := ⟨packedResults_pairs, dotResults, randomResults⟩

end Sys2Proof.Machine
end

section
/-!
PROOFS. Comparisons and conversions (spec/03 R91, R94, R112, spec/06 R191 to R193; O9).
-/

namespace Sys2Proof.Machine

open Sys2Proof

/-- A word that also sets flags completes with the thread and the flags of its operation. -/
theorem modeOp_completes {i : Instr} {s : State} {k : Ctx} {q : Bool} {regs rd wr : List Dst} {len : Nat} {f : Word → Thread → Thread × Word}
    {t : Thread} {fl : Word} (hi : exec i s = modeOp false len q rd wr f s) (h : CanRun s k q regs) (sub : ∀ x ∈ rd ++ wr, x ∈ regs)
    (hf : f k.crew.mode (k.cued q).t = (t, fl)) : CompletesFlags i s k t len fl := by
  rw [CompletesFlags, hi, modeOp_run (h.sub sub), hf]

theorem modeOp_ill {i : Instr} {s : State} {k : Ctx} {q : Bool} {regs rd wr : List Dst} {len : Nat} {f : Word → Thread → Thread × Word}
    (hi : exec i s = modeOp true len q rd wr f s) (h : CanRun s k q regs) : Faults i s k .ill 0 0 .none :=
  hi.trans (prologue_ill h.ready ..)

/-! ### FCMP (R191) -/

theorem FpVal.sig_isNan {x : FpVal} (h : x.isSig = true) : x.isNan = true := by
  cases x <;> simp_all [FpVal.isSig, FpVal.isNan]

theorem FpVal.lt_nan {x y : FpVal} (z : Bool) (h : x.isNan = true ∨ y.isNan = true) : x.lt z y = false := by
  cases x <;> cases y <;> simp_all [FpVal.isNan, FpVal.lt]

/-- The condition of a code of FCMP, from whether an operand is a NaN and the two orders (R191). -/
def fcmpHolds (c : Nat) (un less more : Bool) : Bool :=
  match c with
  | 0 => !un && !less && !more
  | 1 => un || less || more
  | 2 => !un && less
  | 3 => !un && !more
  | 4 => !un && more
  | 5 => !un && !less
  | 6 => un
  | _ => !un

theorem fcmp_eq {c : Nat} (hc : c < 8) (x y : FpVal) : fcmp c x y = (fcmpHolds c (x.isNan || y.isNan) (x.lt false y) (y.lt false x),
    if x.isSig || y.isSig || ((x.isNan || y.isNan) && decide (2 ≤ c) && decide (c ≤ 5)) then fNV else 0) := by
  cases hu : x.isNan || y.isNan with
  | true =>
    have nan : x.isNan = true ∨ y.isNan = true := by simpa using hu
    have less := FpVal.lt_nan false nan
    have more := FpVal.lt_nan false nan.symm
    have eq : x.eq y = false := by obtain h | h := nan <;> simp [FpVal.eq, h]
    interval_cases c <;> simp [fcmp, fcmpHolds, eq, hu, less, more, flagIf]
  | false =>
    obtain ⟨hx, hy⟩ : x.isNan = false ∧ y.isNan = false := by simpa using hu
    have sx : x.isSig = false := Bool.eq_false_iff.2 fun h => by simp [FpVal.sig_isNan h] at hx
    have sy : y.isSig = false := Bool.eq_false_iff.2 fun h => by simp [FpVal.sig_isNan h] at hy
    interval_cases c <;> simp [fcmp, fcmpHolds, FpVal.eq, hx, hy, sx, sy, flagIf]

theorem floatCompareResults : Claims.FloatCompareResults := by
  intro q kd c a b s k h x y un less more v nv
  refine modeOp_completes (exec_fcmp ..) h (by simp) ?_
  simp only [Ctx.cued_getX, fcmp_eq c.isLt]
  rfl

/-! ### Format codes (R112) -/

/-- The format of a floating-point code. -/
def codeFmt (c : Nat) : Fmt := if c = 1 then fp32 else if c = 2 then fp16 else bf16

/-- The bits of a code's format. -/
def codeSize (c : Nat) : Nat := if c = 8 ∨ c = 9 then 8 else if c = 1 ∨ c = 12 ∨ c = 13 then 32 else 16

/-- Whether an integer code's format is signed. -/
def codeSigned (c : Nat) : Bool := c == 8 || c == 10 || c == 12

theorem fmtOf_float {c : Nat} (h : c = 1 ∨ c = 2 ∨ c = 3) : fmtOf c = some (codeFmt c) ∧ 1 + (codeFmt c).eb + (codeFmt c).fb = codeSize c := by
  obtain rfl | rfl | rfl := h <;> exact ⟨rfl, rfl⟩

theorem fmtOf_int {c : Nat} (h : 8 ≤ c ∧ c ≤ 13) : fmtOf c = none ∧ intFmt c = (codeSigned c, codeSize c) ∧ 0 < codeSize c := by
  obtain ⟨h8, h13⟩ := h
  interval_cases c <;> exact ⟨rfl, rfl, by decide⟩

theorem modeFor_float {c : Nat} (m : Word) (h : c = 1 ∨ c = 2 ∨ c = 3) :
    modeFor m c = if c = 1 then modeF32 m else if c = 2 then modeF16 m else modeB16 m := by
  obtain rfl | rfl | rfl := h <;> rfl

/-- A source of an integer format, by its bits (R192). -/
theorem intSource_eq {c : Nat} (h : 8 ≤ c ∧ c ≤ 13) (v : Nat) : intSource c v =
    if codeSigned c && decide (2 ^ (codeSize c - 1) ≤ v % 2 ^ codeSize c) then ((v % 2 ^ codeSize c : Nat) : Int) - 2 ^ codeSize c
    else ((v % 2 ^ codeSize c : Nat) : Int) := by
  simp only [intSource, (fmtOf_int h).2.1]
  push_cast
  rfl

theorem intLo_eq (sg : Bool) (w : Nat) : intLo sg w = if sg then -2 ^ (w - 1) else 0 := by simp [intLo]

theorem intHi_eq (sg : Bool) (w : Nat) : intHi sg w = if sg then 2 ^ (w - 1) - 1 else 2 ^ w - 1 := by simp [intHi]

/-! ### FCVT (R192, R193) -/

/-- The forms that R192 lists are those of the word's own check. -/
theorem fcvt_wf (q : Bool) (d a : BitVec 6) (t sx : BitVec 4) (h : Bool) : (Instr.fcvt q d a t sx h).wf = true ↔
    ((t.toNat = 1 ∨ t.toNat = 2 ∨ t.toNat = 3) ∨ (8 ≤ t.toNat ∧ t.toNat ≤ 13)) ∧
      ((sx.toNat = 1 ∨ sx.toNat = 2 ∨ sx.toNat = 3) ∨ (8 ≤ sx.toNat ∧ sx.toNat ≤ 13)) ∧ t ≠ sx ∧
      (h = true → sx.toNat = 2 ∨ sx.toNat = 3 ∨ sx.toNat = 10 ∨ sx.toNat = 11) := by
  have hne : t ≠ sx ↔ t.toNat ≠ sx.toNat := by rw [ne_eq, ne_eq, BitVec.toNat_inj]
  rw [hne]
  simp only [Instr.wf, fcvtOk, Bool.and_eq_true, Bool.or_eq_true, decide_eq_true_eq, bne_iff_ne, beq_iff_eq, Bool.not_eq_true']
  cases h <;> simp <;> omega

section Conversions
variable {m : Word} {dst src v : Nat}

theorem fcvt_float_float (hs : src = 1 ∨ src = 2 ∨ src = 3) (hd : dst = 1 ∨ dst = 2 ∨ dst = 3) : fcvt m dst src v =
    w32 ((codeFmt dst).finish (if dst = 1 then modeF32 m else if dst = 2 then modeF16 m else modeB16 m)
      (if ((codeFmt src).read (modeSubn m) (v % 2 ^ codeSize src)).isSig then .invalid
        else .val ((codeFmt src).read (modeSubn m) (v % 2 ^ codeSize src)))) := by
  simp only [fcvt, (fmtOf_float hs).1, (fmtOf_float hd).1, (fmtOf_float hs).2, modeFor_float m hd]

theorem fcvt_float_int (hs : src = 1 ∨ src = 2 ∨ src = 3) (hd : 8 ≤ dst ∧ dst ≤ 13) : fcvt m dst src v =
    (let r := toInt (modeIntRnd m) (codeSigned dst) (codeSize dst) ((codeFmt src).read false (v % 2 ^ codeSize src))
    (BitVec.ofInt 32 r.1, r.2)) := by
  simp only [fcvt, (fmtOf_float hs).1, (fmtOf_int hd).1, (fmtOf_float hs).2, (fmtOf_int hd).2.1]
  rfl

theorem fcvt_int_float (hs : 8 ≤ src ∧ src ≤ 13) (hd : dst = 1 ∨ dst = 2 ∨ dst = 3) : fcvt m dst src v =
    w32 ((codeFmt dst).round (if dst = 1 then modeF32 m else if dst = 2 then modeF16 m else modeB16 m)
      (decide (intSource src v < 0)) (intSource src v).natAbs 0) := by
  simp only [fcvt, (fmtOf_int hs).1, (fmtOf_float hd).1, modeFor_float m hd]
  rfl

theorem fcvt_int_int (hs : 8 ≤ src ∧ src ≤ 13) (hd : 8 ≤ dst ∧ dst ≤ 13) : fcvt m dst src v =
    (let r := if intLo (codeSigned dst) (codeSize dst) ≤ intSource src v ∧ intSource src v ≤ intHi (codeSigned dst) (codeSize dst)
      then (intSource src v, 0) else narrow (modeIntSat m) (codeSigned dst) (codeSize dst) (intSource src v)
    (BitVec.ofInt 32 r.1, r.2)) := by
  simp only [fcvt, (fmtOf_int hs).1, (fmtOf_int hd).1, (fmtOf_int hd).2.1]
  rfl

end Conversions

/-- A finite value to an integer format: clamped, with NV outside the range and NX for a fraction (R94). -/
theorem toInt_fin (rnd : Nat) (sg : Bool) (w : Nat) (n : Bool) (y : Nat) (e : Int) : toInt rnd sg w (.fin n y e) =
    (let z := roundInt rnd n y e
    (max (intLo sg w) (min (intHi sg w) z.1),
      if z.1 < intLo sg w ∨ intHi sg w < z.1 then fNV else if z.2 then fNX else 0)) := by
  have := intLo_le_intHi sg w
  simp only [toInt]
  split
  · rw [if_pos (by omega)]; congr 1; omega
  · split
    · rw [if_pos (by omega)]; congr 1; omega
    · rw [if_neg (by omega), flagIf]; congr 1; omega

/-- A legal FCVT completes with its conversion. -/
theorem fcvt_completes {q : Bool} {d a : BitVec 6} {t sx : BitVec 4} {h : Bool} {s : State} {k : Ctx} (hr : CanRun s k q [.x a, .x d])
    (legal : (Instr.fcvt q d a t sx h).wf = true) {r : Word × Word}
    (hf : fcvt k.crew.mode t.toNat sx.toNat (if h then (k.t.getX a).toNat / 65536 else (k.t.getX a).toNat) = r) :
    CompletesFlags (.fcvt q d a t sx h) s k ((k.cued q).t.setX d r.1) 4 r.2 := by
  refine modeOp_completes (rd := [.x a]) (wr := [.x d]) (by rw [exec_fcvt, execFcvt, legal]; rfl) hr (by simp) ?_
  simp only [Ctx.cued_getX, half_one, hf]

theorem convertResults_forms : Claims.ConvertResults := by
  intro q d a t sx h s k hr m x fl int legal sfmt dfmt dmode size src signed isrc val exact lo hi w
  have hw : (Instr.fcvt q d a t sx h).wf = true ↔ legal := fcvt_wf q d a t sx h
  have hlo : intLo (codeSigned t.toNat) (codeSize t.toNat) = lo := intLo_eq ..
  have hhi : intHi (codeSigned t.toNat) (codeSize t.toNat) = hi := intHi_eq ..
  refine ⟨fun ill => ?ill, fun ok hs hd => ?floats, fun ok hs hd => ?toInt, fun ok hs hd => ?fromInt, fun ok hs hd => ?ints⟩
  case ill =>
    have : (Instr.fcvt q d a t sx h).wf = false := Bool.eq_false_iff.2 (mt hw.1 ill)
    exact modeOp_ill (by rw [exec_fcvt, execFcvt, this]; rfl) hr
  case floats =>
    have run := fcvt_completes hr (hw.2 ok) (fcvt_float_float hs hd)
    exact run
  case toInt =>
    have run := fcvt_completes hr (hw.2 ok) (fcvt_float_int hs hd)
    rw [show (codeFmt sx.toNat).read false ((if h then x.toNat / 65536 else x.toNat) % 2 ^ codeSize sx.toNat) = exact from rfl] at run
    refine ⟨fun sg he => ?_, fun n he => ?_, fun n y e he => ?_⟩
    all_goals rw [he] at run
    · exact run
    · simp only [toInt, hlo, hhi] at run
      exact run
    · simp only [toInt_fin, hlo, hhi] at run
      exact run
  case fromInt =>
    have run := fcvt_completes hr (hw.2 ok) (fcvt_int_float hs hd)
    rw [intSource_eq hs] at run
    exact run
  case ints =>
    have hi' : intSource sx.toNat (if h then x.toNat / 65536 else x.toNat) = isrc := intSource_eq hs _
    have run := fcvt_completes hr (hw.2 ok) (fcvt_int_int hs hd)
    simp only [x] at hi'
    rw [hi', hlo, hhi] at run
    refine ⟨fun h1 h2 => ?_, fun hout hsat => ?_, fun hout hsat => ?_⟩
    · rw [if_pos ⟨h1, h2⟩] at run
      exact run
    · rw [if_neg (by omega), hsat, narrow_sat, hlo, hhi, if_pos hout] at run
      exact run
    · obtain ⟨hfl, h1, h2, hmod⟩ := narrow_wrap (codeSigned t.toNat) (fmtOf_int hd).2.2 isrc
      rw [if_neg (by omega), hsat] at run
      refine ⟨_, hlo ▸ h1, hhi ▸ h2, hmod, ?_⟩
      simp only [hfl] at run
      exact run

/-- Settles O9: FCVT by the classes of its two formats, FCMP by the code. -/
theorem convertResults : Obligations.ConvertResults :=
  ⟨convertResults_forms, floatCompareResults⟩

end Sys2Proof.Machine
end

section
/-!
PROOFS. The extended registers (spec/03 R109, R110, spec/06 R195, R196; O11): what the chain operations complete with, and that a value
which FP32 holds is the same in binary64.
-/

namespace Sys2Proof.Machine

open Sys2Proof

/-! ### What a format's own encodings read as -/

/-- An encoding whose exponent field is not the highest is no NaN, nor is an infinity. -/
theorem Fmt.read_bits_isNan {f : Fmt} (hf : 2 ≤ f.eb) (neg : Bool) {ex fr : Nat} (hfr : fr < 2 ^ f.fb) (hex : ex < 2 ^ f.eb)
    (h : ex < 2 ^ f.eb - 1 ∨ fr = 0) (subn : Bool) : (f.read subn (f.bits neg ex fr)).isNan = false := by
  have hb := Fmt.two_pow_eb hf
  rw [Fmt.read_bits neg hfr hex]
  split
  · rw [if_pos (by omega)]; rfl
  · split <;> rfl

theorem Fmt.overflow_isNan {f : Fmt} (hf : 2 ≤ f.eb) (r : Rnd) (neg subn : Bool) : (f.read subn (f.overflow r neg).1).isNan = false := by
  have hb := Fmt.two_pow_eb hf
  have hp := Nat.two_pow_pos f.fb
  have inf : (f.read subn (f.inf neg)).isNan = false := by
    rw [← f.bits_inf]
    exact Fmt.read_bits_isNan hf neg hp (by omega) (.inr rfl) subn
  have max : (f.read subn (f.inf neg - 1)).isNan = false := by
    have := Fmt.bits_maxFin hf neg
    rw [Fmt.maxFin] at this
    rw [← this]
    exact Fmt.read_bits_isNan hf neg (by omega) (by omega) (.inl (by omega)) subn
  unfold Fmt.overflow
  split
  · split
    · exact max
    · exact inf
  · exact max

/-- No finite value rounds to a NaN. -/
theorem Fmt.round_isNan {f : Fmt} (hf : 2 ≤ f.eb) (r : Rnd) (neg : Bool) (m : Nat) (e : Int) (subn : Bool) :
    (f.read subn (f.round r neg m e).1).isNan = false := by
  have hb := Fmt.two_pow_eb hf
  have hp := Nat.two_pow_pos f.fb
  obtain rfl | h0 := eq_or_ne m 0
  · rw [Fmt.round_zero, ← f.bits_zero]
    exact Fmt.read_bits_isNan hf neg hp (by omega) (.inr rfl) subn
  · have hq := f.count_lt r neg (m := m) e
    have hl := f.count_place r neg (m := m) e
    rw [Nat.pow_succ] at hq
    rw [f.round_eq r neg e h0]
    dsimp only
    split
    · exact Fmt.overflow_isNan hf r neg subn
    · split
      · split
        · rw [← f.bits_zero]
          exact Fmt.read_bits_isNan hf neg hp (by omega) (.inr rfl) subn
        · exact Fmt.read_bits_isNan hf neg (by assumption) (by omega) (.inl (by omega)) subn
      · exact Fmt.read_bits_isNan hf neg (by omega) (by omega) (.inl (by omega)) subn

/-- A result that is a NaN is the canonical one. -/
theorem Fmt.finish_nan {f : Fmt} (hf : 2 ≤ f.eb) (r : Rnd) (v : Exact) (subn : Bool) (h : (f.read subn (f.finish r v).1).isNan = true) :
    (f.finish r v).1 = f.nan := by
  have hb := Fmt.two_pow_eb hf
  match v with
  | .invalid | .val (.nan _) => rfl
  | .val (.inf n) =>
    rw [Fmt.finish, ← f.bits_inf, Fmt.read_bits_isNan hf n (Nat.two_pow_pos _) (by omega) (.inr rfl)] at h
    cases h
  | .val (.fin n m e) =>
    rw [Fmt.finish, Fmt.round_isNan hf] at h
    cases h

theorem Fmt.inf_of_read {f : Fmt} {subn : Bool} {w : Nat} {n : Bool} (h : f.read subn w = .inf n) :
    w % 2 ^ (1 + f.eb + f.fb) = f.inf n := by
  rw [← f.read_mod, ← f.bits_fields w,
    Fmt.read_bits _ (Nat.mod_lt _ (Nat.two_pow_pos _)) (Nat.mod_lt _ (Nat.two_pow_pos _))] at h
  split at h
  · rename_i top
    split at h <;> cases h
    rename_i frac
    rw [← f.bits_inf, ← f.bits_fields w, top, frac]
  · split at h <;> cases h

/-! ### FP32 values in binary64 (R109) -/

/-- A finite FP32 value is held by binary64 exactly, with its significand counted in a lower unit. -/
theorem fp64_read_widened {w m : Nat} {n : Bool} {e : Int} (h : fp32.read false w = .fin n m e) (h0 : m ≠ 0) : ∃ k : Nat,
    fp64.read false (fp64.round nearest n m e).1 = .fin n (m * 2 ^ k) (e - k) := by
  obtain ⟨ex, fr, -, hex, hfr, hv⟩ := Fmt.fin_of_read (by decide) h
  simp only [show fp32.fb = 23 from rfl, show fp32.eb = 8 from rfl, show fp32.bias = 127 from rfl] at hex hfr hv
  have hm : m < 2 ^ 24 := by omega
  have hl : Nat.log2 m < 24 := (Nat.log2_lt h0).2 hm
  have hp : fp64.place m e = e - (52 - Nat.log2 m : Nat) := by
    simp only [Fmt.place, show fp64.fb = 52 from rfl, show fp64.bias = 1023 from rfl]
    omega
  have hq : quantise nearest.rnd n m e (fp64.place m e) = (m * 2 ^ (52 - Nat.log2 m), false) := by
    rw [quantise_above (by omega), hp]
    congr 3
    omega
  have hlt : m * 2 ^ (52 - Nat.log2 m) < 2 ^ (fp64.fb + 1) :=
    calc m * 2 ^ (52 - Nat.log2 m) < 2 ^ (Nat.log2 m + 1) * 2 ^ (52 - Nat.log2 m) :=
          Nat.mul_lt_mul_of_pos_right Nat.lt_log2_self (Nat.two_pow_pos _)
      _ = 2 ^ (fp64.fb + 1) := by rw [← Nat.pow_add]; congr 1; simp only [show fp64.fb = 52 from rfl]; omega
  refine ⟨52 - Nat.log2 m, ?_⟩
  rw [Fmt.read_round (f := fp64) (by decide) rfl n e h0 (by rw [hq]; exact hlt)
    (by simp only [hp, show fp64.fb = 52 from rfl, show fp64.bias = 1023 from rfl]; omega), hq, hp]

/-- An FP32 value as an extended register holds it (R109): a NaN is the canonical one. -/
def widened (w : Nat) : Nat :=
  (fp64.finish nearest (.val (match fp32.read false w with | .nan _ => .nan false | v => v))).1

/-- ERND to FP32 of a widened value gives back its bits, or the canonical NaN (R110). -/
theorem ernd_widened (w : Nat) : (ernd 0 1 (BitVec.ofNat 64 (widened w))).1 =
    BitVec.ofNat 32 (if (fp32.read false w).isNan then fp32.nan else w) := by
  have low (a : Nat) : BitVec.ofNat 32 (a % 2 ^ 32) = BitVec.ofNat 32 a := BitVec.eq_of_toNat_eq (by simp)
  have hr : fp64.read false (widened w % 2 ^ 64) = fp64.read false (widened w) := fp64.read_mod false (widened w)
  simp only [ernd, show modeSubn 0 = false by decide, BitVec.toNat_ofNat, hr, show fmtOf 1 = some fp32 from rfl, Option.getD_some,
    show modeFor 0 1 = nearest by decide, w32]
  match h : fp32.read false w with
  | .nan sg =>
    have hw : widened w = fp64.nan := by simp [widened, h, Fmt.finish]
    rw [hw, show fp64.read false fp64.nan = .nan false by decide]
    rfl
  | .inf n =>
    have hw : widened w = fp64.inf n := by simp [widened, h, Fmt.finish]
    have hi : w % 2 ^ 32 = fp32.inf n := Fmt.inf_of_read h
    rw [hw, show fp64.read false (fp64.inf n) = .inf n by cases n <;> decide]
    simp only [FpVal.isSig, FpVal.isNan, Bool.false_eq_true, if_false, Fmt.finish, ← hi, low]
  | .fin n m e =>
    have hw : widened w = (fp64.round nearest n m e).1 := by simp [widened, h, Fmt.finish]
    have back : (fp32.finish nearest (.val (fp64.read false (widened w)))).1 = w % 2 ^ 32 ∧ (fp64.read false (widened w)).isSig = false := by
      obtain rfl | h0 := eq_or_ne m 0
      · have zero := Fmt.round_exact (by decide) nearest rfl 0 h
        rw [Nat.zero_mul, Fmt.round_zero] at zero
        rw [hw, Fmt.round_zero, show fp64.read false (fp64.zero n) = .fin n 0 (-1074) by cases n <;> decide]
        exact ⟨congrArg Prod.fst zero, rfl⟩
      · obtain ⟨k, hk⟩ := fp64_read_widened h h0
        rw [hw, hk]
        exact ⟨congrArg Prod.fst (Fmt.round_exact (by decide) nearest rfl k h), rfl⟩
    simp only [back.2, Bool.false_eq_true, if_false, back.1, FpVal.isNan, low]

theorem chain_step {m : Word} (h : modeStep m = true) (v : Exact) :
    chain m v = (BitVec.ofNat 64 (widened (fp32.finish (modeF32 m) v).1), (fp32.finish (modeF32 m) v).2) := if_pos h

theorem chain_double {m : Word} (h : modeStep m = false) (v : Exact) :
    chain m v = (BitVec.ofNat 64 (fp64.finish nearest v).1, (fp64.finish nearest v).2) := if_neg (by rw [h]; decide)

theorem chainStepIsLane : Claims.ChainStepIsLane := by
  intro m v hm
  rw [chain_step hm, ernd_widened]
  split
  · rename_i nan
    rw [Fmt.finish_nan (by decide) (modeF32 m) v false nan]
  · rfl

/-! ### The instructions (R195) -/

section Chain
variable {i : Instr} {s : State} {k : Ctx} {q : Bool} {regs : List Dst} (h : CanRun s k q regs)
include h

/-- A chain operation completes with its exact result rounded as STEP says. -/
theorem chainOp_completes {rd : List (BitVec 6)} {d : BitVec 2} {f : Word → Thread → Exact} {v : Exact} (hi : exec i s = chainOp q rd d f s)
    (sub : ∀ x ∈ rd.map Dst.x, x ∈ regs) (hf : f k.crew.mode (k.cued q).t = v) :
    (modeStep k.crew.mode = false → CompletesFlags i s k ((k.cued q).t.setE d (BitVec.ofNat 64 (fp64.finish nearest v).1)) 4
      (fp64.finish nearest v).2) ∧
    (modeStep k.crew.mode = true → CompletesFlags i s k ((k.cued q).t.setE d (chain k.crew.mode v).1) 4
      (fp32.finish (modeF32 k.crew.mode) v).2) := by
  have run : CompletesFlags i s k ((k.cued q).t.setE d (chain k.crew.mode v).1) 4 (chain k.crew.mode v).2 :=
    modeOp_completes hi h (by simpa using sub) (by rw [hf])
  constructor <;> intro hm
  · rwa [chain_double hm] at run
  · rwa [chain_step hm] at run ⊢

/-- A word of one thread that sets no flag completes. -/
theorem threadOp_completes {rd wr : List Dst} {len : Nat} {f : Thread → Thread} {t : Thread} (hi : exec i s = threadOp len q rd wr f s)
    (sub : ∀ x ∈ rd ++ wr, x ∈ regs) (hf : f (k.cued q).t = t) : Completes i s k t len := by
  rw [Completes, hi, threadOp_run (h.sub sub), hf]

end Chain

theorem evenReg_succ (p : BitVec 5) : evenReg p + 1 = oddReg p := by
  revert p
  decide

theorem fmtOf_ernd {c : Nat} (m : Word) (h : 1 ≤ c ∧ c ≤ 3) : (fmtOf c).getD fp32 = (if c = 1 then fp32 else if c = 2 then fp16 else bf16) ∧
    modeFor m c = if c = 1 then modeF32 m else if c = 2 then modeF16 m else modeB16 m := by
  obtain ⟨h1, h3⟩ := h
  interval_cases c <;> exact ⟨rfl, rfl⟩

theorem chainResults_forms : Claims.ChainResults := by
  intro q d a b x y z p s k h m gx ge rz w
  refine ⟨chainOp_completes h (exec_faddE ..) (by simp) ?_, chainOp_completes h (exec_fmulE ..) (by simp) ?_,
    chainOp_completes h (exec_ffmaE ..) (by simp) ?_, chainOp_completes h (exec_eadd ..) (by simp) ?_,
    chainOp_completes h (exec_efrom ..) (by simp) ?_, fun h1 h3 => ?erndTo, fun hz => ?erndIll, ?eget, ?eset⟩
  case erndTo =>
    have wf : (Instr.ernd q x a z).wf = true := by simp [Instr.wf]; omega
    have one : z = 1 ↔ z.toNat = 1 := by rw [← BitVec.toNat_inj]; rfl
    have two : z = 2 ↔ z.toNat = 2 := by rw [← BitVec.toNat_inj]; rfl
    obtain ⟨hf, hm⟩ := fmtOf_ernd m ⟨h1, h3⟩
    simp only [one, two]
    refine modeOp_completes (rd := []) (wr := [.x x]) (by rw [exec_ernd, execErnd, wf]; rfl) h (by simp) ?_
    simp only [Ctx.cued_getE, ernd, ← hf, ← hm]
    rfl
  case erndIll =>
    have wf : (Instr.ernd q x a z).wf = false := by
      rw [← BitVec.toNat_inj, show (0 : BitVec 6).toNat = 0 from rfl] at hz
      simp only [Instr.wf, Bool.and_eq_false_iff, decide_eq_false_iff_not]
      omega
    exact modeOp_ill (by rw [exec_ernd, execErnd, wf]; rfl) h
  case eget => exact threadOp_completes h (exec_eget ..) (by simp) (by rw [Thread.setPair, evenReg_succ, Ctx.cued_getE])
  case eset => exact threadOp_completes h (exec_eset ..) (by simp) (by rw [Ctx.cued_getPair, Thread.getPair, evenReg_succ])
  all_goals
    simp only [Ctx.cued_getX, Ctx.cued_getE]
    rfl

/-- Settles O11: the chain operations by STEP, and the widening undone by ERND. -/
theorem chainResults : Obligations.ChainResults := ⟨chainResults_forms, chainStepIsLane⟩

end Sys2Proof.Machine
end

section
/-!
PROOFS. The special functions (spec/03 R105, R119, spec/06 R194; O10).
-/

namespace Sys2Proof.Machine

open Sys2Proof

/-! ### The operand's encoding -/

/-- The sign of an infinity or of a finite value is the word's highest bit. -/
theorem fp32_read_sign {subn : Bool} {x : Word} {n : Bool}
    (h : fp32.read subn x.toNat = .inf n ∨ ∃ m e, fp32.read subn x.toNat = .fin n m e) : x.getLsbD 31 = n := by
  have hs : x.getLsbD 31 = (x.toNat / 2 ^ 31 % 2 == 1) := by
    rw [BitVec.getLsbD, Nat.testBit_eq_decide_div_mod_eq]
    rfl
  rw [hs]
  unfold Fmt.read at h
  dsimp only at h
  obtain h | ⟨m, e, h⟩ := h
  · split at h <;> split at h <;> cases h
    rfl
  · split at h <;> split at h <;> cases h <;> rfl

/-- A magnitude from 128 up to the largest finite one is a normal value of exponent 7 or more. -/
theorem fp32_read_large {x : Word} (h1 : 0x43000000 ≤ x.toNat) (h2 : x.toNat < 0x7F800000) (subn : Bool) :
    ∃ m e, fp32.read subn x.toNat = .fin false m e ∧ 2 ^ 23 ≤ m ∧ -16 ≤ e := by
  have hx : x.toNat = fp32.bits false (x.toNat / 2 ^ 23) (x.toNat % 2 ^ 23) := by
    simp only [Fmt.bits, Fmt.zero, show fp32.fb = 23 from rfl, Bool.false_eq_true, if_false]
    omega
  refine ⟨2 ^ 23 + x.toNat % 2 ^ 23, (x.toNat / 2 ^ 23 : Nat) - 127 - 23, ?_, by omega, by omega⟩
  rw [hx, Fmt.read_bits _ (by simp only [show fp32.fb = 23 from rfl]; omega) (by simp only [show fp32.eb = 8 from rfl]; omega), ← hx]
  simp only [show fp32.eb = 8 from rfl, show fp32.fb = 23 from rfl, show fp32.bias = 127 from rfl]
  rw [if_neg (by omega), if_neg (by omega)]
  rfl

/-! ### The table of R119 -/

section Table
variable {f : Sfu} {m x : Word} {v : FpVal}

theorem sfu_special {r : Nat × Word} (hv : fp32.read (modeSubn m) x.toNat = v) (h : sfuSpecial f v = some r) : sfu f m x = w32 r := by
  have : sfuSpecial f (fp32.read (modeF32 m).subn x.toNat) = some r := by rw [← h, ← hv]; rfl
  simp only [sfu, this]

theorem sfuSpecial_nan (f : Sfu) (sg : Bool) : sfuSpecial f (.nan sg) = some (fp32.nan, flagIf sg fNV) := by cases f <;> rfl

theorem sfuSpecial_negative {n : Nat} {e : Int} (h0 : n ≠ 0) : sfuSpecial .rsq (.fin true n e) = some (fp32.nan, fNV) ∧
    sfuSpecial .sqrt (.fin true n e) = some (fp32.nan, fNV) ∧ sfuSpecial .log2 (.fin true n e) = some (fp32.nan, fNV) := by
  obtain ⟨n, rfl⟩ := Nat.exists_eq_succ_of_ne_zero h0
  exact ⟨rfl, rfl, rfl⟩

/-- The word of an infinity or a zero, by its sign. -/
theorem w32_inf (n : Bool) (fl : Word) : w32 (fp32.inf n, fl) = (if n then 0xFF800000 else 0x7F800000, fl) := by cases n <;> rfl

theorem w32_zero (n : Bool) (fl : Word) : w32 (fp32.zero n, fl) = (if n then 0x80000000 else 0, fl) := by cases n <;> rfl

/-- 2^128 overflows, and no rounding code brings it back (R105). -/
theorem fp32_round_overflow (r : Rnd) (hr : r.rnd < 4) : w32 (fp32.round r false 1 128) =
    if r.rnd = 1 ∨ r.rnd = 2 then (0x7F7FFFFF, fOF ||| fNX)
    else if r.sat then (0x7F7FFFFF, fOF ||| fNX ||| fSAT) else (0x7F800000, fOF ||| fNX) := by
  have hp : fp32.place 1 128 = 105 := by decide
  have hq : quantise r.rnd false 1 128 105 = (2 ^ 23, false) := quantise_above (by decide)
  have hc : fp32.count r false 1 128 = (2 ^ 23, 105) := by
    rw [Fmt.count_of_lt (by rw [hp, hq]; decide), hp, hq]
  rw [Fmt.round_eq _ _ _ _ one_ne_zero, hc]
  refine (congrArg w32 (if_pos (by decide))).trans ?_
  obtain ⟨rnd, sat, subn⟩ := r
  simp only at hr
  interval_cases rnd <;> cases sat <;> rfl

theorem two_pow_mul_le {a b c d n : Nat} (hn : 2 ^ c ≤ n) (h : a + b ≤ c + d) : 2 ^ a * 2 ^ b ≤ n * 2 ^ d :=
  calc 2 ^ a * 2 ^ b = 2 ^ (a + b) := (Nat.pow_add 2 a b).symm
    _ ≤ 2 ^ (c + d) := Nat.pow_le_pow_right (by decide) h
    _ = 2 ^ c * 2 ^ d := Nat.pow_add 2 c d
    _ ≤ n * 2 ^ d := Nat.mul_le_mul_right _ hn

/-- EXP2 of 128 or more overflows (R119). -/
theorem sfu_exp2_overflow (h1 : 0x43000000 ≤ x.toNat) (h2 : x.toNat < 0x7F800000) :
    sfu .exp2 m x = w32 (fp32.round (modeF32 m) false 1 128) := by
  obtain ⟨n, e, hv, hn, he⟩ := fp32_read_large h1 h2 (modeF32 m).subn
  have large : 128 * (fxOne : Int) ≤ fxVal false n e := by
    have : 2 ^ 7 * fxOne ≤ n * 2 ^ (320 + e).toNat := by
      rw [fxOne]
      exact two_pow_mul_le hn (by omega)
    simp only [fxVal, Bool.false_eq_true, if_false]
    generalize fxOne = one at this ⊢
    exact_mod_cast this
  simp only [sfu, hv, sfuSpecial, large, and_self, if_true]

end Table

/-- A special function leaves its result and its flags pending (R108, R194). -/
theorem sfuOp_completes {i : Instr} {s : State} {k : Ctx} {q : Bool} {d a : BitVec 6} {f : Sfu} (h : CanRun s k q [.x a, .x d])
    (hi : exec i s = sfuOp f q d a s) : Completes i s k ((k.cued q).t.pending
      { dst := [(.x d, (sfu f k.crew.mode (k.t.getX a)).1)], flags := (sfu f k.crew.mode (k.t.getX a)).2 }) 4 :=
  pendOp_completes hi h (by simp) (by rw [Ctx.cued_getX, Ctx.cued_crew])

/-- Settles O10: each function's result is `sfu`, whose special values are the table's. -/
theorem specialFunctionResults : Obligations.SpecialFunctionResults := by
  refine ⟨fun q d a s k h => ?forms, fun m x => ⟨fun sg hv f => ?nan, fun n e hv => ?zero, fun hx => ?inf, fun hx => ?negInf,
    fun hs hn hz => ?negative, ?one, fun h1 h2 => ?overflow⟩⟩
  case forms =>
    intro w
    exact ⟨sfuOp_completes h (exec_rcp ..), sfuOp_completes h (exec_rsq ..), sfuOp_completes h (exec_sqrt ..),
      sfuOp_completes h (exec_exp2 ..), sfuOp_completes h (exec_log2 ..), sfuOp_completes h (exec_tanh ..),
      sfuOp_completes h (exec_sin ..), sfuOp_completes h (exec_cos ..)⟩
  case nan => exact sfu_special hv (sfuSpecial_nan f sg)
  case zero =>
    simp only [fp32_read_sign (.inr ⟨0, e, hv⟩), ← w32_inf, ← w32_zero]
    exact ⟨sfu_special hv rfl, sfu_special hv rfl, sfu_special hv rfl, sfu_special (r := (fp32.inf true, fDZ)) hv rfl,
      sfu_special hv rfl, sfu_special hv rfl, sfu_special (r := (0x3F800000, 0)) hv rfl⟩
  case inf =>
    have hv : fp32.read (modeSubn m) x.toNat = .inf false := by rw [hx]; cases modeSubn m <;> rfl
    have word {v : Nat × Word} {f : Sfu} (h : sfuSpecial f (.inf false) = some v) : sfu f m x = w32 v := sfu_special hv h
    rw [hx] at word ⊢
    exact ⟨word (v := (0, 0)) rfl, word (v := (0, 0)) rfl, word (v := (fp32.inf false, 0)) rfl, word (v := (fp32.inf false, 0)) rfl,
      word (v := (fp32.inf false, 0)) rfl, word (v := (0x3F800000, 0)) rfl, word (v := (fp32.nan, fNV)) rfl,
      word (v := (fp32.nan, fNV)) rfl⟩
  case negInf =>
    have hv : fp32.read (modeSubn m) x.toNat = .inf true := by rw [hx]; cases modeSubn m <;> rfl
    exact ⟨sfu_special (r := (fp32.zero true, 0)) hv rfl, sfu_special (r := (0, 0)) hv rfl, sfu_special (r := (0xBF800000, 0)) hv rfl,
      sfu_special (r := (fp32.nan, fNV)) hv rfl, sfu_special (r := (fp32.nan, fNV)) hv rfl⟩
  case negative =>
    match hv : fp32.read (modeSubn m) x.toNat with
    | .nan sg => simp [hv, FpVal.isNan] at hn
    | .inf n =>
      obtain rfl : true = n := hs.symm.trans (fp32_read_sign (.inl hv))
      exact ⟨sfu_special hv (r := (fp32.nan, fNV)) rfl, sfu_special hv (r := (fp32.nan, fNV)) rfl,
        sfu_special hv (r := (fp32.nan, fNV)) rfl⟩
    | .fin n c e =>
      obtain rfl : true = n := hs.symm.trans (fp32_read_sign (.inr ⟨c, e, hv⟩))
      have h0 : c ≠ 0 := fun h => hz true e (by rw [hv, h])
      obtain ⟨rsq, sqrt, log2⟩ := sfuSpecial_negative (e := e) h0
      exact ⟨sfu_special hv rsq, sfu_special hv sqrt, sfu_special hv log2⟩
  case one =>
    have hv : fp32.read (modeSubn m) (0x3F800000 : Word).toNat = .fin false (2 ^ 23) (-23) := by cases modeSubn m <;> decide
    exact sfu_special (r := (0, 0)) hv (by decide)
  case overflow =>
    rw [sfu_exp2_overflow h1 h2, fp32_round_overflow _ (Nat.mod_lt _ (by decide))]

end Sys2Proof.Machine
end

section
/-!
PROOFS. The elements of a dual-exponent block (spec/03 R95 to R101): the scale that AUTO takes, the count of a value at a scale, and what
an encoded element decodes to (O37).
-/

namespace Sys2Proof.Machine

open Sys2Proof

/-! ### Values that fit a scale (R97, R98) -/

theorem dbMax_le (n q : Nat) : q ≤ dbMax n ↔ q < 2 ^ (n - 2) := by
  have := Nat.two_pow_pos (n - 2)
  rw [dbMax]
  omega

theorem dbFits_iff {n rnd : Nat} {x : FpVal} {sc : Nat} : dbFits n rnd x sc = true ↔ ∃ r, dbQ rnd x sc = some r ∧ r.1 < 2 ^ (n - 2) := by
  unfold dbFits
  cases dbQ rnd x sc <;> simp [dbMax_le]

theorem dbQ_none {rnd : Nat} {x : FpVal} {sc : Nat} (h : x.isFin = false ∨ sc = 511) : dbQ rnd x sc = none := by
  cases x <;> simp_all [dbQ, FpVal.isFin]

theorem dbQ_fin {rnd : Nat} {neg : Bool} {m : Nat} {e : Int} {sc : Nat} (h : sc ≠ 511) :
    dbQ rnd (.fin neg m e) sc = some (quantise rnd neg m e ((sc : Int) - 256)) := if_neg h

theorem dbQ_some {rnd : Nat} {x : FpVal} {sc : Nat} {r : Nat × Bool} (h : dbQ rnd x sc = some r) : x.isFin = true ∧ sc ≠ 511 := by
  by_contra hn
  rw [dbQ_none (by rw [← Bool.not_eq_true]; tauto)] at h
  cases h

section Scale
variable (n rnd : Nat) (vs : List FpVal)

theorem dbScale_le (c k : Nat) (h : c + k ≤ 511) : dbScale n rnd vs c k ≤ 510 := by
  induction k generalizing c with
  | zero => exact le_rfl
  | succ k ih =>
    unfold dbScale
    split
    · omega
    · exact ih (c + 1) (by omega)

theorem dbScale_ge (c k : Nat) (h : c ≤ 510) (hk : c + k = 511) : c ≤ dbScale n rnd vs c k := by
  induction k generalizing c with
  | zero => exact h
  | succ k ih =>
    unfold dbScale
    split
    · exact le_rfl
    · obtain rfl | h' := h.eq_or_lt
      · obtain rfl : k = 0 := by omega
        exact le_rfl
      · exact Nat.le_of_succ_le (ih (c + 1) h' (by omega))

theorem dbScale_fits (c k : Nat) (h : dbScale n rnd vs c k < 510) : ∀ v ∈ vs, dbFits n rnd v (dbScale n rnd vs c k) = true := by
  induction k generalizing c with
  | zero => exact absurd h (lt_irrefl 510)
  | succ k ih =>
    unfold dbScale at h ⊢
    split
    · rename_i all
      exact List.all_eq_true.1 all
    · rename_i all
      rw [if_neg all] at h
      exact ih (c + 1) h

theorem dbScale_least (c k c' : Nat) (hk : c' < c + k) (h0 : c ≤ c') (h : c' < dbScale n rnd vs c k) :
    ∃ v ∈ vs, ¬dbFits n rnd v c' = true := by
  induction k generalizing c with
  | zero => omega
  | succ k ih =>
    unfold dbScale at h
    split at h
    · omega
    · rename_i all
      obtain rfl | h1 := h0.eq_or_lt
      · simpa using all
      · exact ih (c + 1) (by omega) h1 h

end Scale

/-- AUTO's scales (R98): the smallest code at which every finite value fits. -/
theorem dbAuto_scale (n rnd : Nat) (vs : List FpVal) (hn : 2 ≤ n ∧ n ≤ 8) :
    let a := dbAuto n rnd vs
    n - 2 ≤ a.1 ∧ a.1 ≤ 510 ∧ a.2 = a.1 - (n - 2) ∧
      (a.1 < 510 → ∀ v ∈ vs, v.isFin = true → ∃ r, dbQ rnd v a.1 = some r ∧ r.1 < 2 ^ (n - 2)) ∧
      ∀ c, n - 2 ≤ c → c < a.1 → ∃ v ∈ vs, v.isFin = true ∧ ¬∃ r, dbQ rnd v c = some r ∧ r.1 < 2 ^ (n - 2) := by
  have le := dbScale_le n rnd (vs.filter FpVal.isFin) (n - 2) (513 - n) (by omega)
  refine ⟨dbScale_ge _ _ _ _ _ (by omega) (by omega), le, rfl, fun h v hv hf => ?_, fun c hc h => ?_⟩
  · exact dbFits_iff.1 (dbScale_fits _ _ _ _ _ h v (List.mem_filter.2 ⟨hv, hf⟩))
  · obtain ⟨v, hv, hf⟩ := dbScale_least _ _ _ _ _ c (by simp only [dbAuto] at h; omega) hc h
    obtain ⟨hm, hfin⟩ := List.mem_filter.1 hv
    exact ⟨v, hm, hfin, fun hx => hf (dbFits_iff.2 hx)⟩

theorem add_toNat_mul (d ulp : Nat) (up : Bool) : (d + up.toNat) * ulp = d * ulp ∨ (d + up.toNat) * ulp = d * ulp + ulp := by
  cases up
  · exact .inl rfl
  · exact .inr (Nat.succ_mul d ulp)

/-- The count of a value at a scale, against the exact magnitude `M` in units of `U` (R97, R104). -/
theorem quantise_neighbour {rnd : Nat} (neg : Bool) (m : Nat) (e qe : Int) (hr : rnd < 4) :
    let r := quantise rnd neg m e qe
    let q := r.1
    let M := m * 2 ^ (e - min e qe).toNat
    let U := 2 ^ (qe - min e qe).toNat
    (r.2 = false ↔ q * U = M) ∧ q * U < M + U ∧ M < q * U + U ∧
      (rnd = 0 → 2 * M ≤ 2 * (q * U) + U ∧ 2 * (q * U) ≤ 2 * M + U ∧
        (2 * M = 2 * (q * U) + U ∨ 2 * (q * U) = 2 * M + U → q % 2 = 0)) ∧
      (rnd = 1 → q * U ≤ M) ∧ (rnd = 2 → if neg then M ≤ q * U else q * U ≤ M) ∧
      (rnd = 3 → if neg then q * U ≤ M else M ≤ q * U) := by
  obtain h | h := Int.lt_or_le e qe
  · have hU := Nat.two_pow_pos (qe - e).toNat
    have hd := Nat.div_add_mod' m (2 ^ (qe - e).toNat)
    rw [min_eq_left h.le, quantise_below h, show (e - e).toNat = 0 by omega, Nat.pow_zero, Nat.mul_one]
    obtain h0 | h0 := eq_or_ne (m % 2 ^ (qe - e).toNat) 0
    · rw [h0] at hd ⊢
      rw [roundUp_exact]
      simp only [Bool.toNat_false, Nat.add_zero] at hd ⊢
      refine ⟨by simp [hd], by omega, by omega, by omega, by omega, ?_, ?_⟩ <;> intro <;> split <;> omega
    · obtain ⟨hlt, hgt, near, down, floor, ceil⟩ := roundUp_neighbour neg (d := m / 2 ^ (qe - e).toNat) hr rfl (Nat.mod_lt m hU) h0
      have hr := Nat.mod_lt m hU
      rw [hd] at hlt hgt near down floor ceil
      dsimp only
      generalize roundUp rnd neg (m / 2 ^ (qe - e).toNat % 2 == 1) (m % 2 ^ (qe - e).toNat) (qe - e).toNat = up at *
      have value := add_toNat_mul (m / 2 ^ (qe - e).toNat) (2 ^ (qe - e).toNat) up
      generalize (m / 2 ^ (qe - e).toNat + up.toNat) * 2 ^ (qe - e).toNat = Q, m / 2 ^ (qe - e).toNat * 2 ^ (qe - e).toNat = D at *
      generalize 2 ^ (qe - e).toNat = U at *
      have inexact : ¬Q = m := by omega
      refine ⟨by simp [h0, inexact], hlt, hgt, fun h => ?_, fun h => (down h).le, fun h => ?_, fun h => ?_⟩
      · obtain ⟨n1, n2, even⟩ := near h
        exact ⟨n1, n2, fun half => even (by omega)⟩
      · have := floor h
        cases neg <;> simp at this ⊢ <;> omega
      · have := ceil h
        cases neg <;> simp at this ⊢ <;> omega
  · rw [min_eq_right h, quantise_above h]
    simp

/-! ### Elements in a block (R95, R96) -/

/-- Field `i` of packed fields. -/
theorem packBits_field {n i b : Nat} {bs : List Nat} (h : bs[i]? = some b) : packBits n bs / 2 ^ (n * i) % 2 ^ n = b % 2 ^ n := by
  induction bs generalizing i with
  | nil => cases h
  | cons c bs ih =>
    have hc : c % 2 ^ n < 2 ^ n := Nat.mod_lt _ (Nat.two_pow_pos n)
    cases i with
    | zero =>
      cases h
      simp [packBits, Nat.add_mul_mod_self_left]
    | succ i =>
      rw [packBits, Nat.mul_succ, Nat.add_comm (n * i), Nat.pow_add, ← Nat.div_div_eq_div_mul, Nat.add_mul_div_left _ _ (Nat.two_pow_pos n),
        Nat.div_eq_of_lt hc, Nat.zero_add]
      exact ih h

/-- What the bits of an element mean at the two scales (R96, R97). -/
def dbDecode (n sh sl el : Nat) : FpVal :=
  let m := el % 2 ^ (n - 2)
  let sc := if el / 2 ^ (n - 1) % 2 = 0 then sh else sl
  if sc = 511 then .nan false else if m = 0 then .fin false 0 0 else .fin (el / 2 ^ (n - 2) % 2 == 1) m ((sc : Int) - 256)

/-- An element of a block is what its bits mean at the block's scales. -/
theorem dbElem_block {n sh sl i : Nat} {es : List DbEnc} {e : DbEnc} (hsh : sh < 512) (hsl : sl < 512) (h : es[i]? = some e)
    (he : e.bits < 2 ^ n) : dbElem n (dbBlock n sh sl es) i = dbDecode n sh sl e.bits := by
  have field : dbBlock n sh sl es / 2 ^ (32 + n * i) % 2 ^ n = e.bits := by
    rw [Nat.pow_add, ← Nat.div_div_eq_div_mul, dbBlock, Nat.add_mul_div_left _ _ (by decide),
      Nat.div_eq_of_lt (show sh % 512 + sl % 512 * 512 < 2 ^ 32 by omega), Nat.zero_add,
      packBits_field (by rw [List.getElem?_map, h]; rfl), Nat.mod_eq_of_lt he]
  have high : dbBlock n sh sl es % 512 = sh := by simp only [dbBlock]; omega
  have low : dbBlock n sh sl es / 512 % 512 = sl := by simp only [dbBlock]; omega
  simp only [dbElem, field, high, low, dbDecode]

section Bits
variable {n : Nat} (hn : 4 ≤ n)
include hn

theorem dbBits_lt (sel neg : Bool) {m : Nat} (hm : m < 2 ^ (n - 2)) : dbBits n sel neg m < 2 ^ n := by
  obtain ⟨w, rfl⟩ : ∃ w, n = w + 2 := ⟨n - 2, by omega⟩
  simp only [dbBits, Nat.add_sub_cancel, show w + 2 - 1 = w + 1 by omega, Nat.pow_succ] at hm ⊢
  split <;> split <;> omega

/-- An element's bits mean its magnitude at the scale that they select. -/
theorem dbDecode_bits (sh sl : Nat) (sel neg : Bool) {m : Nat} (hm : m < 2 ^ (n - 2)) : dbDecode n sh sl (dbBits n sel neg m) =
    if (if sel then sl else sh) = 511 then .nan false
    else if m = 0 then .fin false 0 0 else .fin neg m (((if sel then sl else sh) : Nat) - 256 : Int) := by
  obtain ⟨w, rfl⟩ : ∃ w, n = w + 2 := ⟨n - 2, by omega⟩
  simp only [Nat.add_sub_cancel] at hm
  have hv : dbBits (w + 2) sel neg m = m + 2 ^ w * ((neg && m != 0).toNat + 2 * sel.toNat) := by
    simp only [dbBits, Nat.add_sub_cancel, show w + 2 - 1 = w + 1 by omega, Nat.pow_succ]
    cases sel <;> cases hb : (neg && m != 0) <;> simp <;> omega
  have mag : dbBits (w + 2) sel neg m % 2 ^ w = m := by rw [hv, Nat.add_mul_mod_self_left, Nat.mod_eq_of_lt hm]
  have rest : dbBits (w + 2) sel neg m / 2 ^ w = (neg && m != 0).toNat + 2 * sel.toNat := by
    rw [hv, Nat.add_mul_div_left _ _ (Nat.two_pow_pos w), Nat.div_eq_of_lt hm, Nat.zero_add]
  have top : dbBits (w + 2) sel neg m / 2 ^ (w + 1) % 2 = sel.toNat := by
    rw [Nat.pow_succ, ← Nat.div_div_eq_div_mul, rest]
    cases sel <;> cases (neg && m != 0) <;> rfl
  simp only [dbDecode, Nat.add_sub_cancel, show w + 2 - 1 = w + 1 by omega, mag, rest, top]
  obtain rfl | h0 := eq_or_ne m 0
  · cases sel <;> simp
  · have : (m != 0) = true := by simpa using h0
    cases sel <;> cases neg <;> simp [h0, this]

/-- The outlier marker means a zero at SH (R101). -/
theorem dbDecode_marker (sh sl : Nat) : dbDecode n sh sl (2 ^ (n - 2)) = if sh = 511 then .nan false else .fin false 0 0 := by
  obtain ⟨w, rfl⟩ : ∃ w, n = w + 2 := ⟨n - 2, by omega⟩
  have : 2 ^ w / 2 ^ (w + 1) = 0 := Nat.div_eq_of_lt (Nat.pow_lt_pow_right (by decide) (Nat.lt_succ_self w))
  simp [dbDecode, this]

end Bits

/-! ### Encoding (R100, R101) -/

/-- What an element becomes that fits neither scale. -/
def dbOver (n : Nat) (sat : Bool) (sh sl : Nat) (x : FpVal) (w : Word) : DbEnc :=
  if sat then
    if x.isNan then { bits := 0, flags := fNV }
    else
      { bits := if sh ≠ 511 then dbBits n false x.sign (dbMax n) else if sl ≠ 511 then dbBits n true x.sign (dbMax n) else 0
        flags := fOF ||| fNX ||| fSAT }
  else
    { bits := 2 ^ (n - 2), flags := fOUT ||| flagIf x.isSig fNV, out := some (if x.isNan then BitVec.ofNat 32 fp32.nan else w) }

section Encode
variable {n rnd sh sl : Nat} {sat : Bool} {x : FpVal} {w : Word} {r : Nat × Bool}

theorem dbEncode_low (h : dbQ rnd x sl = some r) (hr : r.1 < 2 ^ (n - 2)) :
    dbEncode n rnd sat sh sl x w = { bits := dbBits n true x.sign r.1, flags := dbFlags x r.1 r.2 } := by
  simp [dbEncode, h, (dbMax_le n r.1).2 hr]

/-- Whether an element that does not fit SL is an overflow depends on SH only. -/
theorem dbEncode_not_low (hl : ¬dbFits n rnd x sl = true) : dbEncode n rnd sat sh sl x w = match dbQ rnd x sh with
    | some r => if r.1 ≤ dbMax n then { bits := dbBits n false x.sign r.1, flags := dbFlags x r.1 r.2 } else dbOver n sat sh sl x w
    | none => dbOver n sat sh sl x w := by
  have low : ∀ r, dbQ rnd x sl = some r → ¬r.1 ≤ dbMax n := fun r hq hr => hl (dbFits_iff.2 ⟨r, hq, (dbMax_le n r.1).1 hr⟩)
  unfold dbEncode dbOver
  cases hq : dbQ rnd x sl with
  | none => cases dbQ rnd x sh <;> cases x <;> rfl
  | some r =>
    have : ¬r.1 ≤ dbMax n := low r hq
    cases dbQ rnd x sh <;> cases x <;> simp only [this, if_false] <;> rfl

theorem dbEncode_high (hl : ¬dbFits n rnd x sl = true) (h : dbQ rnd x sh = some r) (hr : r.1 < 2 ^ (n - 2)) :
    dbEncode n rnd sat sh sl x w = { bits := dbBits n false x.sign r.1, flags := dbFlags x r.1 r.2 } := by
  rw [dbEncode_not_low hl, h]
  exact if_pos ((dbMax_le n r.1).2 hr)

theorem dbEncode_over (hl : ¬dbFits n rnd x sl = true) (hh : ¬dbFits n rnd x sh = true) :
    dbEncode n rnd sat sh sl x w = dbOver n sat sh sl x w := by
  rw [dbEncode_not_low hl]
  unfold dbFits at hh
  cases hq : dbQ rnd x sh with
  | none => rfl
  | some r => exact if_neg (by simpa [hq] using hh)

/-- The flags of an element that fits (R100). -/
theorem dbFlags_eq (x : FpVal) (q : Nat) (nx : Bool) : x.isFin = true → dbFlags x q nx =
    (if nx then fNX else 0) ||| (if q = 0 ∧ (match x with | .fin _ 0 _ => true | _ => false) = false then fUF else 0) := by
  intro hf
  match x, hf with
  | .fin _ 0 _, _ => simp [dbFlags, flagIf]
  | .fin _ (m + 1) _, _ => simp [dbFlags, flagIf]

end Encode

theorem blockElements : Claims.BlockElements := by
  intro n rnd vs hn fits
  have four : 4 ≤ n := by omega
  refine ⟨dbAuto_scale n rnd vs (by omega), fun x sc h => dbQ_none h, fun neg m e sc hsc hr => ?count, ?element⟩
  case count =>
    exact ⟨(quantise rnd neg m e ((sc : Int) - 256)).1, (quantise rnd neg m e ((sc : Int) - 256)).2, dbQ_fin hsc,
      quantise_neighbour neg m e _ hr⟩
  intro sat sh sl i x w es hsh hsl hi v e val zero exact top marked
  have decode {el : Nat} (h : e.bits = el) (hel : el < 2 ^ n) : v = dbDecode n sh sl el := by
    subst h
    exact dbElem_block hsh hsl hi hel
  have max : dbMax n < 2 ^ (n - 2) := (dbMax_le n _).1 le_rfl
  have max0 : dbMax n ≠ 0 := by
    have : 2 ^ 2 ≤ 2 ^ (n - 2) := Nat.pow_le_pow_right (by decide) (by omega)
    rw [dbMax]
    omega
  refine ⟨fun r hq hr => ?low, fun hl r hq hr => ?high, fun hl hh => ?neither⟩
  case low =>
    have he : e = _ := dbEncode_low hq hr
    refine ⟨?_, by rw [he], by rw [he]; exact dbFlags_eq _ _ _ (dbQ_some hq).1⟩
    rw [decode (by rw [he]) (dbBits_lt four _ _ hr), dbDecode_bits four sh sl _ _ hr]
    simp [(dbQ_some hq).2, val]
  case high =>
    have he : e = _ := dbEncode_high (mt dbFits_iff.1 hl) hq hr
    refine ⟨?_, by rw [he], by rw [he]; exact dbFlags_eq _ _ _ (dbQ_some hq).1⟩
    rw [decode (by rw [he]) (dbBits_lt four _ _ hr), dbDecode_bits four sh sl _ _ hr]
    simp [(dbQ_some hq).2, val]
  case neither =>
    have he : e = dbOver n sat sh sl x w := dbEncode_over (mt dbFits_iff.1 hl) (mt dbFits_iff.1 hh)
    refine ⟨fun hs hx => ?clamped, fun hs hx => ?notANumber, fun hs => ?outlier⟩
    case clamped =>
      simp only [dbOver, hs, hx, if_true, Bool.false_eq_true, if_false] at he
      refine ⟨?_, by rw [he], by rw [he]⟩
      by_cases hsh : sh = 511
      · by_cases hsl : sl = 511
        · rw [decode (el := dbBits n false false 0) (by rw [he]; simp [hsh, hsl, dbBits]) (dbBits_lt four _ _ (Nat.two_pow_pos _)),
            dbDecode_bits four _ _ _ _ (Nat.two_pow_pos _)]
          simp [hsh, hsl]
        · rw [decode (el := dbBits n true x.sign (dbMax n)) (by rw [he]; simp [hsh, hsl]) (dbBits_lt four _ _ max),
            dbDecode_bits four _ _ _ _ max]
          simp only [hsh, hsl, max0, ne_eq, not_true, not_false_iff, if_true, if_false]
          rfl
      · rw [decode (el := dbBits n false x.sign (dbMax n)) (by rw [he]; simp [hsh]) (dbBits_lt four _ _ max),
          dbDecode_bits four _ _ _ _ max]
        simp only [hsh, max0, ne_eq, not_false_iff, Bool.false_eq_true, if_true, if_false]
        rfl
    case notANumber =>
      simp only [dbOver, hs, hx, if_true] at he
      rw [decode (el := dbBits n false false 0) (by rw [he]; rfl) (dbBits_lt four _ _ (Nat.two_pow_pos _)),
        dbDecode_bits four _ _ _ _ (Nat.two_pow_pos _), he]
      simp
    case outlier =>
      simp only [dbOver, hs, Bool.false_eq_true, if_false] at he
      rw [decode (el := 2 ^ (n - 2)) (by rw [he]) (Nat.pow_lt_pow_right (by decide) (by omega)), dbDecode_marker four]
      refine ⟨by simp, ?_, by rw [he]; rfl⟩
      rw [he]
      rfl

end Sys2Proof.Machine
end

section
/-!
PROOFS. What memory operations leave of the plots (spec/02 R71, R73, spec/07 R215, spec/18 R401, R402): every plot's
script of matrix commands.
-/

namespace Sys2Proof.Machine

open Sys2Proof

/-! ### Operations on home memory change no plot -/

@[simp] theorem State.charge_plots (s : State) (a : Nat) (c : Charge) (n : Nat) : (s.charge a c n).plots = s.plots := rfl
@[simp] theorem State.written_plots (s : State) (pa n : Nat) : (s.written pa n).plots = s.plots := rfl
@[simp] theorem State.setFrame_plots (s : State) (f : Nat) (e : FrameEnt) : (s.setFrame f e).plots = s.plots := rfl

@[simp] theorem State.realise_plots (s : State) (f : Nat) : (s.realise f).plots = s.plots := by
  unfold State.realise
  dsimp only
  split <;> rfl

@[simp] theorem State.ownHome_plots (s : State) (pa : Nat) (v : Byte) : (s.ownHome pa v).plots = s.plots := by
  unfold State.ownHome
  split <;> rfl

@[simp] theorem State.ownBack_plots (s : State) (p pa : Nat) (v : Byte) : (s.ownBack p pa v).plots = s.plots := by
  unfold State.ownBack
  split <;> rfl

@[simp] theorem State.ownCached_plots (s : State) (p pa n : Nat) : (s.ownCached p pa n).plots = s.plots := by
  unfold State.ownCached
  split <;> rfl

@[simp] theorem State.qcbNote_plots (s : State) (a : Nat) : (s.qcbNote a).plots = s.plots := by
  unfold State.qcbNote
  split
  · rfl
  · split
    · rfl
    · dsimp only
      split
      · rfl
      · split
        · simp [State.onQueue]
        · split
          · exact State.onAllot_plots ..
          · split
            · exact State.onAllot_plots ..
            · rfl

/-- A fold of steps that change no plot changes none. -/
theorem State.foldl_plots {α : Type} {f : State → α → State} (h : ∀ s a, (f s a).plots = s.plots) (l : List α) (s : State) :
    (l.foldl f s).plots = s.plots := by
  induction l generalizing s with
  | nil => rfl
  | cons a l ih => rw [List.foldl_cons, ih, h]

theorem State.ite_plots {s t : State} {c : Prop} [Decidable c] (h : t.plots = s.plots) : (if c then t else s).plots = s.plots := by
  split
  · exact h
  · rfl

@[simp] theorem State.homeWrite_plots (s : State) (pa n v : Nat) : (s.homeWrite pa n v).plots = s.plots := by
  unfold State.homeWrite
  split
  · rfl
  · exact (State.foldl_plots (fun s a => by simp) _ _).trans (by simp)

@[simp] theorem State.leafStep_plots (s : State) (ea : Nat) (f : DWord → DWord) : (s.leafStep ea f).plots = s.plots := by
  unfold State.leafStep
  dsimp only
  split <;> simp

@[simp] theorem State.fillSlice_plots (s : State) (al pa : Nat) (l : DWord) : (s.fillSlice al pa l).plots = s.plots := by
  unfold State.fillSlice
  split
  · rfl
  · dsimp only
    split <;> rfl

@[simp] theorem State.sliceWrite_plots (s : State) (pa n x : Nat) : (s.sliceWrite pa n x).plots = s.plots := by
  unfold State.sliceWrite
  split <;> simp

@[simp] theorem State.writeBack_plots (p : Nat) (s : State) (l : Line) : (State.writeBack p s l).plots = s.plots := by
  unfold State.writeBack
  split
  · rfl
  · split
    · rfl
    · dsimp only
      refine (State.foldl_plots (fun s a => ?_) _ _).trans ?_
      · split <;> simp
      · split <;> simp

/-! ### Operations that change a plot's caches only -/

/-- The script of a plot's matrix engine. -/
def State.script (s : State) (p : Nat) : List MxCmd := (s.plot p).script

theorem State.script_of_plots {s t : State} (h : t.plots = s.plots) (p : Nat) : t.script p = s.script p := by
  simp only [State.script, State.plot, h]

theorem State.script_onPlot (s : State) (q : Nat) (f : Plot → Plot) (h : (f (s.plot q)).script = (s.plot q).script) (p : Nat) :
    (s.onPlot q f).script p = s.script p := by
  unfold State.script
  by_cases hp : p = q
  · rw [hp, State.plot_onPlot_same, h]
  · rw [State.plot_onPlot_ne _ _ _ _ hp]

theorem State.foldl_script {α : Type} {f : State → α → State} {p : Nat} (h : ∀ s a, (f s a).script p = s.script p) (l : List α) (s : State) :
    (l.foldl f s).script p = s.script p := by
  induction l generalizing s with
  | nil => rfl
  | cons a l ih => rw [List.foldl_cons, ih, h]

@[simp] theorem State.script_expel (s : State) (q ln p : Nat) : (s.expel q ln).script p = s.script p := by
  unfold State.expel
  split
  · rfl
  · exact (State.script_onPlot _ _ _ rfl _).trans (State.script_of_plots (by simp) _)

@[simp] theorem State.script_useLine (s : State) (q : Nat) (l : Line) (p : Nat) : (s.useLine q l).script p = s.script p := by
  have put : (s.onPlot q (fun x => x.putLine l)).script p = s.script p := State.script_onPlot _ _ _ rfl _
  unfold State.useLine
  dsimp only
  split
  · rw [State.script_expel, put]
  · exact put

@[simp] theorem State.script_dropTlb (s : State) (al vpn n p : Nat) : (s.dropTlb al vpn n).script p = s.script p := by
  refine (congrArg (fun o : Option Plot => (o.getD {}).script) (look_map s.plots (fun _ q => { q with
    tlb := q.tlb.filter (fun t => t.al != al || !(decide (vpn ≤ t.vpn) && decide (t.vpn < vpn + n))) }) p)).trans ?_
  unfold State.script State.plot
  cases look s.plots p <;> rfl

@[simp] theorem State.script_makeZeros (s : State) (al va pa ea : Nat) (b : Bool) (p : Nat) : (s.makeZeros al va pa ea b).script p = s.script p := by
  unfold State.makeZeros
  rw [State.script_dropTlb]
  refine (State.script_of_plots (State.leafStep_plots ..) p).trans (State.script_of_plots (State.foldl_plots (fun s i => ?_) _ _) p)
  exact State.ite_plots (State.setFrame_plots ..)

@[simp] theorem leafGo_script (s : State) (al va : Nat) (wr : Bool) (l : DWord) (pa ea : Nat) (block hit : Bool) (p : Nat) :
    (leafGo s al va wr l pa ea block hit).script p = s.script p := by
  unfold leafGo
  dsimp only
  have first : (if wr && bitsN l 11 1 == 0 then s.leafStep ea leafD else s).script p = s.script p := by
    split
    · exact State.script_of_plots (by simp) p
    · rfl
  have zeros (t : State) : (if wr && bitsN l 10 1 == 1 then t.makeZeros al va pa ea block else t).script p = t.script p := by
    split
    · exact State.script_makeZeros ..
    · rfl
  split
  · rw [zeros, first]
  · rw [State.script_of_plots (State.fillSlice_plots ..), zeros, first]

theorem access_script {s t : State} {p al va pa : Nat} {w : Want} {v : View} {e : Eng} {z : Bool}
    (h : access s p al va w v e = .ok (t, pa, z)) (q : Nat) : t.script q = s.script q := by
  unfold access at h
  split at h
  · cases h
  · cases h
  · cases h
  · dsimp only at h
    split at h
    · cases h
    · cases h
      refine (State.script_onPlot _ _ _ rfl _).trans ?_
      rw [leafGo_script]
      refine (State.script_of_plots ?_ q)
      split <;> split <;> simp [State.walkCharge]

@[simp] theorem State.script_putHome (s : State) (p : Nat) (v : View) (pa n x q : Nat) : (s.putHome p v pa n x).script q = s.script q := by
  unfold State.putHome
  split
  · dsimp only
    rw [State.script_useLine, State.script_of_plots (State.ownCached_plots ..)]
  · rw [State.script_of_plots (State.sliceWrite_plots ..), State.script_expel]

@[simp] theorem State.script_storeAt_home (s : State) (p : Nat) (v : View) (pa n x q : Nat) :
    (s.storeAt p v (.home pa) n x).script q = s.script q := by
  unfold State.storeAt
  simp only [Loc.isScr, Bool.false_eq_true, if_false, State.writeAt]
  split
  · refine State.foldl_script (fun s i => ?_) _ _
    split
    · rfl
    · exact State.script_putHome ..
  · exact State.script_putHome ..

@[simp] theorem State.script_readAt_home (s : State) (p : Nat) (v : View) (pa : Nat) (z : Bool) (n q : Nat) :
    (s.readAt p v (.home pa) z n).1.script q = s.script q := by
  unfold State.readAt
  dsimp only
  split
  · exact State.script_useLine ..
  · exact State.script_expel ..

end Sys2Proof.Machine
end

section
/-!
PROOFS. Block packing, unpacking and the append of MXC (spec/06 R198 to R201, spec/08 R268): a collective whose set is fixed at its
arrival performs its operation at its lowest participant (O37).
-/

namespace Sys2Proof.Machine

open Sys2Proof

/-! ### The arrival that fixes a set (R35, R36) -/

theorem State.ctxAt_some {s : State} {r : TRef} {k : Ctx} (h : s.ctxAt r = some k) :
    k.r = r ∧ look s.casts r.c = some k.c ∧ look k.c.threads r.t = some k.t := by
  unfold State.ctxAt at h
  obtain ⟨c, hc, h⟩ := Option.bind_eq_some_iff.1 h
  obtain ⟨t, ht, rfl⟩ := Option.map_eq_some_iff.1 h
  exact ⟨rfl, hc, ht⟩

theorem fixNow_some {k : Ctx} {fx : FixedSet} (h : fixNow k = some fx) : fx =
    { parts := ((List.range 32).filter (fun l => laneRes k.c k.crewN k.t l == .part)).map (fun l => 32 * k.crewN + l)
      mode := k.crew.mode, outl := k.crew.outl, outlh := k.crew.outlh } := by
  unfold fixNow participants at h
  split at h
  · cases h
  · cases h
    rfl

/-- A set that is ready in a crew: some of its lanes, in their order, and not none. -/
theorem State.readyGroups_parts {s : State} {cid crew : Nat} {fx : FixedSet} (h : fx ∈ s.readyGroups cid crew) :
    ∃ p : Nat → Bool, fx.parts = ((List.range 32).filter p).map (fun l => 32 * crew + l) ∧
      ∃ l, l < 32 ∧ fx.parts.head? = some (32 * crew + l) := by
  obtain ⟨l, hl, h⟩ := List.mem_filterMap.1 h
  obtain ⟨k, hk, h⟩ := Option.bind_eq_some_iff.1 h
  obtain ⟨a, -, h⟩ := Option.bind_eq_some_iff.1 h
  split at h
  · cases h
  · obtain ⟨gx, hg, h⟩ := Option.bind_eq_some_iff.1 h
    split at h
    · rename_i head
      cases h
      have hr := (State.ctxAt_some hk).1
      have hl := List.mem_range.1 hl
      have hn : k.crewN = crew := by
        rw [Ctx.crewN, hr]
        show (32 * crew + l) / 32 = crew
        omega
      refine ⟨_, by rw [fixNow_some hg, hn], l, hl, by rw [head, hr]⟩
    · cases h

/-- A thread whose set is not fixed yet tries to have the sets of its crew fixed. -/
theorem tryColl_unfixed {s : State} {r : TRef} {k : Ctx} {a : Arrival} (h : s.ctxAt r = some k) (ha : k.t.arrival = some a)
    (hf : a.fixed = none) : tryColl s r = s.fixCrew r.c k.crewN := by
  simp only [tryColl, h, ha, hf]

theorem State.fixCrew_one {s : State} {cid crew : Nat} {c : Cast} {fx : FixedSet} (hc : look s.casts cid = some c)
    (hm : s.midStep c = false) (hg : s.readyGroups cid crew = [fx]) : s.fixCrew cid crew = runFixed (s.markFixed cid fx) cid fx := by
  simp [State.fixCrew, hc, hm, hg]

theorem runFixed_ok {s r : State} {cid : Nat} {fx : FixedSet} {low : Ctx} {a : Arrival} (h : s.ctxAt ⟨cid, fx.parts.headD 0⟩ = some low)
    (ha : low.t.arrival = some a) (hh : collHeld s low fx = false) (hr : performColl s low a.instr fx = .ok r) :
    runFixed s cid fx = r := by
  simp only [runFixed, h, ha, hh, hr, Bool.false_eq_true, if_false]

section Gathers
variable {i : Instr} {s : State} {k low : Ctx} {q : Bool} {regs : List Dst} {vals : List Word} {fx : FixedSet}

/-- The thread that has arrived. -/
def Ctx.arrived (k : Ctx) (q : Bool) (s : State) (i : Instr) (vals : List Word) : Thread :=
  { (k.cued q).t with st := .blocked (.collective { instr := i, vals := vals, ceil := acbCeil (s.acb k.c.al) }) }

theorem Ctx.arrives_ctxAt (h : s.ctx = some k) : (k.arrives q s i vals).ctxAt k.r =
    some { r := k.r, c := k.c.setThread k.r.t (k.arrived q s i vals), t := k.arrived q s i vals } :=
  State.ctxAt_setThread s k.r _ k.c (State.ctx_cast h)

/-- Marking a set changes only threads of its cast. -/
theorem State.markFixed_cast (s : State) (cid : Nat) (fx : FixedSet) : look (s.markFixed cid fx).casts cid =
    (look s.casts cid).map (fun c => { c with threads := c.threads.map (fun (i, t) => (i, if fx.parts.contains i then t.markFixed fx else t)) }) :=
  State.look_onCast_same ..

variable (g : k.gathers q s i vals fx low)
include g

theorem Ctx.gathers_low : low.r = ⟨k.r.c, fx.parts.headD 0⟩ ∧ low.crewN = k.crewN := by
  obtain ⟨-, ready, hlow, -, -⟩ := g
  have hr := (State.ctxAt_some hlow).1
  obtain ⟨p, -, l, hl, head⟩ := State.readyGroups_parts (s := k.arrives q s i vals) (cid := k.r.c) (crew := k.crewN) (fx := fx)
    (by rw [ready]; exact List.mem_singleton_self fx)
  refine ⟨hr, ?_⟩
  rw [Ctx.crewN, hr, List.headD_eq_head?_getD, head]
  show (32 * k.crewN + l) / 32 = k.crewN
  omega

/-- Its participants are lanes of the crew, in their order. -/
theorem Ctx.gathers_parts : ∃ p : Nat → Bool, fx.parts = ((List.range 32).filter p).map (fun l => 32 * k.crewN + l) := by
  obtain ⟨-, ready, -⟩ := g
  obtain ⟨p, hp, -⟩ := State.readyGroups_parts (s := k.arrives q s i vals) (cid := k.r.c) (crew := k.crewN) (fx := fx)
    (by rw [ready]; exact List.mem_singleton_self fx)
  exact ⟨p, hp⟩

theorem Ctx.gathers_plot (h : s.ctx = some k) : low.c.plot = k.c.plot := by
  obtain ⟨-, -, hlow, -, -⟩ := g
  have hl := (State.ctxAt_some hlow).2.1
  have ha := (State.ctxAt_some (Ctx.arrives_ctxAt (q := q) (i := i) (vals := vals) h)).2.1
  simp only [Ctx.gathered] at hl
  rw [State.markFixed_cast, ha] at hl
  rw [← Option.some.inj hl]
  rfl

/-- The arrival that completes a set performs the set's operation. -/
theorem arrive_gathers (h : CanRun s k q regs) {f : Thread → List Word} {rd : List Dst} (hi : exec i s = arrive false q rd f i s)
    (sub : ∀ x ∈ rd, x ∈ regs) (hf : f (k.cued q).t = vals) {r : State} (hr : performColl (k.gathered q s i vals fx) low i fx = .ok r) :
    exec i s = .next r := by
  obtain ⟨quiet, ready, hlow, ⟨a, hst, hai⟩, held⟩ := g
  have ha := Ctx.arrives_ctxAt (q := q) (i := i) (vals := vals) h.ready
  have hc := (State.ctxAt_some ha).2.1
  have arrival : low.t.arrival = some a := by rw [Thread.arrival, hst]
  have run : tryColl (k.arrives q s i vals) k.r = r := by
    rw [tryColl_unfixed ha rfl rfl]
    refine (State.fixCrew_one hc (quiet _ hc) ready).trans (runFixed_ok hlow arrival held ?_)
    rw [hai]
    exact hr
  rw [hi, arrive, prologue_run (h.sub sub), hf, ← run]
  cases q <;> rfl

end Gathers

/-! ### Packing and unpacking (R199 to R201) -/

/-- The operands of the lanes of a crew, 0 where a lane has no participant. -/
theorem laneVals_getD (s : State) (cid crew : Nat) (fx : FixedSet) : (laneVals s cid crew fx).map (fun v => v.getD 0) =
    (List.range 32).map (fun l => if 32 * crew + l ∈ fx.parts then s.arrVal cid (32 * crew + l) 0 else 0) := by
  simp only [laneVals, List.map_map]
  refine List.map_congr_left fun l _ => ?_
  simp only [Function.comp_apply, List.contains_iff_mem]
  split <;> rfl

/-- A number of 4-byte fields. -/
theorem packN_words (f : Nat → Word) (n : Nat) : packN ((List.range n).map (fun l => ((f l).toNat, 4))) =
    ((List.range n).map (fun l => (f l).toNat * 2 ^ (32 * l))).sum := by
  induction n generalizing f with
  | zero => rfl
  | succ n ih =>
    have hf : (f 0).toNat % 2 ^ (8 * 4) = (f 0).toNat := Nat.mod_eq_of_lt (f 0).isLt
    have shift (l : Nat) : (f (l + 1)).toNat * 2 ^ (32 * (l + 1)) = 2 ^ 32 * ((f (l + 1)).toNat * 2 ^ (32 * l)) := by
      rw [Nat.mul_succ, Nat.pow_add]
      ring
    rw [List.range_succ_eq_map, List.map_cons, List.map_map, List.map_cons, List.map_map, packN, List.sum_cons, hf]
    simp only [Function.comp_def, Nat.succ_eq_add_one, ih (fun l => f (l + 1)), shift, List.sum_map_mul_left, Nat.mul_zero,
      Nat.pow_zero, Nat.mul_one]

/-- The elements of a block whose lanes are known, and the outliers among them with their indices (R199, R200). -/
theorem bpack_ok {low : Ctx} {s s1 : State} {fx : FixedSet} {fixedSc : Bool} {f : Nat} {d : BitVec 6} {lane : Nat → Word} {cid crew : Nat}
    (hc : low.r.c = cid) (hn : low.crewN = crew) (hl : (laneVals s cid crew fx).map (fun v => v.getD 0) = (List.range 32).map lane) :
    let n := dbWidth f
    let sc := s.arrVal cid low.r.t 2
    let ss := if fixedSc then (bitsN sc 0 9, bitsN sc 9 9) else
      dbAuto n (modeDbRnd fx.mode n) ((List.range 32).map (fun l => fp32.read false (lane l).toNat))
    let es := (List.range 32).map (fun l =>
      dbEncode n (modeDbRnd fx.mode n) (modeDbSat fx.mode n) ss.1 ss.2 (fp32.read false (lane l).toNat) (lane l))
    let outs := ((List.range 32).zip es).filterMap
      (fun e => e.2.out.map (fun v => (v, BitVec.ofNat 32 (32 * (s.arrVal cid low.r.t 1).toNat + e.1))))
    let blk := dbBlock n ss.1 ss.2 es
    (outs = [] → s1 = s) → (outs ≠ [] → appendOutliers s low fx outs = .ok s1) →
      bpack fixedSc f d s low fx = .ok (deliverNow
        (s1.onCast cid (fun c => c.onCrew crew (fun w => w.setFlags (orFlags (es.map DbEnc.flags))))) cid fx
        (fun j u => u.setX d (if j % 32 < 1 + n then BitVec.ofNat 32 (blk / 2 ^ (32 * (j % 32))) else 0))) := by
  subst hc hn
  intro n sc ss es outs blk h0 h1
  have out : (if outs.isEmpty then .ok s else appendOutliers s low fx outs : Except CollStop State) = .ok s1 := by
    cases ho : outs with
    | nil => rw [h0 ho]; rfl
    | cons e r => rw [← ho, h1 (by simp [ho])]; simp [ho]
  unfold bpack
  dsimp only
  rw [hl, List.map_map, List.zip_map', List.map_map]
  have hr : (match (if outs.isEmpty then .ok s else appendOutliers s low fx outs : Except CollStop State) with
    | .error e => .error e
    | .ok s => .ok (deliverNow (s.onCast low.r.c (fun c => c.onCrew low.crewN (fun w => w.setFlags (orFlags (es.map DbEnc.flags)))))
        low.r.c fx (fun j u => u.setX d (if j % 32 < 1 + n then BitVec.ofNat 32 (blk / 2 ^ (32 * (j % 32))) else 0)))
      : Except CollStop State) = .ok (deliverNow
        (s1.onCast low.r.c (fun c => c.onCrew low.crewN (fun w => w.setFlags (orFlags (es.map DbEnc.flags))))) low.r.c fx
        (fun j u => u.setX d (if j % 32 < 1 + n then BitVec.ofNat 32 (blk / 2 ^ (32 * (j % 32))) else 0))) := by rw [out]
  exact hr

/-- The block that the first lanes of a crew hold (R201). -/
theorem laneVals_block {s : State} {cid crew n : Nat} {fx : FixedSet} {lane : Nat → Word}
    (hl : (laneVals s cid crew fx).map (fun v => v.getD 0) = (List.range 32).map lane) (hn : n ≤ 32) :
    packN (((laneVals s cid crew fx).take n).map (fun v => ((v.getD 0).toNat, 4))) =
      ((List.range n).map (fun l => (lane l).toNat * 2 ^ (32 * l))).sum := by
  have : ((laneVals s cid crew fx).take n).map (fun v => ((v.getD 0).toNat, 4)) = (List.range n).map (fun l => ((lane l).toNat, 4)) :=
    calc ((laneVals s cid crew fx).take n).map (fun v => ((v.getD 0).toNat, 4))
        = (((laneVals s cid crew fx).map (fun v => v.getD 0)).take n).map (fun w => (w.toNat, 4)) := by
          rw [← List.map_take, List.map_map]; rfl
      _ = (List.range n).map (fun l => ((lane l).toNat, 4)) := by
          rw [hl, ← List.map_take, List.take_range, min_eq_left hn, List.map_map]; rfl
  rw [this, packN_words]

/-- What the lanes of a crew that have participants come to, in the order of the participants. -/
theorem lanes_map {α : Type} {fx : FixedSet} {crew : Nat} {p : Nat → Bool}
    (hp : fx.parts = ((List.range 32).filter p).map (fun l => 32 * crew + l)) (g : Nat → α) :
    (List.range 32).filterMap (fun l => if fx.parts.contains (32 * crew + l) then some (g l) else none) =
      fx.parts.map (fun j => g (j % 32)) := by
  have mem {l : Nat} (hl : l ∈ List.range 32) : fx.parts.contains (32 * crew + l) = p l := by
    rw [hp, Bool.eq_iff_iff, List.contains_iff_mem, List.mem_map]
    constructor
    · rintro ⟨m, hm, e⟩
      rw [← Nat.add_left_cancel e]
      exact (List.mem_filter.1 hm).2
    · exact fun h => ⟨l, List.mem_filter.2 ⟨hl, h⟩, rfl⟩
  have lane {l : Nat} (hl : l ∈ (List.range 32).filter p) : (32 * crew + l) % 32 = l := by
    have := List.mem_range.1 (List.mem_filter.1 hl).1
    omega
  calc (List.range 32).filterMap (fun l => if fx.parts.contains (32 * crew + l) then some (g l) else none)
      = (List.range 32).filterMap (fun l => if p l then some (g l) else none) :=
        List.filterMap_congr fun l hl => by rw [mem hl]
    _ = ((List.range 32).filter p).map g := by
        rw [← List.filterMap_eq_map, List.filterMap_filter]
        rfl
    _ = fx.parts.map (fun j => g (j % 32)) := by
        rw [hp, List.map_map]
        exact List.map_congr_left fun l hl => by rw [Function.comp_apply, lane hl]

/-- The elements that the lanes of a crew unpack (R201). -/
theorem bunpk_eq {low : Ctx} {s : State} {fx : FixedSet} {f : Nat} {d : BitVec 6} {lane : Nat → Word} {cid crew : Nat} {p : Nat → Bool}
    (hc : low.r.c = cid) (hn : low.crewN = crew) (hl : (laneVals s cid crew fx).map (fun v => v.getD 0) = (List.range 32).map lane)
    (hp : fx.parts = ((List.range 32).filter p).map (fun l => 32 * crew + l)) :
    let n := dbWidth f
    let blk := ((List.range (1 + n)).map (fun l => (lane l).toNat * 2 ^ (32 * l))).sum
    let r (l : Nat) : Nat × Word := fp32.finish (modeF32 fx.mode) (.val (dbElem n blk l))
    bunpk f d s low fx = deliverNow (s.onCast cid (fun c => c.onCrew crew
        (fun w => w.setFlags (orFlags (fx.parts.map (fun j => (r (j % 32)).2)))))) cid fx
      (fun j u => u.setX d (BitVec.ofNat 32 (r (j % 32)).1)) := by
  subst hc hn
  intro n blk r
  have hn : 1 + dbWidth f ≤ 32 := by
    unfold dbWidth
    split <;> decide
  have element (j : Nat) : ((List.range 32).map (fun i => w32 (r i))).getD (j % 32) (0, 0) = w32 (r (j % 32)) := by
    have : j % 32 < 32 := Nat.mod_lt _ (by decide)
    simp [List.getD, this]
  have flags : (((List.range 32).map (fun i => w32 (r i))).zip (List.range 32)).filterMap
      (fun e => if fx.parts.contains (32 * low.crewN + e.2) then some e.1.2 else none) = fx.parts.map (fun j => (r (j % 32)).2) := by
    have hz := List.zip_map' (f := fun i => w32 (r i)) (g := id) (l := List.range 32)
    rw [List.map_id] at hz
    rw [← lanes_map hp (fun l => (r l).2), hz, List.filterMap_map]
    rfl
  unfold bunpk
  dsimp only
  rw [laneVals_block hl hn]
  refine congrArg₂ (fun w g => deliverNow w low.r.c fx g) ?_ (funext fun j => funext fun u => ?_)
  · rw [← flags]
  · exact congrArg (fun e : Word × Word => u.setX d e.1) (element j)

/-! ### The append of MXC (R268) -/

theorem appendWrites_script {s t : State} {c : Cast} {va : Nat} {x y : Word} (h : appendWrites s c va x y = .ok t) (p : Nat) :
    t.script p = s.script p := by
  unfold appendWrites at h
  split at h
  · cases h
  · rename_i ha
    dsimp only at h
    split at h
    · cases h
      rw [State.script_storeAt_home, access_script ha]
    · split at h
      · cases h
      · rename_i hb
        cases h
        rw [State.script_storeAt_home, access_script hb, State.script_storeAt_home, access_script ha]

theorem State.script_noteWload (s : State) (q fmt p : Nat) : (s.noteWload q fmt).script p = s.script p :=
  (State.script_onPlot _ _ _ rfl _).trans (State.script_of_plots rfl p)

theorem ite_noteWload_script (s : State) (q fmt p : Nat) {c : Prop} [Decidable c] :
    (if c then s.noteWload q fmt else s).script p = s.script p := by
  split
  · exact State.script_noteWload ..
  · rfl

/-- An append puts one command with the given operands at the end of the script, which had room (R268). -/
theorem mxcAppend_script {s t : State} {low : Ctx} {fx : FixedSet} {B : DWord} {x y : Word} (h : mxcAppend s low fx B x y = .ok t) :
    (s.script low.c.plot).length < 32 ∧ ∃ m : MxCmd, t.script low.c.plot = s.script low.c.plot ++ [m] ∧ m.opnd = x ∧ m.pitch = y ∧
      m.block = B ∧ m.mode = fx.mode ∧ m.started = false ∧ m.slot = low.r.t := by
  unfold mxcAppend at h
  extract_lets c p at h
  split at h
  · cases h
  split at h
  · cases h
  split at h
  · cases h
  rename_i s1 pa z ha
  split at h
  rename_i s2 v hr
  have h2 : s2.script p = s.script p := by
    rw [← access_script ha p, ← State.script_readAt_home s1 p .plot pa z 64 p, hr]
  extract_lets raw b at h
  split at h
  · cases h
  split at h
  · cases h
  split at h
  · cases h
  split at h
  · cases h
  rename_i room
  split at h
  · cases h
  split at h
  · cases h
  rename_i s3 hw
  have h3 : s3.script p = s.script p := (appendWrites_script hw p).trans h2
  extract_lets rows at h
  split at h
  rename_i op s4 hs4
  have h4 : s4.script p = s.script p := by
    rw [← h3, show s4 = (s3.count low .mx false).2 by rw [hs4]]
    exact State.script_of_plots (State.onCast_plots ..) p
  extract_lets n cmd s5 s6 s7 at h
  have h6 : s6.script p = s.script p ++ [cmd] := by
    rw [← h4]
    exact congrArg Plot.script (State.plot_onPlot_same s5 p _)
  have h7 : s7.script p = s6.script p := ite_noteWload_script s6 p b.fmt p
  have ht : t.script p = s7.script p := by
    rw [← Except.ok.inj h]
    split
    · exact ite_noteWload_script s7 _ b.fmt p
    · rfl
  refine ⟨?_, cmd, by rw [← h6, ← h7]; exact ht, rfl, rfl, rfl, rfl, rfl, rfl⟩
  have hlen : (s2.plot p).script.length < 32 := by
    simp only [Bool.or_eq_true, decide_eq_true_eq, not_or, Nat.not_le] at room
    exact room.1
  rwa [show (s2.plot p).script = s.script p from h2] at hlen

theorem performColl_mxc {s t : State} {low : Ctx} {fx : FixedSet} {q : Bool} {p : BitVec 5} {a b : BitVec 6} {cid : Nat} (hc : low.r.c = cid)
    (h : mxcAppend s low fx (s.arrVal cid low.r.t 1 ++ s.arrVal cid low.r.t 0) (s.arrVal cid low.r.t 2) (s.arrVal cid low.r.t 3) = .ok t) :
    performColl s low (.mxc q p a b) fx = .ok (deliverNow t cid fx (fun _ u => u)) := by
  subst hc
  simp only [performColl, h]

theorem blockResults_collective : Claims.BlockResults := by
  intro q d a b p f s k low fx hf h n slot lane flag packs
  have wf : decide (f.toNat < 3) = true := decide_eq_true hf
  have pack (i : Instr) (fixedSc : Bool) (hi : exec i s = arrive false q ([.x a, .x d] ++ pairDst p)
        (fun t => [t.getX a, t.getX (pairLo p), t.getX (pairHi p)]) i s)
      (hp : ∀ m, performColl m low i fx = match bpack fixedSc f.toNat d m low fx with
        | .ok s => .ok s
        | .error e => .error (false, e)) : packs i fixedSc := by
    intro g blkNo sc ss es outs blk t1 h0 h1
    obtain ⟨hr, hn⟩ := Ctx.gathers_low g
    have hc : low.r.c = k.r.c := by rw [hr]
    have run := bpack_ok (fixedSc := fixedSc) (f := f.toNat) (d := d) hc hn (laneVals_getD _ k.r.c k.crewN fx) h0 h1
    refine arrive_gathers g h hi ?_ ?_ ?_
    · simp; tauto
    · simp
    · rw [hp, run]
      rfl
  refine ⟨pack _ false ?_ (fun _ => rfl), pack _ true ?_ (fun _ => rfl), ?_, ?_⟩
  · rw [exec_bpack, execBpack, bpackOp, Instr.wf, wf]; rfl
  · rw [exec_bpackFx, execBpackFx, bpackOp, Instr.wf, wf]; rfl
  · intro i t g blk r
    obtain ⟨hr, hn⟩ := Ctx.gathers_low g
    obtain ⟨parts, hp⟩ := Ctx.gathers_parts g
    have hc : low.r.c = k.r.c := by rw [hr]
    have run := bunpk_eq (f := f.toNat) (d := d) hc hn (laneVals_getD t k.r.c k.crewN fx) hp
    refine arrive_gathers g h (rd := [.x a, .x d]) (f := fun t => [t.getX a]) ?_ (by simp) (by simp) (congrArg Except.ok run)
    rw [exec_bunpk, execBunpk, Instr.wf, wf]
    rfl
  · intro i vals t g arg t1 ht1
    obtain ⟨hr, hn⟩ := Ctx.gathers_low g
    have hc : low.r.c = k.r.c := by rw [hr]
    obtain ⟨room, append⟩ := mxcAppend_script ht1
    rw [Ctx.gathers_plot g h.ready] at room append
    refine ⟨arrive_gathers g h (exec_mxc ..) ?_ ?_ ?_, room, append⟩
    · simp
      tauto
    · simp [vals]
    · exact performColl_mxc hc ht1

/-- Settles O37: the set's operation at its arrival, and the elements by their bits. -/
theorem blockResults : Obligations.BlockResults := ⟨blockResults_collective, blockElements⟩

end Sys2Proof.Machine
end

section
/-!
PROOFS. The matrix engine (spec/03 R113 to R116, spec/08 R269 to R272): the start and the retirement of a command, the cells that it
writes, and its sums (O42).
-/

namespace Sys2Proof.Machine

open Sys2Proof

/-! ### Cells of a tile (R74) -/

theorem Plot.setCells_engine (p : Plot) (l : List (Nat × Word)) :
    (p.setCells l).mxseq = p.mxseq ∧ (p.setCells l).script = p.script := by
  induction l generalizing p with
  | nil => exact ⟨rfl, rfl⟩
  | cons e r ih => exact ih (p.setCell e.1 e.2)

theorem Plot.cell_setCell_same (p : Plot) (a : Nat) (v : Word) : (p.setCell a v).cell a = v := by
  simp [Plot.setCell, Plot.cell]

theorem Plot.cell_setCell_ne (p : Plot) {a n : Nat} (v : Word) (h : a ≠ n) : (p.setCell n v).cell a = p.cell a := by
  simp [Plot.setCell, Plot.cell, h]

theorem Plot.cell_setCells_ne (p : Plot) {a : Nat} {l : List (Nat × Word)} (h : ∀ e ∈ l, a ≠ e.1) : (p.setCells l).cell a = p.cell a := by
  induction l generalizing p with
  | nil => rfl
  | cons e r ih =>
    rw [Plot.setCells, ih _ (fun x hx => h x (List.mem_cons_of_mem e hx)), Plot.cell_setCell_ne _ _ (h e (List.mem_cons_self ..))]

/-- A cell that is written takes its value, where every write of it has that value. -/
theorem Plot.cell_setCells_mem (p : Plot) {a : Nat} {v : Word} {l : List (Nat × Word)} (h : ∃ e ∈ l, e.1 = a)
    (hv : ∀ e ∈ l, e.1 = a → e.2 = v) : (p.setCells l).cell a = v := by
  induction l generalizing p with
  | nil => simp at h
  | cons e r ih =>
    rw [Plot.setCells]
    by_cases hr : ∃ x ∈ r, x.1 = a
    · exact ih _ hr (fun x hx => hv x (List.mem_cons_of_mem e hx))
    · obtain ⟨x, hx, rfl⟩ := h
      obtain rfl | hx := List.mem_cons.1 hx
      · rw [Plot.cell_setCells_ne _ (fun y hy e => hr ⟨y, hy, e.symm⟩), Plot.cell_setCell_same, hv x (List.mem_cons_self ..) rfl]
      · exact absurd ⟨x, hx, rfl⟩ hr

/-- The writes of the first `m` rows of a tile. -/
def tileCells (tile m : Nat) (f : Nat → Nat → Word) : List (Nat × Word) :=
  (List.range m).flatMap (fun i => (List.range 128).map (fun j => (cellKey tile i j, f i j)))

theorem mem_tileCells {tile m : Nat} {f : Nat → Nat → Word} {e : Nat × Word} :
    e ∈ tileCells tile m f ↔ ∃ i j, i < m ∧ j < 128 ∧ e = (cellKey tile i j, f i j) := by
  simp only [tileCells, List.mem_flatMap, List.mem_range, List.mem_map]
  constructor
  · rintro ⟨i, hi, j, hj, rfl⟩
    exact ⟨i, j, hi, hj, rfl⟩
  · rintro ⟨i, j, hi, hj, rfl⟩
    exact ⟨i, hi, j, hj, rfl⟩

/-- Each cell of the rows takes its own value, and no other cell changes. -/
theorem Plot.cell_setCells_tile (p : Plot) (tile m : Nat) (f : Nat → Nat → Word) :
    (∀ i j, i < m → j < 128 → (p.setCells (tileCells tile m f)).cell (cellKey tile i j) = f i j) ∧
    ∀ a, (∀ i j, i < m → j < 128 → a ≠ cellKey tile i j) → (p.setCells (tileCells tile m f)).cell a = p.cell a := by
  refine ⟨fun i j hi hj => ?_, fun a ha => ?_⟩
  · refine Plot.cell_setCells_mem p ⟨_, mem_tileCells.2 ⟨i, j, hi, hj, rfl⟩, rfl⟩ fun e he hk => ?_
    obtain ⟨i', j', -, hj', rfl⟩ := mem_tileCells.1 he
    simp only [cellKey] at hk
    obtain rfl : j' = j := by omega
    obtain rfl : i' = i := by omega
    rfl
  · refine Plot.cell_setCells_ne p fun e he => ?_
    obtain ⟨i, j, hi, hj, rfl⟩ := mem_tileCells.1 he
    exact ha i j hi hj

/-! ### Starting and retiring (R270, R272) -/

/-- Cell writes that take effect change no script and no MXSEQ. -/
theorem State.settleCells_engine (s : State) (q p : Nat) :
    ((s.settleCells q).plot p).mxseq = (s.plot p).mxseq ∧ ((s.settleCells q).plot p).script = (s.plot p).script := by
  unfold State.settleCells
  dsimp only
  by_cases hp : p = q
  · rw [hp, State.plot_onPlot_same]
    exact Plot.setCells_engine ..
  · rw [State.plot_onPlot_ne _ _ _ _ hp]
    exact ⟨rfl, rfl⟩

/-- At its end a command leaves its script, and MXSEQ rises (R272). -/
theorem cmdEnd_engine (s : State) (p : Nat) (k : MxCmd) (fl : Word) : ((cmdEnd s p k fl).plot p).mxseq = (s.plot p).mxseq + 1 ∧
    ((cmdEnd s p k fl).plot p).script = (s.plot p).script.filter (fun x => x.id != k.id) := by
  unfold cmdEnd
  extract_lets s1 s2 s3 s4 s5
  have h1 : s1.plot p = s.plot p := by
    simp only [s1]
    split
    · exact State.plot_onCast ..
    · rfl
  have h3 : s3.plot p = s.plot p := by simp [s3, s2, h1, State.opRetire, State.opDone]
  have h4 : (s4.plot p).mxseq = (s.plot p).mxseq + 1 ∧ (s4.plot p).script = (s.plot p).script.filter (fun x => x.id != k.id) := by
    rw [← h3]
    simp [s4]
  have h5 : (s5.plot p).mxseq = (s4.plot p).mxseq ∧ (s5.plot p).script = (s4.plot p).script := by
    simp only [s5]
    split
    · exact State.settleCells_engine ..
    · exact ⟨rfl, rfl⟩
  have h6 := State.settleCells_engine s5 p p
  exact ⟨h6.1.trans (h5.1.trans h4.1), h6.2.trans (h5.2.trans h4.2)⟩

/-- A command that may start and takes no reel entry starts (R270). -/
theorem execMatrixCommandStart_starts {s : State} {p n : Nat} {k : MxCmd} {c : Cast} (hk : (s.plot p).script[n]? = some k)
    (hc : look s.casts k.cid = some c) (fresh : k.started = false) (hn : n < 32) (preds : ∀ i ∈ k.preds, s.inScript i = false)
    (order : ∀ j ∈ (s.plot p).script, j.id < k.id → ¬(k.b.kind = 1 ∧ j.b.kind = 0) ∧ ¬(k.b.kind = 0 ∧ j.b.kind = 1))
    (array : s.arrayFree p k = true) (mxw : s.mxwBefore c k = false) (entry : ¬(k.b.kind < 2 ∧ k.b.asrc = 2)) :
    execMatrixCommandStart p n s = .next (s.onPlot p (fun q => q.setCmd { k with started := true })) := by
  have hp : k.preds.all (fun i => !s.inScript i) = true := List.all_eq_true.2 fun i hi => by rw [preds i hi]; rfl
  have ho : weightOrder (s.plot p).script k = true := by
    unfold weightOrder
    rw [Bool.not_eq_true', List.any_eq_false]
    intro j hj
    simp only [Bool.and_eq_true, decide_eq_true_eq, Bool.or_eq_true, beq_iff_eq, not_and, not_or]
    exact fun h => ⟨fun a b => (order j hj h).1 ⟨a, b⟩, fun a b => (order j hj h).2 ⟨a, b⟩⟩
  have ht : k.takes k.b.reeln = false := by
    rw [Bool.eq_false_iff]
    intro h
    simp only [MxCmd.takes, Bool.and_eq_true, decide_eq_true_eq, beq_iff_eq] at h
    exact entry ⟨h.1.1.1, h.1.1.2⟩
  simp only [execMatrixCommandStart, hk, hc, fresh, hn, hp, ho, array, mxw, cmdTake, ht]
  rfl

/-- A started command that meets nothing retires with its effect and its completion word (R272). -/
theorem execMatrixCommandRetire_retires {s s1 s2 : State} {p n : Nat} {k : MxCmd} {c : Cast} {fl : Word} (hk : (s.plot p).script[n]? = some k)
    (hc : look s.casts k.cid = some c) (started : k.started = true) (held : (s.plot p).cmdHeld k = false)
    (shown : s.behindShown c k = false) (good : c.bad = false) (run : runCmd s c k = .ok (s1, fl)) (word : cmdWord s1 c k = .ok s2) :
    execMatrixCommandRetire p n s = .next (cmdEnd s2 p k fl) := by
  simp [execMatrixCommandRetire, hk, hc, started, held, shown, State.readsBad, good, run, word]

/-! ### Effects (R269) -/

section Effects
variable {s : State} {c : Cast} {k : MxCmd}

/-- The completion word of a command whose address resolves outside SCRATCH: a release, the word, its wake events (R272). -/
theorem cmdWord_release {s1 : State} {l : Loc} {z : Bool} (hw : k.b.cwaddr ≠ 0) (hl : l.isScr = false)
    (hr : resolve s c k.cid (classify s.devnum (BitVec.ofNat 64 k.b.cwaddr)) .write .home .mx = .ok (s1, l, z)) :
    cmdWord s c k = .ok (((s1.release c.plot 3).writeAt c.plot .home l 4 k.b.cwval).wakeRange l 4) := by
  simp only [cmdWord, hw, if_false, hr, hl, Bool.false_eq_true]

theorem runCmd_zero (h : k.b.kind = 2) :
    runCmd s c k = .ok (s.onPlot c.plot (fun p => p.setCells (tileCells (c.tile k.b.acct) k.b.m (fun _ _ => 0))), 0) := by
  have fits : cmdFits c k = true := by simp [cmdFits, h]
  simp only [runCmd, fits, h]
  rfl

theorem runCmd_wload (h : k.b.kind = 0) (hf : k.b.fuse = 0) (ha : k.b.asrc = 0) :
    runCmd s c k = .ok (s.onPlot c.plot (fun q => { q with wfmt := BitVec.ofNat 8 k.b.fmt, wrows := k.rows }), 0) := by
  have fits : cmdFits c k = true := by simp [cmdFits, h, ha]
  simp only [runCmd, fits, h, runWload, hf, ha]
  rfl

/-- An MMA that is not fused and has no outliers writes the rows of its tile with their sums (R116, R269). -/
theorem runCmd_mma (h : k.b.kind = 1) (hf : k.b.fuse = 0) (hn : k.b.nout = 0) (fits : cmdFits c k = true)
    (hc : mxClass (s.plot c.plot).wfmt.toNat = mxClass k.b.fmt) : ∃ fl, runCmd s c k = .ok (s.onPlot c.plot (fun p => p.setCells
      (tileCells (c.tile k.b.acct) k.b.m (fun i j => (cellSums k (rowOfA c k i) { lo := ((s.plot c.plot).wfmt.toNat, (s.plot c.plot).wrows) } j
        ((s.plot c.plot).cell (cellKey (c.tile k.b.acct) i j)) []).1.headD 0))), fl) := by
  have targets : mmaTargets s c k = [(c.plot, { lo := ((s.plot c.plot).wfmt.toNat, (s.plot c.plot).wrows) })] := by
    simp only [mmaTargets, hf]
    rfl
  have cells : (mmaCells s c k [] c.plot { lo := ((s.plot c.plot).wfmt.toNat, (s.plot c.plot).wrows) }).1 =
      tileCells (c.tile k.b.acct) k.b.m (fun i j => (cellSums k (rowOfA c k i) { lo := ((s.plot c.plot).wfmt.toNat, (s.plot c.plot).wrows) } j
        ((s.plot c.plot).cell (cellKey (c.tile k.b.acct) i j)) []).1.headD 0) := by
    simp only [mmaCells, tileCells, List.map_flatMap, List.map_map]
    rfl
  refine ⟨orFlags [(mmaCells s c k [] c.plot { lo := ((s.plot c.plot).wfmt.toNat, (s.plot c.plot).wrows) }).2], ?_⟩
  rw [← cells]
  simp [runCmd, fits, h, targets, hc, hf, hn, readOuts]

end Effects

/-! ### Sums (R113 to R116) -/

/-- The exact value of an integer sum, narrowed once to the cell (R113). -/
theorem sumInt_eq (sat : Bool) (a w : Nat → Int) (start : Int) (n : Nat) :
    (sumInt sat a w start n).1 = start + ((List.range n).map (fun i => a i * w i)).sum ∧
      (sumInt sat a w start n).2.1.headD 0 = intWord (narrow sat true 32 (sumInt sat a w start n).1).1 := by
  induction n with
  | zero => simp [sumInt]
  | succ n ih =>
    refine ⟨?_, rfl⟩
    rw [List.range_succ, List.map_append, List.sum_append, ← Int.add_assoc, ← ih.1]
    simp [sumInt]

theorem cellSums_int {k : MxCmd} {row j : Nat} {w : Weights} {start : Word} (hc : mxClass k.b.fmt = some 1) (hf : k.b.fuse = 0)
    (ha : k.b.accum = 1) : (cellSums k row w j start []).1.headD 0 = intWord (narrow (modeIntSat k.mode) true 32
      (start.toInt + ((List.range (fmtK k.b.fmt)).map (fun i => rowInt row i * rowInt (w.lo.2.getD j 0) i)).sum)).1 := by
  have hw : (List.range (fmtK k.b.fmt)).map (fun i => rowInt row i * w.int (fmtK k.b.fmt) j i) =
      (List.range (fmtK k.b.fmt)).map (fun i => rowInt row i * rowInt (w.lo.2.getD j 0) i) :=
    List.map_congr_left fun i hi => by rw [Weights.int, if_pos (List.mem_range.1 hi)]
  have hs := sumInt_eq (modeIntSat k.mode) (rowInt row) (w.int (fmtK k.b.fmt) j) start.toInt (fmtK k.b.fmt)
  rw [hw] at hs
  rw [← hs.1, ← hs.2]
  simp only [cellSums, hc, hf, ha]
  rfl

theorem matrixEvents_events : Claims.MatrixEvents := by
  refine ⟨fun s p n k c hk hc => ⟨fun fresh hn preds order array mxw entry => ?start, fun s1 s2 fl started held shown good run word => ?retire,
    fun s1 l z hw hl hr => cmdWord_release hw hl hr, fun h => ?zero, fun h hf ha => ?wload⟩, fun k row j w start hc hf ha => ?int⟩
  case start =>
    rw [exec_matrixCommandStart, execMatrixCommandStart_starts hk hc fresh hn preds order array mxw entry]
    rfl
  case retire =>
    obtain ⟨seq, script⟩ := cmdEnd_engine s2 p k fl
    refine ⟨by rw [exec_matrixCommandRetire, execMatrixCommandRetire_retires hk hc started held shown good run word], seq, fun x hx => ?_⟩
    rw [script] at hx
    simpa using (List.mem_filter.1 hx).2
  case zero =>
    refine ⟨_, runCmd_zero h, ?_⟩
    rw [State.plot_onPlot_same]
    exact Plot.cell_setCells_tile ..
  case wload =>
    refine ⟨_, runCmd_wload h hf ha, ?_⟩
    rw [State.plot_onPlot_same]
    exact ⟨rfl, rfl⟩
  case int =>
    rw [cellSums_int hc hf ha]
    cases hs : modeIntSat k.mode with
    | true => rw [narrow_sat, intLo_eq, intHi_eq]; rfl
    | false => exact intWord_narrow_wrap ..

/-- The current value of a sum (R114, R115). -/
def Sums.value (t : Sums) : Word := t.1.headD 0

/-- A sum of 16-bit products adds one product after another (R114). -/
theorem sum16_steps (a w : Nat → FpVal) (st : Word) (tot : Nat) : ∃ t : Nat → Word, t 0 = st ∧
    (∀ i, i < tot → t (i + 1) = BitVec.ofNat 32 (fp32.finish nearest (FpVal.fma 0 (a i) (w i) (fp32.read false (t i).toNat))).1) ∧
    (sum16 a w ([st], 0) tot).value = t tot :=
  ⟨fun i => (sum16 a w ([st], 0) i).value, rfl, fun _ _ => rfl, rfl⟩

/-- The rounded exact sum of a block (R115). -/
def blockRounded (a w : Nat → FpVal) (b : Nat) : Nat :=
  match blockSum a w b 32 with
  | some v => (fp32.round nearest (decide (v < 0)) v.natAbs (-512)).1
  | none => fp32.nan

theorem blockStep_value (a w : Nat → FpVal) (t : Sums) (b : Nat) :
    (blockStep a w t b).value = BitVec.ofNat 32 (fp32.addOp nearest t.value.toNat (blockRounded a w b)).1 := by
  unfold blockStep blockRounded
  cases blockSum a w b 32 <;> rfl

/-- A DB sum adds the rounded sums of its blocks, then its outliers' products (R115). -/
theorem sumDb_steps (a w : Nat → FpVal) (st : Word) (blocks : Nat) (outs : List (Word × Nat)) : ∃ t u : Nat → Word, t 0 = st ∧
    (∀ b, b < blocks → t (b + 1) = BitVec.ofNat 32 (fp32.addOp nearest (t b).toNat (blockRounded a w b)).1) ∧ u 0 = t blocks ∧
    (∀ n e, outs[n]? = some e → u (n + 1) = BitVec.ofNat 32
      (fp32.finish nearest (FpVal.fma 0 (fp32.read false e.1.toNat) (w e.2) (fp32.read false (u n).toNat))).1) ∧
    (sumDb a w blocks outs ([st], 0)).value = u outs.length := by
  refine ⟨fun b => ((List.range b).foldl (blockStep a w) ([st], 0)).value, fun n => (sumDb a w blocks (outs.take n) ([st], 0)).value, rfl,
    fun b _ => ?_, rfl, fun n e he => ?_, ?_⟩
  · dsimp only
    rw [List.range_succ, List.foldl_append]
    exact blockStep_value ..
  · dsimp only
    rw [List.take_add_one, he, sumDb, List.foldl_append]
    rfl
  · dsimp only
    rw [List.take_length]

/-- The outliers of a row are those of its indices (R115, R116). -/
theorem rowOuts_cons (k : MxCmd) (x : Word × Nat) (l : List (Word × Nat)) (i : Nat) :
    let tot := if k.b.fuse = 2 then 2 * fmtK k.b.fmt else fmtK k.b.fmt
    rowOuts k (x :: l) i = if x.2 / tot = i then (x.1, x.2 % tot) :: rowOuts k l i else rowOuts k l i := by
  intro tot
  have cons : (x :: l).filter (fun e => e.2 / tot == i) = if x.2 / tot = i then x :: l.filter (fun e => e.2 / tot == i)
      else l.filter (fun e => e.2 / tot == i) := by
    simp only [List.filter_cons, beq_iff_eq]
  show ((x :: l).filter (fun e => e.2 / tot == i)).map (fun e => (e.1, e.2 % tot)) = _
  rw [cons, apply_ite (List.map _)]
  rfl

/-- The products of the first `m` elements of a block of finite values, in units of 2^-512 (R115). -/
theorem blockSum_finite {a w : Nat → FpVal} {b : Nat} {na nw : Nat → Bool} {ma mw : Nat → Nat} {ea ew : Nat → Int} {m : Nat}
    (h : ∀ i, i < m → a (32 * b + i) = .fin (na i) (ma i) (ea i) ∧ w (32 * b + i) = .fin (nw i) (mw i) (ew i)) :
    blockSum a w b m = some ((List.range m).map (fun i => unitsAt (na i != nw i) (ma i * mw i) (ea i + ew i) (-512))).sum := by
  induction m with
  | zero => rfl
  | succ m ih =>
    obtain ⟨ha, hw⟩ := h m (Nat.lt_succ_self m)
    rw [blockSum, ih (fun i hi => h i (Nat.lt_succ_of_lt hi)), ha, hw, List.range_succ, List.map_append, List.sum_append]
    simp [scaled_eq_unitsAt]

/-- One element that is not finite, and the block has no sum (R115). -/
theorem blockSum_none {a w : Nat → FpVal} {b i m : Nat} (hi : i < m)
    (h : (a (32 * b + i)).isFin = false ∨ (w (32 * b + i)).isFin = false) : blockSum a w b m = none := by
  induction m with
  | zero => omega
  | succ m ih =>
    obtain hi | rfl := Nat.lt_succ_iff_lt_or_eq.1 hi
    · rw [blockSum, ih hi]
    · rw [blockSum]
      cases blockSum a w b i <;> cases ha : a (32 * b + i) <;> cases hw : w (32 * b + i) <;> simp_all [FpVal.isFin]

theorem matrixSums : Claims.MatrixSums := by
  refine ⟨fun k row j w start outs => ⟨fun hc => ?sixteen, fun hc => ?blocks, fun x l i => ⟨rfl, rowOuts_cons k x l i⟩⟩,
    fun a w b na nw ma mw ea ew h => blockSum_finite fun i hi => ⟨(h i hi).1, (h i hi).2.1⟩, fun a w b i hi h => blockSum_none hi h,
    fun s c k h hf hn fits hc => ?cells⟩
  case sixteen =>
    simp only [cellSums, hc]
    exact sum16_steps ..
  case blocks =>
    have hs : ∀ row j w start outs, cellSums k row w j start outs = sumDb (rowElem k.b.fmt row) (w.elem (fmtK k.b.fmt) j)
        ((if k.b.fuse = 2 then 2 * fmtK k.b.fmt else fmtK k.b.fmt) / 32) outs ([if k.b.accum = 1 then start else 0], 0) := by
      intro row j w start outs
      obtain hc | hc := hc <;> simp only [cellSums, hc]
    simp only [hs]
    exact sumDb_steps ..
  case cells =>
    obtain ⟨fl, run⟩ := runCmd_mma h hf hn fits hc
    refine ⟨_, fl, run, ?_⟩
    rw [State.plot_onPlot_same]
    exact Plot.cell_setCells_tile ..

/-- Settles O42: the steps of a command by its state, and its sums by their recursions. -/
theorem matrixEvents : Obligations.MatrixEvents := ⟨matrixEvents_events, matrixSums⟩

end Sys2Proof.Machine
end
